-- ==== Sys2Proof/Word.lean ====
section
/-! DEFINITION. The word types of the VG48-96: 48-bit words, 52-bit queue items, bytes, bell numbers. -/

namespace Sys2Proof

/-- A byte. -/
abbrev Byte := BitVec 8

/-- A fabric word (00_scope.md, Table 00-5: a 48-bit value). -/
abbrev Word := BitVec 48

/-- A bell number, the 48-bit count of R6. -/
abbrev BellNo := BitVec 48

/-- A stored memory word: 48 data bits below 8 check bits (Table 04-2). -/
abbrev Stored := BitVec 56

/-- A queue item of Table 05-2: FIRST 51, LAST 50, MARK 49, BAD 48, DATA [47:0]. -/
abbrev Item := BitVec 52

/-- A 384-bit digest or measurement register. -/
abbrev Digest := BitVec 384

end Sys2Proof
end

