-- ==== Sys2Proof/Config.lean ====
section
/-! DEFINITION. What the spec leaves to values that no rule gives: free values (opaque, without a body, so that no proof
can see them) and the cryptographic functions of outside standards, uninterpreted. -/

namespace Sys2Proof.Config

/-- The decision of an arbiter or mutual-exclusion element near an edge, by the count of decisions made (R56, R75,
R77, R146). FREE VALUE: assumption 3. -/
opaque arbiter : Nat → Bool

/-- SHA-384 of a string of bytes (FIPS 180-4, not stated by the spec), uninterpreted: assumption 4. -/
opaque sha384 : List Byte → Digest

/-- What seals a message or record: AES-256-GCM under the key and nonce of the named use (R355, R356, R630),
uninterpreted: assumption 4. Arguments: a use number, an index and the plaintext. -/
opaque sealBytes : Nat → Nat → List Byte → List Byte

/-- An ECDSA P-384 signature by the device identity key (R628, R734), uninterpreted: assumption 4. -/
opaque identitySign : List Byte → List Byte

/-- The key stream of section k of an encrypted image, byte by byte, and whether the section's tag verifies (R765,
AES-256-GCM under a key from the image's header and the migration key), uninterpreted: assumption 4. Arguments: the
header; the section number; the byte, or the table entry and the section body. -/
opaque imageKeystream : List Byte → Nat → Nat → Byte
opaque imageTagOk : List Byte → Nat → List Byte → List Byte → Bool

/-- Whether the operator signature that ends a manifest verifies under the key of the given hash (R724), uninterpreted:
assumption 4. -/
opaque manifestSigOk : List Byte → Digest → Bool

/-- The device's public keys: the identity key (R727) and the migration key of an operator key generation. -/
opaque identityPub : List Byte
opaque migrationPub : BitVec 8 → List Byte

/-- Bytes drawn from the DRBG, by its draw count (R731, R732): FREE VALUE, assumption 5. -/
opaque drbg : Nat → Nat → List Byte

/-- A session ID, snapshot ID or IV drawn from the DRBG, by its draw count: FREE VALUE, assumption 5. -/
opaque drawId : Nat → BitVec 128

/-- A session ID as drawn, by the draw count: FREE VALUE, assumption 5. -/
opaque sessionId : Nat → BitVec 32

/-- The ephemeral P-384 public key of a snapshot (R355), by its draw: assumption 5. -/
opaque ephPub : Nat → List Byte

/-- CUT_BELL of a snapshot of a forced stop, which holds no cut (Table 07-2), by count of free values drawn. FREE VALUE:
assumption 14. -/
opaque noCutBell : Nat → BitVec 48

/-- What the fuses and firmware of this part hold: its serial number, its PCI vendor ID, its grade (true for E), its
ROM digest and the hash of the generation 0 operator key (R722, Table 13-6): assumption 6. -/
opaque serial : BitVec 48
opaque vendorId : BitVec 16
opaque gradeE : Bool
opaque romDigest : Digest
opaque rootHash0 : Digest

/-- The TYPE byte of a response that names no present entry, by OP (R636 states none). FREE VALUE: assumption 7. -/
opaque respType : Byte → Byte

/-- The status with which a snapshot or restore completes when a fault or a clear ends it (R375 states none), by count
of free values drawn. FREE VALUE: assumption 9. -/
opaque endStatus : Nat → Byte

/-- The change of delay trim, in steps of 0.5 %, that the measurement of a calibration pass calls for (R115, R118: no
rule relates it to the chains), by count of free values drawn. FREE VALUE: assumption 10. -/
opaque trimWant : Nat → Int

/-- Whether an outgoing track of a SELECT croft carries Z1 rather than Z0 (R101: no rule says which tracks do), by track
code. FREE VALUE: assumption 11. -/
opaque selectTrack : Nat → Bool

/-- Which of the sensors that could be named a THERMAL_ALERT or THERMAL_CLEAR record names (R806 states none), by count
of free values drawn. FREE VALUE: assumption 22. -/
opaque alertSensor : Nat → Nat

/-- DATA of a BOOT_SLOT_REJECT record, by slot and status: Table 16-5 puts the slot in bit 32 of DATA and the status in
[39:32], which overlap. FREE VALUE: assumption 21. -/
opaque slotReject : Bool → Byte → Word

/-- The SUB_ID that a new subscription would take (R647 states none), and the status of an UNSUBSCRIBE that names no
subscription, by count of free values drawn. FREE VALUES: assumption 25. -/
opaque subId : Nat → BitVec 8
opaque noSubStatus : Nat → Byte

/-- The words of a bank whose contents were lost with VGRAN (R217), by loss and address. FREE VALUE: assumption 24. -/
opaque lostWord : Nat → Nat → BitVec 56

/-- What only the hardware finds at a start-up, by count of cold resets: whether the identity key that core 3 derives
equals the fused one (R728), whether the Store can be read (R697), whether a Ledger page passes its test (R826). FREE
VALUES: assumption 20. -/
opaque identityOk : Nat → Bool
opaque storeReadable : Nat → Bool
opaque pageGood : Nat → Nat → Bool

end Sys2Proof.Config
end

