-- ==== Sys2Proof/Syntax.lean ====
section
/-! DEFINITION. The commands of the block: one constructor of `Instr` for each row of the spec's table of operations
and events (opcode_table.json), with the row's operands. What only the outside can know (the verdict of a
signature or tag over data that arrives, a measured value, received bits) is an operand. -/

namespace Sys2Proof

/-- The three paths on which Ubper messages come (R18). The field network carries the source's interface
identifier and port; the PF0 mailbox its request slot. -/
inductive Path where
  | fnet (src : BitVec 64)
  | pf0 (slot : Fin 8)
  | ssp1
deriving DecidableEq, Repr

/-- The envelope of a SEALED request (Table 12-1, Table 12-4): its path, session, counter, whether its tag
verifies (R643), its ciphertext (compared under R641) and the client's TAG. -/
structure Req where
  path : Path
  sess : BitVec 32
  ctr : BitVec 32
  sealOk : Bool
  ct : List Byte
  tag : BitVec 16
deriving DecidableEq, Repr

/-- The three masks of Table 06-6. -/
inductive MaskKind where
  | vf
  | lane
  | cvu
deriving DecidableEq, Repr

/-- The supplies of Table 20-6. -/
inductive Supply where
  | vreeve
  | vaux18
  | vinIvr
  | vgran
  | vsd
  | vsdt
  | vfuse
  | vccio (bank : Fin 8)
deriving DecidableEq, Repr

/-- The errors of Table 08-12 that a TLP or the link shows, completion errors apart (R442, R443). -/
inductive TlpErr where
  | receiverError
  | badTlp
  | badDllp
  | replayTimeout
  | replayRollover
  | poisonedBarWrite
  | ecrc
  | malformed
  | dlProtocol
  | fcProtocol
  | rxOverflow
deriving DecidableEq, Repr

/-- How a host data read completes (R442, R443). -/
inductive CplStatus where
  | ok
  | ur
  | ca
  | poisoned
deriving DecidableEq, Repr

/-- The kinds of host DMA unit (R407). -/
inductive DmaKind where
  | dataWrite
  | dataRead
  | descRead
  | writeBack
deriving DecidableEq, Repr

/-- A received 66-bit block: its sync header in the order sent (first bit in bit 1) and its scrambled payload. -/
structure Block where
  sh : BitVec 2
  payload : BitVec 64
deriving DecidableEq, Repr

/-- A Limva frame as three parts of descrambled payloads (R478, R479). -/
structure Frame where
  header : BitVec 64
  body : List (BitVec 64)
  trailer : BitVec 64
deriving DecidableEq, Repr

/-- The two PLLs of a quad, and its reference clock (Table 09-9 STATUS). -/
inductive PllSel where
  | a
  | b
  | ref
deriving DecidableEq, Repr

/-- What the inputs of a handshake controller are offered from outside the crofts of its Plot (R98 to R111): the
word inputs, K, the carry-in, the dual-rail tracks arriving at the Plot's edge, and whether the receivers outside
the crofts have acknowledged the last output. -/
structure CtlIn where
  extA : Option Word
  extB : Option Word
  extK : Option Bool
  extCin : Option Bool
  bits : List (Nat × Bool)
  extAck : Bool
deriving DecidableEq, Repr

/-- A configuration crossing of R517 that an HS transfer serves. -/
inductive HsTarget where
  | plotCfg (p : Fin 64) (addr : BitVec 24) (v : Word)
  | queueReg (q : Fin 256)
  | cvuReg (u : Fin 32)
deriving DecidableEq, Repr

/-- A role credential (Table 12-3). -/
structure Cred where
  role : BitVec 8
  holding : BitVec 8
  epoch : BitVec 32
  serial : BitVec 48
deriving DecidableEq, Repr

/-- The value that a WRITE carries (Table 12-6): a number of types 0 to 6, or bytes of STR and BLOB. -/
inductive Val where
  | num (n : Nat)
  | bytes (b : List Byte)
deriving DecidableEq, Repr

/-- The snapshot header's fields (Table 07-2) as a restore reads them; `keyOk` says that TARGET_KEY_ID names this
device's key (R355, R365). -/
structure SnapHdr where
  magic : BitVec 32
  format : Byte
  family : Byte
  deviceCode : BitVec 16
  snapClass : Byte
  consistent : Bool
  move : Bool
  w : Byte
  ht : Byte
  records : BitVec 16
  digest : Digest
  snapId : BitVec 128
  keyOk : Bool
deriving DecidableEq, Repr

/-- One packet taken from SNAP.IN_QUEUE: the header, a record with the verdict of its tag and its plaintext, or a
marker of the given code (R366, R380). -/
inductive SnapPart where
  | header (h : SnapHdr)
  | record (tagOk : Bool) (plain : List Byte)
  | marker (code : Byte)
deriving DecidableEq, Repr

/-- What core 0 finds in a slot (Table 14-4): the first failing check, if any, and the package's fields. -/
structure SlotScan where
  wellFormed : Bool
  sigOk : Bool
  rollback : BitVec 8
  s1Ok : Bool
  sectionsOk : Bool
  length : Nat
  s1 : Digest
  s3 : List Digest
  fwVersion : BitVec 32
  headerDigest : Digest
deriving DecidableEq, Repr

/-- One sample of the sensors of Table 16-3; `none` where the sensor's island or quad is unpowered (R804). -/
structure Sensors where
  plotTemp : Vector (BitVec 16) 64
  quadTemp : Vector (BitVec 16) 12
  package : BitVec 16
  plotMv : Vector (BitVec 16) 64
  plotMa : Vector (BitVec 32) 64
  vinMa : BitVec 32
deriving DecidableEq, Repr

/-- The outcome of a test unit: pass, or its first failing address and bit with the count of failing cells, and the
failing cells as (word address or channel, bit) (Table 17-3, R848 to R854). -/
inductive UnitOutcome where
  | pass
  | fail (addr : BitVec 24) (bit : Byte) (count : BitVec 16) (cells : List (Nat × Nat))
deriving DecidableEq, Repr

/-- The commands of the block. -/
inductive Instr where
  -- 02 The Bell
  | bellEdge
  | lateRun (q : Fin 256)
  | closeHandshake (q : Fin 256)
  | slotBoundary (j : Fin 16) (qsCe : Nat)
  | bellPeriodWrite (rq : Req) (v : BitVec 16)
  | slotMapWrite (rq : Req) (m : Fin 18) (bytes : List Byte)
  | bellSourceWrite (rq : Req) (v : Byte)
  | bellRestart (rq : Req) (refOk : Bool)
  | timebaseLock
  | timebaseLost
  | bellInEdge
  | holdover
  -- 03 Fabric
  | calibrationPassStart (p : Fin 64)
  | calibrationPassEnd (p : Fin 64) (chain0 chain1 : BitVec 16)
  | delayTrimApply (p : Fin 64) (line : Nat)
  | fabricCalibrate (rq : Req)
  | fabricUnfitClear (rq : Req)
  | mulU (p : Fin 64) (n : Fin 16) (a b : Word) (upset : BitVec 96)
  | mulS (p : Fin 64) (n : Fin 16) (a b : Word) (upset : BitVec 96)
  | macU (p : Fin 64) (n : Fin 16) (a b : Word) (upset : BitVec 96)
  | macS (p : Fin 64) (n : Fin 16) (a b : Word) (upset : BitVec 96)
  | msuS (p : Fin 64) (n : Fin 16) (a b : Word) (upset : BitVec 96)
  | accRead (p : Fin 64) (n : Fin 16)
  | accClear (p : Fin 64) (n : Fin 16)
  | accReadClear (p : Fin 64) (n : Fin 16)
  | add (p : Fin 64) (n : Fin 16) (a b : Word)
  | sub (p : Fin 64) (n : Fin 16) (a b : Word)
  | cmp (p : Fin 64) (n : Fin 16) (a b : Word)
  | shl (p : Fin 64) (n : Fin 16) (a b : Word)
  | shrL (p : Fin 64) (n : Fin 16) (a b : Word)
  | shrA (p : Fin 64) (n : Fin 16) (a b : Word)
  | gfmul (p : Fin 64) (n : Fin 16) (a b : Word)
  | quernReservedOp (p : Fin 64) (n : Fin 16)
  | binRead (p : Fin 64) (b : Fin 24) (port : Bool) (addr : Word)
  | binWrite (p : Fin 64) (b : Fin 24) (port : Bool) (addr : Word) (d : Word)
  -- 04 Granary
  | granaryPortRead (p : Fin 64) (port : Bool) (addr : Word)
  | granaryPortWrite (p : Fin 64) (port : Bool) (addr : Word) (d : Word)
  | granaryFence (p : Fin 64)
  | granarySystemUnit (p : Fin 64)
  | scrubLineDue (p : Fin 64)
  | binScrubRow (p : Fin 64) (b : Fin 24)
  | windowRead (vf : Fin 33) (off : BitVec 27) (len : Nat)
  | windowWrite (vf : Fin 33) (off : BitVec 27) (bytes : List Byte)
  | plotClearDone (p : Fin 64) (ok : Bool)
  | granaryClearRetry (rq : Req)
  -- 05 Queues
  | stageItem (q : Fin 256) (it : Item)
  | commitUnit (q : Fin 256) (n : Nat)
  | releaseUnit (q : Fin 256) (n : Nat) (wrong : List Nat)
  | itemAccept (q : Fin 256)
  | queueBind (rq : Req) (q : Fin 256)
  | queueUnbind (rq : Req) (q : Fin 256)
  | queueFlush (rq : Req) (q : Fin 256)
  | idleTimeout (q : Fin 256)
  | commonsParity (stop : Byte) (q : Fin 256) (toConsumer : Bool)
  | commonsRoute (stop : Byte) (q : Fin 256)
  -- 06 Holdings
  | holdingRectWrite (rq : Req) (h : Fin 32) (v : BitVec 32)
  | holdingMaskWrite (rq : Req) (h : Fin 32) (k : MaskKind) (v : BitVec 48)
  | tallyQuotaWrite (rq : Req) (h : Fin 32) (v : BitVec 16)
  | queueQuotaWrite (rq : Req) (h : Fin 32) (v : BitVec 32)
  | holdingStart (rq : Req) (h : Fin 32)
  | holdingQuiesce (rq : Req) (h : Fin 32)
  | holdingResume (rq : Req) (h : Fin 32)
  | holdingDoze (rq : Req) (h : Fin 32)
  | holdingWake (rq : Req) (h : Fin 32)
  | holdingReset (rq : Req) (h : Fin 32)
  | holdingClear (rq : Req) (h : Fin 32)
  | hedgeCheck (e : Fin 112)
  | regFault (p : Fin 64) (overCur : Bool)
  | holdingVoltageMvWrite (rq : Req) (h : Fin 32) (v : BitVec 16)
  | rampEnd (p : Fin 64)
  | islandSettled (p : Fin 64) (mv : BitVec 16)
  -- 07 Freeze, snapshot
  | holdingFreeze (rq : Req) (h : Fin 32)
  | freezeCut (h : Fin 32)
  | freezeTimeout (h : Fin 32)
  | holdingForceStop (rq : Req) (h : Fin 32)
  | holdingSnapshot (rq : Req) (h : Fin 32) (keyOk : Bool)
  | snapshotRecord
  | snapshotTruncated (restore : Bool)
  | holdingRestore (rq : Req) (h : Fin 32)
  | restoreRecord (part : SnapPart)
  | entropyWaitExpiry
  -- 08 Host
  | linkUp (rate : Fin 6) (width : Fin 17)
  | pcieLinkLost
  | tlpError (e : TlpErr) (f : Fin 33)
  | barRegisterWrite (f : Fin 33) (off : BitVec 24) (width : Nat) (v : BitVec 64)
  | ringEnable (f : Fin 33) (q : Fin 256) (ctrl : BitVec 32)
  | ringDisable (f : Fin 33) (q : Fin 256) (ctrl : BitVec 32)
  | ringDrained (q : Fin 256)
  | ringTailWrite (f : Fin 33) (q : Fin 256) (v : BitVec 16)
  | ringErrorClear (f : Fin 33) (q : Fin 256)
  | descriptorReadCompletion (q : Fin 256) (ok : Bool) (descs : List (List Byte))
  | hostDmaUnit (q : Fin 256) (k : DmaKind) (fcOk : Bool)
  | dataReadCompletion (q : Fin 256) (st : CplStatus) (words : List (BitVec 64))
  | completionTimeout (q : Fin 256)
  | msixHoldoffExpiry (q : Fin 256)
  | msixUnmask (f : Fin 33) (v : Fin 64)
  | pf0Submit (slot : Fin 8) (len : BitVec 16)
  | pf0RespReadyClear (mask : Byte)
  | mbxLostRead (vf : Fin 33)
  | noticeLostRead
  | ringAbandonedRead (f : Fin 33) (q : Fin 256)
  | functionLevelReset (f : Fin 33)
  | hotReset
  | d3hotEntry (f : Fin 33)
  | busMasterEnableChange (f : Fin 33) (on : Bool)
  -- 09 Lanes
  | laneEnableWrite (rq : Req) (l : Fin 48) (v : Byte)
  | laneUp (l : Fin 48)
  | trainingRestart (l : Fin 48)
  | laneDown (l : Fin 48) (cut : Bool)
  | rxGroup (l : Fin 48) (b0 b1 b2 : Block)
  | rawRxWord (l : Fin 48) (w : Word)
  | txGroup (l : Fin 48)
  | quadPllUnlock (n : Fin 12) (pll : PllSel)
  | pllLock (n : Fin 12) (pll : PllSel)
  | prbsGenWrite (rq : Req) (l : Fin 48) (v : Byte)
  | prbsChkWrite (rq : Req) (l : Fin 48) (v : Byte)
  | prbsLock (l : Fin 48) (bits : List Bool)
  | prbsLockLoss (l : Fin 48) (bits : List Bool)
  | loopbackWrite (rq : Req) (l : Fin 48) (v : Byte)
  | laneModeWrite (rq : Req) (l : Fin 48) (v : Byte)
  | limvaDataFrame (l : Fin 48) (f : Frame)
  | limvaBellFrame (l : Fin 48) (f : Frame)
  | limvaInitFrame (l : Fin 48) (f : Frame)
  | limvaResyncFrame (l : Fin 48) (f : Frame)
  | limvaDown (l : Fin 48)
  -- 10 Gates and check-value units
  | cvuStart (rq : Req) (u : Fin 32)
  | cvuStop (rq : Req) (u : Fin 32)
  | cvuItem (u : Fin 32)
  | cvuFault (u : Fin 32)
  | hsTransfer (t : HsTarget)
  | gateHsTimeout (crossing : BitVec 16) (plot : Option (Fin 64))
  -- 11 Serial Select Port
  | ssp1Xfer (rq : Req)
  | sspTransferEnd (inst : Bool) (rx : List Byte)
  | sspRdyTimeout (inst : Bool) (bitsDone : Nat) (rx : List Byte)
  | chainSelect
  | chainRelease (di : List Bool)
  | ssp1CmdRead (block : BitVec 7) (addr : BitVec 16) (n : Nat)
  | ssp1CmdWrite (block : BitVec 7) (addr : BitVec 16) (bytes : List Byte) (cut : Bool)
  | ssp1Submit (len : BitVec 16)
  | ssp1AckResponse
  | ssp1AckNotice
  | ssp1Frame
  | flashWindowRead (addr : BitVec 26)
  | flashWindowWrite (addr : BitVec 26) (bytes : List Byte)
  | flashErase (addr : BitVec 26) (big : Bool)
  | flashStatusPoll (status : Byte) (readBack : List Byte)
  | flashTimeout
  -- 12 Field network
  | beaconReceived (own : Bool)
  | fnetPlcaLost
  | transmitOpportunity
  | dadComplete
  | fnetDadFail
  | neighbourSolicitation (src : BitVec 64) (target : BitVec 64)
  | echoRequest (src : BitVec 64) (payload : List Byte)
  | announceTimer
  | announce (path : Path) (body : List Byte)
  | neighbourExpiry (src : BitVec 64)
  | hello (path : Path) (body : List Byte)
  | auth (rq : Req) (cred : Cred) (sigOk proofOk : Bool)
  | read (rq : Req) (ix : BitVec 16) (sub : Byte) (off : BitVec 32) (maxLen : BitVec 16)
  | write (rq : Req) (ix : BitVec 16) (sub : Byte) (off : BitVec 32) (ty : Byte) (v : Val)
  | subscribe (rq : Req) (ix : BitVec 16) (sub : Byte) (period phase : BitVec 32)
  | unsubscribe (rq : Req) (subId : Byte)
  | keepalive (rq : Req)
  | close (rq : Req) (reason : Byte)
  | subscriptionDue (sess : BitVec 32) (subId : Byte)
  | sessionExpiry (sess : BitVec 32)
  | fnetMacWrite (rq : Req) (v : BitVec 48)
  | fnetUdpPortWrite (rq : Req) (v : BitVec 16)
  | plcaEntryWrite (rq : Req) (k : Fin 5) (v : Byte)
  | credEpochWrite (rq : Req) (h : Fin 32) (v : BitVec 32)
  -- 13 Store
  | storeCompact (sector : Fin 1024)
  | storeEraseAll (rq : Req)
  -- 14 Boot and trust
  | deviceColdReset (slotA slotB : SlotScan)
  | barrierRelease
  | coreRelease (core : Fin 4) (ok : Bool) (s2 : Digest)
  | bootHealthCheck (notReady : BitVec 4)
  | slotWriterPacket (items : List Item)
  | bootUpdate (rq : Req) (scan : SlotScan)
  | keyRotate (rq : Req) (hash : Digest) (sigOk : Bool)
  | entropyBlock (samples : List Bool)
  | drbgReseed (samples : List Bool)
  | rngHealthFail
  | rngBytesRead (rq : Req)
  | attestRun (rq : Req) (nonce : BitVec 256)
  | reeveCoreLost (core : Fin 4)
  | coreRestartDone (core : Fin 4) (ok : Bool)
  -- 15 Images
  | holdingLoad (rq : Req) (h : Fin 32)
  | imageBytesTaken (n : Nat)
  | signatureVerified (ok : Bool)
  | holdingImageChunkWrite (rq : Req) (h : Fin 32) (bytes : List Byte)
  | loadStall
  -- 16 Background work, Ledger
  | configScrubWord (p : Fin 64)
  | ledgerScrub
  | ledgerRecordWrite (ue : Bool)
  | ledgerLastGaspClear (rq : Req)
  | regulatorTrim (p : Fin 64) (mv : BitVec 16)
  | sensorSample (v : Sensors)
  | thermalTrip (p : Fin 64)
  -- 17 Self-test
  | selftestShutdown (rq : Req)
  | selftestStart
  | testUnitEnd (o : UnitOutcome)
  | runRecord (ok0 ok1 : Bool)
  | selftestFuseRepair (rq : Req)
  -- 18 Villages
  | villageManifestWrite (rq : Req) (bytes : List Byte) (sigOk : Bool)
  | musterStart
  | musterStep (di : BitVec 256)
  | musterComplete
  | slewEnd
  | musterSilence
  | villageLeave (rq : Req)
  -- 20 Pins, supplies, boundary scan
  | supplyGood (r : Supply)
  | supplyFail (r : Supply)
  | corePowerGood
  | porstNLow (ns : Nat)
  | maintNChange (low : Bool) (us : Nat)
  | idcode
  | samplePreload (v : List Bool)
  | extest
  | highz
  | clamp
  | extestPulse
  | extestTrain
  | bankcfg (v : BitVec 32)
  | bypass (opcode : Byte)
  | tapReset
  -- rows added at the end of the table
  | controllerHandshake (p : Fin 64) (c : Fin 512) (cell : Fin 48) (x : CtlIn)
  | plcaBeacon
  | vfEnableWrite (enable ari : Bool) (numVfs : BitVec 16)
deriving DecidableEq, Repr

end Sys2Proof
end

