-- ==== Sys2Proof/Machine/State.lean ====
section
/-! DEFINITION. The state of the VG48-96 as plain data, its reset value, and the reasons a step can stop. A field's comment
names the entry or rule of the spec that gives it. -/

namespace Sys2Proof.Machine

/-- Sparse memory of w-bit words in one canonical form: keys strictly rising, no word equal to 0, which is what an
unlisted key reads as (clearing writes 0, R219). -/
abbrev Mem (w : Nat) := List (Nat × BitVec w)

/-- Table 06-2. -/
inductive HState where
  | empty | loading | ready | running | quiesced | dozing | faulted | clearing
deriving DecidableEq, Repr

/-- Table 07-1. -/
inductive FreezeState where
  | none | attempt | cut | forced
deriving DecidableEq, Repr

/-- HOLDING.SNAP_STATE, Table 07-5. -/
inductive SnapState where
  | idle | snapshotting | snapshotDone | moved | restoring | restored | failed | restoreFailed
deriving DecidableEq, Repr

/-- HOLDING.BUDGET_STATE, Table 03-10. -/
inductive BudgetState where
  | ok | warn | overBudget
deriving DecidableEq, Repr

/-- HOLDING.FAULT_CAUSE, Table 06-4. -/
inductive FaultCause where
  | none | plotUnfit | quernResidue | memUe | hedgeBreach | regFault | lane | cvu
deriving DecidableEq, Repr

/-- The action of a Holding that waits for its bell edge (R288, R321, R334, R346, R350, R364, R771, R774). `doze`,
`wake`, `reset` and `clear` wait only behind an earlier action (R321). -/
inductive TransKind where
  | start | quiesce | resume | freeze | forceStop | snapshot | restore | load | loadDone
  | doze | wake | reset | clear
deriving DecidableEq, Repr

/-- A pending action: its kind, the edge (counted since reset) at which it takes effect and the bell named. -/
structure Trans where
  kind : TransKind
  edge : Nat
  bell : BellNo
  rq : Option Req
deriving DecidableEq, Repr

/-- LANE.STATE [1:0], Table 09-8. -/
inductive LaneSt where
  | off | training | up
deriving DecidableEq, Repr

/-- LANE.LIMVA_STATE, Table 09-7. -/
inductive LimvaSt where
  | down | init | active
deriving DecidableEq, Repr

/-- RING_STATUS.STATE, Table 08-4. -/
inductive RingSt where
  | disabled | active | draining | error
deriving DecidableEq, Repr

/-- CVU.STATE, Table 10-7. -/
inductive CvuSt where
  | idle | running | fault
deriving DecidableEq, Repr

/-- VILLAGE.STATE, Table 13-10. -/
inductive VillageSt where
  | none | joining | member | hold
deriving DecidableEq, Repr

/-- The role of a session (R632). -/
inductive Role where
  | pub | operator | tenant (h : Fin 32) | maint
deriving DecidableEq, Repr

/-- STATE_A and STATE_B of the slot directory, Table 14-3. -/
inductive SlotSt where
  | empty | writing | verified | bad
deriving DecidableEq, Repr

/-- How far boot has come (R701, R702, R710, R747). -/
inductive BootPhase where
  | atReset | romPassed | released | running | halted (code : BitVec 2)
deriving DecidableEq, Repr

/-- The causes of Table 19-2. -/
inductive FatalCause where
  | slotAudit | tallyAudit | creditAudit | bellSlotAudit | timebaseLost | commonsRoute | hsTimeout
  | linkLost | fatalAer | coreLost | vgranLost
deriving DecidableEq, Repr

/-- What the output log records, newest first: everything the device sends or drives. -/
inductive Out where
  /-- a sealed Ubper response or notice: its path, session, device counter and inner message -/
  | sealed (p : Path) (sess ctr : BitVec 32) (inner : List Byte)
  /-- an unsealed Ubper message: ANNOUNCE, WELCOME, REFUSE -/
  | plain (p : Path) (kind : Byte) (body : List Byte)
  /-- an ANNOUNCE multicast to ff02::1 -/
  | multicast (body : List Byte)
  /-- a Neighbour Advertisement, Neighbour Solicitation, Echo Reply or MLDv2 report -/
  | neighbourAdvert (dst : BitVec 64)
  | dadSolicit
  | mldReport
  | echoReply (dst : BitVec 64) (payload : List Byte)
  | beacon
  /-- PCIe: memory write, memory read request, MSI-X message, AER report, BAR2 completion, register read value -/
  | tlpWrite (f : Fin 33) (addr : BitVec 64) (bytes : List Byte)
  | tlpRead (f : Fin 33) (addr : BitVec 64) (len : Nat)
  | msix (f : Fin 33) (v : Nat)
  | aer (f : Fin 33) (code : Nat)
  | windowCpl (vf : Fin 33) (bytes : List Byte) (ep : Bool)
  | regRead (v : BitVec 64)
  /-- an item accepted by a consumer that is a Plot port, host DMA or Reeve channel -/
  | deliver (q : Fin 256) (it : Item)
  /-- a Plot port's or Bin port's read data -/
  | portData (p : Fin 64) (w : Word)
  /-- serial lanes: 66-bit blocks, raw words, Limva frames -/
  | laneBlock (l : Fin 48) (sh : BitVec 2) (payload : BitVec 64)
  | laneRaw (l : Fin 48) (w : Word)
  | limva (l : Fin 48) (f : Frame)
  /-- pins: a BELL_OUT pulse, an SSP byte stream, a flash command, TDO bits -/
  | bellOut (wide : Bool)
  | sspSend (inst : Bool) (bytes : List Byte)
  | flashCmd (bytes : List Byte)
  | tdo (bits : List Bool)
  /-- the pins are held by a TAP instruction: driven from the boundary register, or at high impedance -/
  | pinDrive (opcode : Byte) (boundary : List Bool)
  | musterSelect
deriving DecidableEq, Repr

/-- 02: the timebase (Table 02-1, R35 to R90). Times are ticks of 0.8 ns since reset. -/
structure Bell where
  period : BitVec 16          -- BELL.PERIOD_TICKS
  number : BellNo             -- BELL.NUMBER
  source : Bool               -- BELL.SOURCE, true for BELL_IN
  outEnable : Bool            -- BELL.OUT_ENABLE
  locked : Bool               -- BELL.STATUS 0
  binLocked : Bool            -- BELL.STATUS 1
  holdover : Bool             -- BELL.STATUS 2
  stopped : Bool              -- BELL.STATUS 3
  auditFails : BitVec 32      -- BELL.AUDIT_FAILS
  now : Nat                   -- the present tick
  edgeAt : Nat                -- tick of the latest edge
  edges : Nat                 -- edges made since reset
  len : Nat                   -- length in ticks of the current bell (R37, R67, R895)
  pendPeriod : List (Nat × BitVec 16)   -- scheduled period changes (R38, R77)
  pendSource : Bool           -- BELL_IN newly selected with direct alignment (R69, R88)
  binLast : Option Nat        -- tick of the previous BELL_IN edge since BELL_IN was selected (R84, R86)
  binFrom : Nat               -- tick from which the wait for a first one counts (R84)
  aligned : Nat               -- consecutive aligned bells (R68)
  adj : Int                   -- adjustment of the next bell (R67)
  firstEdge : Bool            -- the next edge begins bell `number` itself: bell 0 after a cold reset (R87)
  restart : Option Req        -- BELL.RESTART awaiting its edge (R83)
  slot : Fin 16               -- the slot in progress (R40)
  slotBegun : Bool            -- its boundary has been made (slot 0 begins with the edge)
deriving DecidableEq, Repr

/-- A scheduled slot map write (R48, R77, R78). -/
structure MapWrite where
  m : Fin 18
  edge : Nat
  map : Vector Byte 16
deriving DecidableEq, Repr

/-- 02: slot maps (Table 02-2): programmable 0 host DMA, 1 to 4 Queue Store, 5 Reeve, 6 to 17 Limva; the derived
Granary maps. -/
structure Slots where
  maps : Vector (Vector Byte 16) 18
  pend : List MapWrite
  granary : Vector (Vector Byte 16) 64
deriving DecidableEq, Repr

/-- 03: what a Quern emits (R124 to R126). -/
inductive QuernOut where
  | z (w : Word)
  | f (flags : Byte)
deriving DecidableEq, Repr

/-- 03: a Quern: its 104-bit accumulator, GFPOLY and the items it has emitted, oldest first. -/
structure Quern where
  acc : BitVec 104
  gfpoly : BitVec 10
  out : List QuernOut
deriving DecidableEq, Repr

/-- 04: a Bin: its shape and check mode as configured, as in force (R196), and its Gleaner scrub row. -/
structure Bin where
  shape : BitVec 2
  check : BitVec 2
  scrubRow : Nat
deriving DecidableEq, Repr

/-- 03: what a croft's controller has presented: the receivers still to acknowledge (R95 to R108). -/
structure Channel where
  owner : Nat                 -- controller key: 64·croft + cell (WORD mode uses cell 0, its carry-out 48)
  data : Word
  left : Nat                  -- receivers that have not acknowledged
  acked : List Nat            -- controllers that have taken it
  port : Bool                 -- SELECT: true for Z1
  shown : Bool                -- presented; false for a value held under a freeze gate (R335)
deriving DecidableEq, Repr

/-- The calibration pass after settling that a load or a wake still waits for in a Plot (R312, R314): none, one after the
island settles, one to start, the one in progress. -/
inductive PassWait where
  | none | settle | start | running
deriving DecidableEq, Repr

/-- 03, 06, 16: a Plot (Tables 03-10, 06-6). -/
structure Plot where
  owner : Fin 32              -- PLOT.OWNER
  ownAt : Nat                 -- tick of the latest change of owner or end of forcing (R43)
  forced : Bool               -- Granary map forced to the system (R351, R771)
  cyclePs : BitVec 16         -- PLOT.CYCLE_PS
  calTrim : BitVec 8          -- PLOT.CAL_TRIM
  calCount : BitVec 32        -- PLOT.CAL_COUNT
  calibrated : Bool           -- CAL_STATUS 0
  limit : Bool                -- CAL_STATUS 1
  unfit : Bool                -- CAL_STATUS 2
  calDue : Bool               -- a pass is due (R116, R118, R120)
  calRunning : Bool           -- a pass runs
  passWait : PassWait         -- the pass that a load or a wake waits for (R312, R314)
  lineTrim : Mem 9            -- trim in effect of each delay line, 256 + trim once applied (R119)
  voltMv : BitVec 16          -- PLOT.VOLTAGE_MV
  regOn : Bool                -- the regulator is on
  ramping : Bool              -- REG_STATUS 0
  overcur : Bool              -- REG_STATUS 1
  undervolt : Bool            -- REG_STATUS 2
  target : Nat                -- the island's target in mV (R308 to R315)
  settling : Bool             -- a ramp has ended and the island has not settled
  refSteps : Int              -- trim steps of 1.25 mV taken by the regulator (R797)
  temp : BitVec 16            -- temperature code (R687)
  lastCalTemp : BitVec 16     -- temperature code at the last pass (R116)
  tripWait : Bool             -- a clear waits for the temperature after a thermal trip (R990)
  tripped : Bool              -- regulator turned off by a thermal trip (R989)
  clearing : Bool             -- clearing in progress (R219)
  clearRetry : Bool           -- the clearing repeats after a failed verification (R218)
  restart : Bool              -- UNFIT clears when this clearing completes (R1006)
  config : Mem 56             -- configuration words with check bits, by address (Table 15-4, R792)
  hold : Mem 48               -- hold stages by croft 16·r + c, one bit per cell
  phase : Mem 48              -- port phase bits of WORD crofts, by croft (R108)
  chans : List Channel        -- outputs held and not yet fully acknowledged
  mergeLoser : Mem 2          -- MERGE: loser of the last contested decision, 1 A, 2 B (R146)
  querns : Vector Quern 16
  bins : Vector Bin 24
  binMem : Mem 56             -- rows of the 24 Bins, by 1,024·b + row (R194)
  freezeRegs : Vector (Option Item) 8   -- Commons ports' freeze registers (R335)
  cadence : Nat               -- data accepted in this bell (R805)
  scrubWord : Nat             -- configuration scrub position (R792)
deriving DecidableEq, Repr

/-- 04: the part of a host request that lies in one line of a bank, waiting for its unit (R202 to R207): its VF, its place
in the order of all requests, a byte offset in the bank's 2 MiB, and the bytes of a write. -/
structure WinOp where
  vf : Fin 33
  seq : Nat
  isWrite : Bool
  off : Nat
  len : Nat
  bytes : List Byte
deriving DecidableEq, Repr

/-- 04: a word that a load or restore writes through a system slot (R179, R780). -/
structure SysOp where
  addr : Nat
  w : Word
deriving DecidableEq, Repr

/-- 04: a Granary bank (Table 04-6). -/
structure Bank where
  mem : Mem 56
  ceCount : BitVec 32
  ueCount : BitVec 32
  poisonCount : BitVec 32
  wbDropped : BitVec 32
  spareRows : BitVec 8
  spareCols : BitVec 8
  cleared : Bool
  clearFail : Bool
  scrubLine : BitVec 16
  wbq : List (Nat × Nat)      -- line, tick at which it was queued (R181, R183)
  scrubDue : Nat              -- scrub lines that wait for slot 15 (R191)
  nextDue : Nat               -- edge at which the next scrub line falls due (R189)
  win : List WinOp            -- window requests waiting, oldest first
  sys : List SysOp            -- load and restore line writes waiting
  unitsNext : Nat             -- units decided at the fence for the coming slot (R178)
  fence : Bool                -- no Plot-port access is granted
  slotUnits : Nat             -- units still to run in the slot in progress
  ueBell : Option Nat         -- edge count of the last GRANARY_UE record (R188)
  ceRows : List (Nat × Nat)   -- this pass: sub-array·1,024 + row, words with CEs (R192)
  repairs : List (BitVec 32)  -- repair registers loaded at start-up (R208)
  lost : Option Nat           -- contents lost with VGRAN (R217): `mem` then holds the difference from what Config.lostWord gives
deriving DecidableEq, Repr

/-- 05: a committed item: the edge it counts for (R56), and whether it is a device GAP marker or in the reserve. -/
structure QCell where
  it : Item
  cb : Nat
  gap : Bool
  res : Bool
deriving DecidableEq, Repr

/-- 05: what waits in a producer's staging, in arrival order: an item; the place of n items lost because the staging
was full, `ended` when the last of them was LAST (R255, R257); a rewind made in place of a BAD LAST (R229). -/
inductive Staged where
  | item (it : Item)
  | lost (n : Nat) (ended : Bool)
  | rewind
  | mark (gap : Nat) (recovery : Bool)
deriving DecidableEq, Repr

/-- 05: a hardware queue (Tables 02-4, 05-7). `items` holds whole packets and markers in order; its first `vis` items
are released and its first `buf` have been copied into the consumer buffer. -/
structure Queue where
  owner : BitVec 8
  depthLog2 : BitVec 8
  producer : BitVec 16
  consumer : BitVec 16
  locked : Bool               -- QUEUE.MODE, true for BELL_LOCKED
  mark : Bool                 -- QUEUE.LATE_POLICY, true for MARK
  lateCount : BitVec 32
  lateRun : BitVec 16
  runPosted : Bool            -- LATE_RUN posted for this run (R61)
  idleBells : BitVec 16
  idleFlush : Bool            -- QUEUE.IDLE_ACTION, true for FLUSH
  bound : Bool                -- bound in the sense of R243
  active : Bool               -- the binding has taken effect
  bindEdge : Option Nat
  unbindEdge : Option Nat
  decl : Option Nat           -- declaration index in the image (R763)
  items : List QCell
  vis : Nat
  buf : Nat
  openPk : List QCell         -- committed items of the open packet
  staging : List Staged
  losing : Bool               -- R255: losing the rest of a packet at its commit
  arrLosing : Bool            -- R255: losing the rest of a packet as it arrives at a full staging
  discarding : Bool           -- R261: discarding the rest of a flushed packet
  heldGap : Nat               -- R256: count held while the reserve is in the consumer buffer
  closeLen : Option Nat       -- items committed before the latest close counted for the coming edge
  closeNext : Option Nat      -- the same for a close assigned to the edge after it (R56)
  runLen : Nat                -- first items that the edge at which the Holding next runs releases (R290)
  reqUp : Bool                -- the consumer port had raised REQ when the freeze gate closed (R335)
  pages : Nat                 -- pages reserved to the present binding (R235)
  unbindPages : Nat           -- pages that return to the free list at the unbinding's edge (R245)
  idleCnt : Nat
  idle : Bool                 -- STATUS 5
  accepted : Bool             -- the consumer accepted an item since the last edge
  dropCount : BitVec 64
  rewindCount : BitVec 32
  flushCount : BitVec 64
  recMark : Bool              -- marked by a Holding reset (R930)
  prodFlight : Nat            -- Commons credits of the producer side in flight
  consFlight : Nat            -- of the consumer side
  prodFree : Nat              -- credits free at the producer attachment
  consFree : Nat              -- credits free at the consumer attachment
deriving DecidableEq, Repr

/-- 06, 07, 08, 13: a Holding (Tables 03-10, 04-6, 06-6, 07-5, 08-11, 12-8, 13-8). -/
structure Holding where
  rect : BitVec 32
  st : HState
  stateBell : BellNo
  cause : FaultCause
  vfMask : BitVec 32
  laneMask : BitVec 48
  cvuMask : BitVec 32
  tallyQuota : BitVec 16
  queueQuota : BitVec 32
  itemsHeld : BitVec 32
  voltage : BitVec 16
  vmin : BitVec 16
  vmax : BitVec 16
  budgetUnits : BitVec 32
  cyclePs : BitVec 16
  budgetLoad : BitVec 16
  budget : BudgetState
  memUeReport : Bool          -- MEM_UE_POLICY, true for REPORT
  window : Bool               -- GRANARY_WINDOW
  memCe : BitVec 32
  memUe : BitVec 32
  freeze : FreezeState
  snapMove : Bool             -- SNAP_MODE, true for MOVE
  snap : SnapState
  snapBytes : BitVec 32
  snapResult : BitVec 16
  dmaErrors : BitVec 32
  credEpoch : BitVec 32
  cadence : BitVec 32
  tempMax : BitVec 16
  islandMa : BitVec 32
  loadSource : BitVec 16
  digest : Digest
  loadResult : BitVec 16
  loadBytes : BitVec 32
  pend : List Trans           -- actions waiting for their edges, oldest first (R321)
  freezeEdge : Nat            -- edge f of the attempt
  cutEdge : Option Nat        -- edge from which the cut is held (R337)
  cutBell : BellNo            -- CUT_BELL
  freezeRq : Option Req       -- HOLDING.FREEZE awaiting its outcome (R339)
  dozeRq : Option Req         -- HOLDING.DOZE awaiting its cut (R313, R344)
  dozing : Bool               -- the islands ramp to 500 mV after a doze's cut
  preDoze : HState            -- state before DOZE
  wakeRq : Option Req
  waking : Bool
  wakeReady : Option Nat      -- tick at which the last pass of a wake ended (R314)
  clearUnbind : Option Nat    -- edge at which clearing unbinds the queues (R293)
  started : Bool              -- has been RUNNING since the last load or reset (R161)
  seq : BitVec 16             -- mailbox SEQ (R431)
deriving DecidableEq, Repr

/-- 06: a Hedge: OPEN or SEALED, and what its seal control and outputs really show (R303 to R306). -/
structure Hedge where
  isOpen : Bool
  sealHolds : Bool
  atRest : Bool
deriving DecidableEq, Repr

/-- 07: a snapshot in progress. -/
structure SnapJob where
  h : Fin 32
  rq : Option Req
  begun : Bool
  queues : List (Nat × List Byte)   -- QUEUE section bodies captured at edge s, by declaration index (R352)
  next : Nat                  -- 0 the header, then record number + 1
  id : BitVec 128
  draw : Nat
  consistent : Bool
  lastProgress : Nat
deriving DecidableEq, Repr

/-- 07: a restore in progress. -/
structure RestoreJob where
  h : Fin 32
  rq : Option Req
  begun : Bool
  hdr : Option SnapHdr
  taken : Nat                 -- records applied
  stream : List Byte          -- authenticated plaintext not yet applied
  losses : List (Nat × Nat)   -- pending losses by queue (R368)
  carried : List (Nat × List Byte)  -- QUEUE bodies by declaration index
  lastProgress : Nat
deriving DecidableEq, Repr

/-- 07: device-wide snapshot entries (Table 07-5). -/
structure Snap where
  outQueue : BitVec 16
  inQueue : BitVec 16
  targetKey : List Byte
  job : Option SnapJob
  restore : Option RestoreJob
deriving DecidableEq, Repr

/-- 08: an issued tally: its descriptor and progress. -/
structure Tally where
  addr : BitVec 64
  len : Nat
  irq : Bool
  pack : Bool
  sent : Nat                  -- D2H: bytes written; H2D: bytes accepted into staging
  asked : Nat                 -- H2D: bytes requested
  whole : Nat                 -- H2D: bytes of items in whole packets accepted
  code : Option Byte          -- completed with this CODE, awaiting its write-back
  lastSent : Bool             -- the last item moved carried LAST
deriving DecidableEq, Repr

/-- 08: a descriptor ring (Table 08-4). -/
structure Ring where
  base : BitVec 52
  enable : Bool
  sizeLog2 : BitVec 4
  holdoff : BitVec 8
  vector : BitVec 6
  tail : BitVec 16
  head : BitVec 16
  cause : BitVec 2
  st : RingSt
  abandoned : BitVec 32
  hoCount : Nat
  due : Bool
  resumed : Bool
  readIx : BitVec 16          -- next descriptor index to read
  asked : Nat                 -- descriptors requested by the read on the link
  cache : List (List Byte)    -- descriptors read and not yet started
  tallies : List Tally        -- in ring order
  fn : Fin 33                 -- the function whose host endpoint the queue names
  h2d : Bool                  -- direction: the host endpoint is the producer (R394)
  holder : Fin 32             -- the queue's owner when it was bound, 0 for PF0
deriving DecidableEq, Repr

/-- 08: a PCIe function: PF0 is 0, VFi is i. -/
structure Fn where
  msixEnable : Bool
  masked : BitVec 64
  pba : BitVec 64
  table : Mem 128
  busMaster : Bool
  d3hot : Bool
  mbxProd : BitVec 16
  mbxCons : BitVec 16
  mbxLost : BitVec 32
  mbx : Mem 128               -- Holding mailbox entries by index
deriving DecidableEq, Repr

/-- 08: the host interface (Tables 08-9, 08-11). -/
structure HostIf where
  rate : Fin 6
  width : Fin 17
  mps : Nat
  mrrs : Nat
  vfEnable : Bool
  ari : Bool
  numVfs : BitVec 16
  talliesFree : Nat           -- free tallies
  talliesSeen : BitVec 16     -- HOST.TALLIES_FREE, captured at the last edge
  fcStalls : BitVec 32
  abandoned : BitVec 32
  reqSlots : Vector (List Byte) 8
  busy : BitVec 8
  respReady : BitVec 8
  respLen : Vector (BitVec 12) 8
  respSlots : Vector (List Byte) 8
  noticeSlots : Vector (List Byte) 16
  noticeProd : BitVec 16
  noticeCons : BitVec 16
  noticeLost : BitVec 32
  badLength : Bool
  slotBusy : Bool
  resetSince : Bool           -- a hot reset, PF0 FLR or PERST pulse since the link fault (Table 19-2)
  requests : List (Fin 8 × List Byte)   -- the mailbox path's request queue (R30, R425)
  lastUnit : Nat              -- tick at which the engine's last unit ends
  winSeq : Nat                -- window request parts taken so far (R207)
  lastRing : Vector (Fin 256) 32   -- ring that the engine served last, by owner (R411)
deriving DecidableEq, Repr

/-- 09: a quad (Table 09-9). -/
structure Quad where
  refKhz : BitVec 32
  pllaM : BitVec 16
  pllbM : BitVec 16
  refOk : Bool
  aLocked : Bool
  bLocked : Bool
  temp : BitVec 16
deriving DecidableEq, Repr

/-- 09: a lane (Table 09-8) with its Limva state. -/
structure Lane where
  enable : Bool
  pllB : Bool
  limvaMode : Bool
  b66 : Bool
  polarity : BitVec 8
  txFfe : BitVec 32
  frozen : Bool
  loopback : BitVec 8
  prbsGen : BitVec 8
  prbsChk : BitVec 8
  prbsBits : BitVec 64
  prbsErrors : BitVec 64
  txFill : BitVec 64
  st : LaneSt
  blockLocked : Bool
  prbsLocked : Bool
  rxDiscarded : BitVec 64
  txDiscarded : BitVec 32
  shErrors : BitVec 32
  downCount : BitVec 32
  limva : LimvaSt
  peer : BitVec 64
  peerBell : BitVec 48
  bellDelta : BitVec 48
  replays : BitVec 32
  crcErrors : BitVec 32
  lost : BitVec 64
  rxScr : BitVec 58
  txScr : BitVec 58
  shWindow : List Bool        -- the last 64 sync headers, true when invalid (R463)
  prbsReg : List Bool         -- PRBS checker history, newest first
  prbsMatch : Nat
  prbsWindow : List Bool
  seq : BitVec 12             -- SEQ of the next DATA frame
  expect : BitVec 12          -- expected SEQ
  nak : Bool                  -- NAK in the next header
  seen : Bool                 -- an INIT has been accepted from this peer
  creditIn : BitVec 16        -- the peer's CREDIT
  creditOut : BitVec 16       -- items that left this lane's receive staging
  sentItems : BitVec 16       -- items sent for the first time, modulo 2^16
  replay : List (BitVec 12 × List Item)
  replayFrom : Option (BitVec 12)
  replayCount : Nat           -- replays of one SEQ
  lastValid : Nat             -- edge of the last valid frame
  leftActive : Option Nat     -- edge at which ACTIVE was left
  resync : Option (BitVec 40)
  wasActive : Bool            -- ACTIVE earlier since its receive queue was bound (R489)
  trainings : Nat
  part : List Block           -- a group that a loop-back has returned in part
deriving DecidableEq, Repr

/-- 10: what a snoop tap shows: an item, or that the open packet does not remain in the queue (R536). -/
inductive TapEv where
  | item (it : Item)
  | rewind
deriving DecidableEq, Repr

/-- 10: a check-value unit (Table 10-7). -/
structure Cvu where
  poly : BitVec 8
  mode : BitVec 8
  width : BitVec 8
  order : BitVec 8
  boundary : BitVec 8
  frameItems : BitVec 32
  snoop : BitVec 16
  expect : BitVec 64
  result : BitVec 64
  st : CvuSt
  packets : BitVec 64
  mismatches : BitVec 32
  runts : BitVec 32
  discarded : BitVec 32
  skip : BitVec 8
  reg : BitVec 64
  skipped : Nat
  saved : BitVec 64           -- register at FIRST (R536)
  isOpen : Bool
  dropping : Bool             -- discarding up to the next LAST (R540)
  count : Nat                 -- items in the frame, or in the packet
  held : List Item            -- STRIP: items held back; APPEND: the item held to see LAST
  taps : List TapEv             -- what the tap has shown and the unit has not taken (R516)
  bellMiss : Nat              -- mismatches found in this bell (R529)
deriving DecidableEq, Repr

/-- 10: gate counters (Table 10-7). -/
structure Gates where
  mxLong : BitVec 32
  dsResamples : BitVec 32
  hsTimeouts : BitVec 32
deriving DecidableEq, Repr

/-- 13: a Store record (Table 13-4) and the sector that holds it. -/
structure StoreRec where
  tag : BitVec 16
  ix : BitVec 16
  sub : BitVec 8
  ty : BitVec 8
  seq : BitVec 32
  value : List Byte
  sector : Nat
  crcOk : Bool
deriving DecidableEq, Repr

/-- 13: a persistent write waiting for its record (R680, R681). -/
structure StorePend where
  rq : Req
  record : StoreRec
  v : Val
deriving DecidableEq, Repr

/-- 13: a WRITE that waits until an earlier one of the same entry has been applied (R681). -/
structure StoreWait where
  rq : Req
  ix : BitVec 16
  sub : Nat
  role : Role
  v : Val
deriving DecidableEq, Repr

/-- 11: what follows a flash operation. -/
inductive FlashCont where
  | window
  | store (w : StorePend)
  | replay (r : StoreRec)
  | voidTag (sector : Nat)
deriving DecidableEq, Repr

/-- 11: a window operation on SSP0 (R587 to R589). -/
inductive FlashOp where
  | program (addr : Nat) (bytes : List Byte) (k : FlashCont)
  | erase (addr : Nat) (size : Nat)
  | read (addr : Nat)
deriving DecidableEq, Repr

/-- 11: the Serial Select Ports (Table 11-7, Tables 11-4 and 11-5) and the boot flash behind SSP0. Flash bytes are
kept inverted, so that an unlisted byte reads as erased, 0xFF. -/
structure Ssp where
  div0 : BitVec 16
  flashReady : Bool
  writeBusy : Bool
  programs : BitVec 32
  erases : BitVec 32
  flashErrors : BitVec 32
  slave : Bool                -- SSP1.ROLE, true for SLAVE
  chain : Bool                -- SSP1.MODE, true for CHAIN
  div1 : BitVec 16
  selLevel : BitVec 8
  chainBits : BitVec 16
  rdyTimeout : BitVec 16
  xferCtrl : BitVec 32
  xferTx : List Byte
  xferRx : List Byte
  xferBusy : Bool
  xferRq : Option Req
  selected : Bool
  errors : BitVec 32
  noticeLost : BitVec 32
  chainRx : List Byte
  chainTx : List Byte
  chainLatches : BitVec 32
  stage : List Bool           -- the CHAIN register, most significant bit first
  badLength : Bool            -- STATUS 6
  refused : Bool              -- STATUS 5
  reqBusy : Bool              -- STATUS 2
  respReady : Bool            -- STATUS 0
  respLen : Nat
  request : List Byte         -- block 0x01
  response : List Byte        -- block 0x02
  notices : List (List Byte)  -- block 0x03, oldest first
  submitHi : Option Byte      -- first byte of SUBMIT within a transfer
  requests : List (List Byte) -- the SSP1 path's request queue (R579)
  flash : Mem 8
  op : Option FlashOp
  ops : List FlashOp
deriving DecidableEq, Repr

/-- 12: a subscription (R647 to R650). -/
structure Subn where
  id : BitVec 8
  ix : BitVec 16
  sub : BitVec 8
  period : BitVec 32
  phase : BitVec 32
  unsent : Option (List Byte)
  skipped : BitVec 16
deriving DecidableEq, Repr

/-- 12: a kept response (R641): the request's counter and ciphertext, the device counter and inner message sent. -/
structure Kept where
  ctr : BitVec 32
  ct : List Byte
  dev : BitVec 32
  inner : List Byte
deriving DecidableEq, Repr

/-- 12: an open session (R627 to R656). -/
structure Session where
  id : BitVec 32
  role : Role
  path : Path
  next : BitVec 32            -- the client COUNTER to execute next
  dev : BitVec 32             -- the next device COUNTER
  transcript : Digest
  authFails : Nat
  kept : List Kept            -- newest first, at most 8
  subs : List Subn
deriving DecidableEq, Repr

/-- 12: a neighbour (R625): interface identifier, ANNOUNCE body and order heard. -/
structure Neighbour where
  iid : BitVec 64
  body : List Byte
deriving DecidableEq, Repr

/-- 12: the field network (Table 12-8) and the sessions of all paths. -/
structure Fnet where
  enable : Bool
  mac : BitVec 48
  port : BitVec 16
  nodeId : BitVec 8
  nodeCount : BitVec 8
  toTimer : BitVec 8
  burstCount : BitVec 8
  burstTimer : BitVec 8
  plcaOk : Bool
  addrValid : Bool
  dadFail : Bool
  conflict : Bool
  dadRunning : Bool
  rxDropped : BitVec 32
  authFails : BitVec 32
  credEpoch : BitVec 32
  neighbours : List Neighbour -- heard longest ago first
  replied : List (BitVec 64 × Nat)   -- senders answered, with the tick of the answer (R624)
  sessions : List Session
  txq : List Out              -- frames waiting for a transmit opportunity, oldest first
deriving DecidableEq, Repr

/-- 13: the Store (Table 13-6). -/
structure Store where
  ready : Bool
  failed : Bool
  full : Bool
  nextSeq : BitVec 32
  torn : BitVec 32
  writeFails : BitVec 32
  recs : List StoreRec        -- oldest first
  waits : List StoreWait      -- oldest first
  openSector : Nat
  openUsed : Nat              -- bytes used in the open sector
  sectorSeq : BitVec 32       -- SECTOR_SEQ of the open sector
  sectors : List (Nat × BitVec 32)   -- opened sectors, oldest first, with their SECTOR_SEQ
  eraseCount : Mem 32
  retired : List Nat
deriving DecidableEq, Repr

/-- 14: a copy of the slot directory (Table 14-3). -/
structure Dir where
  activeB : Bool
  trial : Bool
  seq : BitVec 32
  genA : BitVec 32
  genB : BitVec 32
  stA : SlotSt
  stB : SlotSt
deriving DecidableEq, Repr

/-- 14: an operator key generation (R722). -/
structure KeyGen where
  hash : Digest
  checkOk : Bool
  hashBlown : Bool
  pending : Bool
  commit : Bool
  revoke : Bool
deriving DecidableEq, Repr

/-- 14, 19: a Reeve core. -/
structure Core where
  released : Bool
  ready : Bool
  lost : Bool
  lostAt : Option Nat         -- tick of its latest loss (R947)
deriving DecidableEq, Repr

/-- 14: an operation that waits for the DRBG to be seeded (R631, R733). -/
inductive WaitOp where
  | hello (p : Path) (body : List Byte)
  | attest (rq : Req) (nonce : BitVec 256)
  | snapshot (h : Fin 32)
deriving DecidableEq, Repr

/-- 14: boot, keys, measurements, entropy, attestation (Table 13-9). -/
structure Boot where
  phase : BootPhase
  dir0 : Option Dir
  dir1 : Option Dir
  bootedB : Bool
  bootTrial : Bool
  fallback : Bool
  rejected : List (Bool × BitVec 8)  -- slots rejected in this boot, with their status
  bootRollback : BitVec 8
  bootLength : Nat            -- TOTAL_LENGTH of the booted package
  s3 : List Digest            -- digests of its S3 sections, in table order
  fw : BitVec 32
  cores : Vector Core 4
  m : Vector Digest 8
  thermo : BitVec 64
  gens : Vector KeyGen 8
  revokePending : Bool
  writing : Bool              -- a slot write has begun with an offset-0 packet
  lastOffset : Nat
  erasedBlocks : List Nat
  written : Nat               -- bytes of the slot written
  startTest : Bool            -- the entropy start-up test has passed
  seeded : Bool
  healthFail : Bool
  fails : BitVec 3
  draws : Nat                 -- DRBG outputs drawn
  generates : Nat             -- generate requests since the last reseed
  waiting : List WaitOp       -- what waits for entropy, oldest first (R733)
  reports : List (Role × List Byte)  -- latest attestation report by role
  cold : Nat                  -- device cold resets since State.reset
deriving DecidableEq, Repr

/-- 15: a load in progress. -/
structure Load where
  h : Fin 32
  rq : Option Req
  chunk : Bool                -- from HOLDING.IMAGE_CHUNK
  src : Fin 256
  begun : Bool                -- LOADING has begun
  taken : List Byte           -- image bytes taken, in order
  avail : List Byte           -- bytes of the stream not yet taken
  chunks : List (Req × Nat)   -- chunk writes awaiting their response, with the stream position that ends each
  ended : Bool                -- the stream has been declared over
  step : Nat                  -- last step of Table 15-7 that passed
  bindEdge : Nat              -- edge at which the declared queues are bound
  readyEdge : Nat             -- after step 8, the edge from which READY is allowed (R312, R774)
  waits : Bool                -- step 8 is reached, a pass of R312 is still missing
  sec : Nat                   -- section whose frames are being applied
  pos : Nat                   -- bytes of it consumed
  faddr : Nat                 -- address of the next word of the open frame
  fleft : Nat                 -- words of the open frame still to come
  configured : Bool           -- a PLOT_CONFIG byte has been applied
  bellItems : Nat             -- queue items taken in this bell (R768)
  lastProgress : Nat
deriving DecidableEq, Repr

/-- 16: a Ledger record with its OWNER (Table 16-4, R808). -/
structure Rec where
  bell : BitVec 32
  sev : BitVec 3
  code : BitVec 12
  data : Word
  owner : BitVec 5
deriving DecidableEq, Repr

/-- 16: a record limiter (R1003): code and subject, edge of the last record, events held back. -/
structure Limit where
  code : BitVec 12
  subj : Nat
  last : Nat
  held : Nat
deriving DecidableEq, Repr

/-- 16: the Ledger and the last-gasp latch (Table 13-10). -/
structure Ledger where
  intake : List Rec           -- oldest first
  lostRecs : Nat              -- lost since the last LEDGER_OVERFLOW (R817)
  pages : Mem 128             -- record slots by 256·page + slot (R808)
  pos : Nat                   -- next slot to write
  lostPages : List Nat
  degraded : Bool
  written : Vector (BitVec 32) 32   -- records written by OWNER
  gasp : Vector Word 8
  gaspCount : Nat             -- records entered since the last clear; read saturated (R822)
  minSev : BitVec 8
  limits : List Limit
deriving DecidableEq, Repr

/-- 16: telemetry (Table 16-3). -/
structure Tele where
  package : BitVec 16
  vinMa : BitVec 32
  alertTemp : BitVec 16
  alertLow : Bool             -- ALERT_N driven low by R806
  plotMa : Vector (BitVec 32) 64
deriving DecidableEq, Repr

/-- 17: a slice of the evening test. -/
structure Slice where
  pos : Nat                   -- position of the current or next unit
  extra : List Nat            -- GRANARY positions named by REPAIR_CANDIDATE records, still to run (R837)
  budget : Nat                -- µs
  charged : Nat               -- µs
  start : Nat
  ran : Bool                  -- a unit at or after SELFTEST.COVERAGE has run or been passed over
  current : Option Nat
  entries : List (List Byte)  -- Table 17-3 entries, oldest first
  passed : Nat
  failed : Nat
  skipped : Nat
  rotation : Bool
  bell : BellNo
  newRepairs : Nat
  done : Bool
  abandon : Bool
  kept : Bool                 -- the Plot of the unit in progress is kept
  failedBanks : List Nat
  dirty : List Nat            -- Plots to clear at the end of the slice (R846, R850)
  passes : List Nat           -- positions passed in this slice
deriving DecidableEq, Repr

/-- 17: the spill area (R801, Table 14-9), kept as the Store is. -/
structure Spill where
  sectors : List (Nat × BitVec 32)   -- opened sectors, oldest first, with their SECTOR_SEQ
  used : Nat                  -- bytes used in the newest
  eraseCount : Mem 32
  retired : List Nat
deriving DecidableEq, Repr

/-- 17: self-test and repair (Table 13-10, R829 to R876). -/
structure SelfTest where
  enable : Bool
  sliceMs : BitVec 16
  coverage : BitVec 32
  results : List Byte
  softRepairs : BitVec 16
  accepted : Bool
  rq : Option Req
  shut : Bool
  slice : Option Slice
  cands : List Nat            -- 4·bank + sub-array of REPAIR_CANDIDATE records since the previous slice
  pendingRepairs : List (BitVec 32)
  fuses : List (BitVec 32)
  unfitMask : BitVec 64
  runSeq : BitVec 32
  spill : Spill
deriving DecidableEq, Repr

/-- 18: the village (Table 13-10, R878 to R912). -/
structure Village where
  enable : Bool
  manifest : List Byte
  inForce : List Byte         -- the manifest in force at step 0 of the muster (R884, R906)
  st : VillageSt
  members : BitVec 16
  musters : BitVec 32
  offset : BitVec 48
  inMuster : Bool
  step : Nat
  reg : BitVec 256            -- the word that the stage will drive
  own : BitVec 256            -- the stage's own word of this muster
  words : List (BitVec 256)   -- words latched in this muster
  verdict : List (BitVec 256) -- the words of the muster judged, awaiting their edge
  verdictOwn : BitVec 256     -- its own word
  lastRelease : Option Nat    -- tick of the previous release; none before the first select as a stage (R887)
  judged : Option Nat         -- tick of the judgement that waits for its edge (R890)
  joined : Bool               -- the offset has been set in JOINING
  misses : Nat                -- consecutive musters of the miss row of Table 18-5
  lastStep0 : Nat             -- edge of the last step 0
  slewing : Bool
  slewD : Int
  slewLeft : Nat
  resync : Bool
  disagree : BitVec 8
  split : BitVec 8            -- spans with READY and RUNNING shares at the last muster
  leave : Bool
  musterEdge : Nat            -- edge e of the muster in progress (member 0)
  excluded : List (Nat × Nat) -- member, muster count of its last VILLAGE_EXCLUDE
  apart : List Nat            -- other members whose |d| has passed 1 and has not returned to 0 (R896)
deriving DecidableEq, Repr

/-- 19: a pending DEVICE_FATAL cause. -/
structure Cause where
  c : FatalCause
  rebuilt : Bool
deriving DecidableEq, Repr

/-- 13, 19: the device (Table 13-6, R919 to R950). -/
structure Dev where
  fatal : Bool
  code : BitVec 16
  bell : BellNo
  causes : List Cause
  faults : Nat
  quiesceAt : Option Nat      -- edge at which RUNNING Holdings become QUIESCED (R921)
deriving DecidableEq, Repr

/-- 20: the TAP (R976 to R979). -/
structure Tap where
  ir : Byte
  bankcfg : BitVec 32         -- as it acts (R977)
  boundary : List Bool
deriving DecidableEq, Repr

/-- 20: supplies and pins. -/
structure Pins where
  vreeve : Bool
  vaux18 : Bool
  vinIvr : Bool
  vgran : Bool
  vsd : Bool
  vsdt : Bool
  vfuse : Bool
  vccio : Vector Bool 8
  corePowerGood : Bool
  maintLow : Bool
  tap : Tap
deriving DecidableEq, Repr

/-- 05: Queue Store entries. -/
structure QStore where
  freePages : Nat
  seenPages : BitVec 16       -- QSTORE.FREE_PAGES, captured at the last edge
  transit : Nat               -- slots in transit between the free list and a queue (Table 02-5)
  ceCount : BitVec 32
  ueCount : BitVec 32
  auditOff : Bool             -- slot audit suspended until its rebuild (R922)
  tallyOff : Bool
  creditOff : Bool
  bellOff : Bool
  scrub : Vector Nat 4        -- scrub position of each port (R795)
deriving DecidableEq, Repr

/-- The machine. `pending` is the queue of commands that wait, first in, first out. -/
structure State where
  bell : Bell
  slots : Slots
  plots : Vector Plot 64
  banks : Vector Bank 64
  scrubS : BitVec 16          -- GRANARY.SCRUB_PERIOD_S
  binScrubS : BitVec 16       -- GRANARY.BIN_SCRUB_PERIOD_S
  queues : Vector Queue 256
  qstore : QStore
  holdings : Vector Holding 32
  hedges : Vector Hedge 112
  breaches : BitVec 32        -- HEDGE.BREACH_COUNT
  snap : Snap
  rings : Vector Ring 256
  fns : Vector Fn 33
  host : HostIf
  quads : Vector Quad 12
  lanes : Vector Lane 48
  cvus : Vector Cvu 32
  gates : Gates
  ssp : Ssp
  fnet : Fnet
  store : Store
  boot : Boot
  load : Option Load
  ledger : Ledger
  tele : Tele
  test : SelfTest
  village : Village
  dev : Dev
  pins : Pins
  out : List Out
  fresh : Nat                 -- free values drawn so far (the model's own field)
  pending : List Instr
deriving DecidableEq, Repr

/-- The reasons a step faults. No command of this block faults: what the spec calls a fault of the device is an effect
on the state (classes CONTAINED and DEVICE_FATAL of Table 19-1). -/
inductive Fault where
  /-- Raised by no command; kept so that the type is a type of reasons. Safe. -/
  | none
deriving DecidableEq, Repr

/-- The reasons a step refuses. -/
inductive Refusal where
  /-- A command whose meaning is not written yet. Safe: nothing can be proved of it. -/
  | notModelled (mnemonic : String)
deriving DecidableEq, Repr

/-! The reset values. Each is the default that the spec gives the entry; where it gives none the value is 0, empty
or idle: assumption 1 (model's own fields: assumption 2). -/

def Bell.reset : Bell :=
  { period := 625, number := 0, source := false, outEnable := false, locked := false, binLocked := false,
    holdover := false, stopped := false, auditFails := 0, now := 0, edgeAt := 0, edges := 0, len := 625,
    pendPeriod := [], pendSource := false, binLast := none, binFrom := 0, aligned := 0, adj := 0,
    firstEdge := true, restart := none, slot := 0, slotBegun := false }

/-- The default map (R45): slots 0 to 14 to the system, slot 15 to the fixed work. -/
def mapReset : Vector Byte 16 := Vector.ofFn fun i => if i.val = 15 then 0xFE else 0x00

def Slots.reset : Slots :=
  { maps := Vector.replicate 18 mapReset, pend := [], granary := Vector.replicate 64 mapReset }

def Quern.reset : Quern := { acc := 0, gfpoly := 0x009, out := [] }

def Bin.reset : Bin := { shape := 0, check := 0, scrubRow := 0 }

def Plot.reset : Plot :=
  { owner := 0, ownAt := 0, forced := false, cyclePs := 0, calTrim := 128, calCount := 0, calibrated := false,
    limit := false, unfit := false, calDue := false, calRunning := false, passWait := .none, lineTrim := [], voltMv := 0,
    regOn := false, ramping := false, overcur := false, undervolt := false, target := 0, settling := false,
    refSteps := 0, temp := 0, lastCalTemp := 0, tripWait := false, tripped := false, clearing := false,
    clearRetry := false, restart := false, config := [], hold := [], phase := [], chans := [], mergeLoser := [],
    querns := Vector.replicate 16 Quern.reset, bins := Vector.replicate 24 Bin.reset, binMem := [],
    freezeRegs := Vector.replicate 8 none, cadence := 0, scrubWord := 0 }

def Bank.reset : Bank :=
  { mem := [], ceCount := 0, ueCount := 0, poisonCount := 0, wbDropped := 0, spareRows := 32, spareCols := 4,
    cleared := false, clearFail := false, scrubLine := 0, wbq := [], scrubDue := 0, nextDue := 0, win := [],
    sys := [], unitsNext := 0, fence := false, slotUnits := 0, ueBell := none, ceRows := [], repairs := [], lost := none }

def Queue.reset : Queue :=
  { owner := 0, depthLog2 := 6, producer := 0xFFFF, consumer := 0xFFFF, locked := true, mark := false,
    lateCount := 0, lateRun := 0, runPosted := false, idleBells := 0, idleFlush := false, bound := false,
    active := false, bindEdge := none, unbindEdge := none, decl := none, items := [], vis := 0, buf := 0,
    openPk := [], staging := [], losing := false, arrLosing := false, discarding := false, heldGap := 0,
    closeLen := none, closeNext := none, runLen := 0, reqUp := false, pages := 0, unbindPages := 0, idleCnt := 0, idle := false, accepted := false, dropCount := 0,
    rewindCount := 0, flushCount := 0, recMark := false, prodFlight := 0, consFlight := 0, prodFree := 64,
    consFree := 64 }

def Holding.reset : Holding :=
  { rect := 0, st := .empty, stateBell := 0, cause := .none, vfMask := 0, laneMask := 0, cvuMask := 0,
    tallyQuota := 256, queueQuota := 65536, itemsHeld := 0, voltage := 800, vmin := 600, vmax := 900,
    budgetUnits := 0, cyclePs := 0, budgetLoad := 0, budget := .ok, memUeReport := false, window := false,
    memCe := 0, memUe := 0, freeze := .none, snapMove := false, snap := .idle, snapBytes := 0, snapResult := 0,
    dmaErrors := 0, credEpoch := 0, cadence := 0, tempMax := 0, islandMa := 0, loadSource := 0xFFFF, digest := 0,
    loadResult := 0, loadBytes := 0, pend := [], freezeEdge := 0, cutEdge := none, cutBell := 0, freezeRq := none,
    dozeRq := none, dozing := false, preDoze := .empty, wakeRq := none, waking := false, wakeReady := none,
    clearUnbind := none, started := false, seq := 0 }

def Hedge.reset : Hedge := { isOpen := false, sealHolds := true, atRest := true }

def Snap.reset : Snap :=
  { outQueue := 0xFFFF, inQueue := 0xFFFF, targetKey := List.replicate 97 0, job := none, restore := none }

def Ring.reset : Ring :=
  { base := 0, enable := false, sizeLog2 := 6, holdoff := 0, vector := 0, tail := 0, head := 0, cause := 0,
    st := .disabled, abandoned := 0, hoCount := 0, due := false, resumed := false, readIx := 0, asked := 0,
    cache := [], tallies := [], fn := 0, h2d := false, holder := 0 }

def Fn.reset : Fn :=
  { msixEnable := false, masked := BitVec.allOnes 64, pba := 0, table := [], busMaster := false, d3hot := false,
    mbxProd := 0, mbxCons := 0, mbxLost := 0, mbx := [] }

def HostIf.reset : HostIf :=
  { rate := 0, width := 0, mps := 128, mrrs := 512, vfEnable := false, ari := false, numVfs := 0,
    talliesFree := 8192, talliesSeen := 8192, fcStalls := 0, abandoned := 0,
    reqSlots := Vector.replicate 8 [], busy := 0, respReady := 0, respLen := Vector.replicate 8 0,
    respSlots := Vector.replicate 8 [], noticeSlots := Vector.replicate 16 [], noticeProd := 0, noticeCons := 0,
    noticeLost := 0, badLength := false, slotBusy := false, resetSince := false,
    requests := [], lastUnit := 0, winSeq := 0, lastRing := Vector.replicate 32 255 }

def Quad.reset : Quad :=
  { refKhz := 156250, pllaM := 0, pllbM := 0, refOk := false, aLocked := false, bLocked := false, temp := 0 }

def Lane.reset : Lane :=
  { enable := false, pllB := false, limvaMode := false, b66 := true, polarity := 0, txFfe := 0x000030F8,
    frozen := false, loopback := 0, prbsGen := 0, prbsChk := 0, prbsBits := 0, prbsErrors := 0, txFill := 0x1E,
    st := .off, blockLocked := false, prbsLocked := false, rxDiscarded := 0, txDiscarded := 0, shErrors := 0,
    downCount := 0, limva := .down, peer := 0, peerBell := 0, bellDelta := 0, replays := 0, crcErrors := 0,
    lost := 0, rxScr := 0, txScr := 0, shWindow := [], prbsReg := [], prbsMatch := 0, prbsWindow := [], seq := 0,
    expect := 0, nak := false, seen := false, creditIn := 0, creditOut := 0, sentItems := 0, replay := [],
    replayFrom := none, replayCount := 0, lastValid := 0, leftActive := none, resync := none, wasActive := false,
    trainings := 0, part := [] }

def Cvu.reset : Cvu :=
  { poly := 0, mode := 0, width := 2, order := 0, boundary := 0, frameItems := 64, snoop := 0, expect := 0,
    result := 0, st := .idle, packets := 0, mismatches := 0, runts := 0, discarded := 0, skip := 0, reg := 0,
    skipped := 0, saved := 0, isOpen := false, dropping := false, count := 0, held := [], taps := [], bellMiss := 0 }

def Ssp.reset : Ssp :=
  { div0 := 16, flashReady := false, writeBusy := false, programs := 0, erases := 0, flashErrors := 0,
    slave := true, chain := false, div1 := 40, selLevel := 0, chainBits := 256, rdyTimeout := 1000, xferCtrl := 8,
    xferTx := [], xferRx := [], xferBusy := false, xferRq := none, selected := false, errors := 0,
    noticeLost := 0, chainRx := [], chainTx := [], chainLatches := 0, stage := [], badLength := false,
    refused := false, reqBusy := false, respReady := false, respLen := 0, request := [], response := [],
    notices := [], submitHi := none, requests := [], flash := [], op := none, ops := [] }

def Fnet.reset : Fnet :=
  { enable := true, mac := 0x06#8 ++ Config.serial.extractLsb' 0 40, port := 51048, nodeId := 255, nodeCount := 8,
    toTimer := 32, burstCount := 0, burstTimer := 128, plcaOk := false, addrValid := false, dadFail := false,
    conflict := false, dadRunning := false, rxDropped := 0, authFails := 0, credEpoch := 0, neighbours := [],
    replied := [], sessions := [], txq := [] }

def Store.reset : Store :=
  { ready := false, failed := false, full := false, nextSeq := 1, torn := 0, writeFails := 0, recs := [], waits := [],
    openSector := 0, openUsed := 0, sectorSeq := 0, sectors := [], eraseCount := [], retired := [] }

def Dir.reset : Dir :=
  { activeB := false, trial := false, seq := 0, genA := 0, genB := 0, stA := .empty, stB := .empty }

/-- Generation 0 as made; the generations after it unblown (R722). -/
def KeyGen.reset : KeyGen :=
  { hash := 0, checkOk := false, hashBlown := false, pending := false, commit := false, revoke := false }

def Core.reset : Core := { released := false, ready := false, lost := false, lostAt := none }

def Boot.reset : Boot :=
  { phase := .atReset, dir0 := none, dir1 := none, bootedB := false, bootTrial := false, fallback := false,
    rejected := [], bootRollback := 0, bootLength := 0, s3 := [], fw := 0, cores := Vector.replicate 4 Core.reset,
    m := Vector.replicate 8 0, thermo := 0,
    gens := (Vector.replicate 8 KeyGen.reset).set 0
      { KeyGen.reset with hash := Config.rootHash0, checkOk := true, hashBlown := true, commit := true },
    revokePending := false, writing := false, lastOffset := 0, erasedBlocks := [], written := 0,
    startTest := false, seeded := false, healthFail := false, fails := 0, draws := 0, generates := 0, waiting := [],
    reports := [], cold := 0 }

def Ledger.reset : Ledger :=
  { intake := [], lostRecs := 0, pages := [], pos := 0, lostPages := [], degraded := false,
    written := Vector.replicate 32 0, gasp := Vector.replicate 8 0, gaspCount := 0, minSev := 0, limits := [] }

def Tele.reset : Tele :=
  { package := 0, vinMa := 0, alertTemp := 1272, alertLow := false, plotMa := Vector.replicate 64 0 }

def Spill.reset : Spill := { sectors := [], used := 0, eraseCount := [], retired := [] }

def SelfTest.reset : SelfTest :=
  { enable := true, sliceMs := 20, coverage := 0, results := [], softRepairs := 0, accepted := false, rq := none,
    shut := false, slice := none, cands := [], pendingRepairs := [], fuses := [], unfitMask := 0, runSeq := 0,
    spill := Spill.reset }

def Village.reset : Village :=
  { enable := false, manifest := [], inForce := [], st := .none, members := 0, musters := 0, offset := 0,
    inMuster := false, step := 0, reg := 0, own := 0, words := [], verdict := [], verdictOwn := 0,
    lastRelease := none, judged := none, joined := false, misses := 0,
    lastStep0 := 0, slewing := false, slewD := 0, slewLeft := 0, resync := false, disagree := 0, split := 0,
    leave := false, musterEdge := 0, excluded := [], apart := [] }

def Dev.reset : Dev := { fatal := false, code := 0, bell := 0, causes := [], faults := 0, quiesceAt := none }

def Tap.reset : Tap := { ir := 0x01, bankcfg := 0, boundary := [] }

/-- At reset VREEVE and VAUX18 are good (R701), the other supplies not yet (R962). -/
def Pins.reset : Pins :=
  { vreeve := true, vaux18 := true, vinIvr := false, vgran := false, vsd := false, vsdt := false, vfuse := false,
    vccio := Vector.replicate 8 false, corePowerGood := false, maintLow := false, tap := Tap.reset }

def QStore.reset : QStore :=
  { freePages := 8192, seenPages := 8192, transit := 0, ceCount := 0, ueCount := 0, auditOff := false,
    tallyOff := false, creditOff := false, bellOff := false, scrub := Vector.replicate 4 0 }

/-- The machine right after reset: every entry at its default, nothing stored, no command waiting. -/
def State.reset : State :=
  { bell := Bell.reset, slots := Slots.reset, plots := Vector.replicate 64 Plot.reset,
    banks := Vector.replicate 64 Bank.reset, scrubS := 10, binScrubS := 1,
    queues := Vector.replicate 256 Queue.reset, qstore := QStore.reset,
    holdings := Vector.replicate 32 Holding.reset, hedges := Vector.replicate 112 Hedge.reset, breaches := 0,
    snap := Snap.reset, rings := Vector.replicate 256 Ring.reset, fns := Vector.replicate 33 Fn.reset,
    host := HostIf.reset, quads := Vector.replicate 12 Quad.reset, lanes := Vector.replicate 48 Lane.reset,
    cvus := Vector.replicate 32 Cvu.reset, gates := { mxLong := 0, dsResamples := 0, hsTimeouts := 0 },
    ssp := Ssp.reset, fnet := Fnet.reset, store := Store.reset, boot := Boot.reset, load := none,
    ledger := Ledger.reset, tele := Tele.reset, test := SelfTest.reset, village := Village.reset,
    dev := Dev.reset, pins := Pins.reset, out := [], fresh := 0, pending := [] }

end Sys2Proof.Machine
end

