-- ==== Sys2Proof/Machine/Ops.lean ====
section
/-! DEFINITION. The named operations that the commands share: bytes, sparse memory, indexed updates, saturating counters,
Ledger records and the last-gasp latch, MSI-X messages, the Holding mailbox, record limiters, Ubper messages,
responses and the closing of sessions. -/

namespace Sys2Proof.Machine

/-- What a command answers. -/
abbrev Res := Host.Outcome State Fault Refusal

/-! Bytes. -/

/-- The n low bytes of v, big-endian (R5). -/
def beBytes : Nat → Nat → List Byte
  | 0, _ => []
  | n + 1, v => beBytes n (v / 256) ++ [BitVec.ofNat 8 v]

/-- The n low bytes of v, little-endian. -/
def leBytes : Nat → Nat → List Byte
  | 0, _ => []
  | n + 1, v => BitVec.ofNat 8 v :: leBytes n (v / 256)

def ofBe (b : List Byte) : Nat := b.foldl (fun a x => a * 256 + x.toNat) 0

def ofLe (b : List Byte) : Nat := b.foldr (fun x a => x.toNat + 256 * a) 0

/-- The n bytes of b from offset k, zero past its end. -/
def bytesAt (b : List Byte) (k n : Nat) : List Byte :=
  (List.range n).map fun i => (b[k + i]?).getD 0

/-- b with the bytes v written at offset k. -/
def bytesPut (b : List Byte) (k : Nat) (v : List Byte) : List Byte :=
  b.take k ++ List.replicate (k - b.length) 0 ++ v ++ b.drop (k + v.length)

/-- b padded with zeros to n bytes, or cut to n. -/
def padTo (n : Nat) (b : List Byte) : List Byte := bytesAt b 0 n

def natBit (v i : Nat) : Bool := v / 2 ^ i % 2 == 1

def b2n (b : Bool) : Nat := if b then 1 else 0

/-- The number whose bits, lowest first, are given. -/
def ofBits (l : List Bool) : Nat := l.foldr (fun b a => b2n b + 2 * a) 0

/-! Sparse memory in its canonical form. -/

def memGet {w : Nat} : Mem w → Nat → BitVec w
  | [], _ => 0
  | (a, v) :: m, k => if a = k then v else if k < a then 0 else memGet m k

/-- Writing 0, which is what an unlisted key reads as, removes the entry. -/
def memSet {w : Nat} : Mem w → Nat → BitVec w → Mem w
  | [], k, v => if v = 0 then [] else [(k, v)]
  | (a, x) :: m, k, v =>
    if a = k then (if v = 0 then m else (k, v) :: m)
    else if k < a then (if v = 0 then (a, x) :: m else (k, v) :: (a, x) :: m)
    else (a, x) :: memSet m k v

/-- Only the keys that p keeps. -/
def memKeep {w : Nat} (p : Nat → Bool) (m : Mem w) : Mem w := m.filter fun e => p e.1

/-- Keys rise strictly and no entry equals what an unlisted key reads as. -/
def memWf {w : Nat} : Mem w → Bool
  | [] => true
  | [(_, v)] => v != 0
  | (a, v) :: (b, x) :: m => v != 0 && a < b && memWf ((b, x) :: m)

/-- Several words written from key k upward. -/
def memPut {w : Nat} (m : Mem w) (k : Nat) : List (BitVec w) → Mem w
  | [] => m
  | v :: vs => memPut (memSet m k v) (k + 1) vs

/-! Indexed updates. -/

def upd {α : Type} {n : Nat} (v : Vector α n) (i : Fin n) (f : α → α) : Vector α n := v.set i (f v[i])

def modPlot (p : Fin 64) (f : Plot → Plot) (s : State) : State := { s with plots := upd s.plots p f }
def modBank (p : Fin 64) (f : Bank → Bank) (s : State) : State := { s with banks := upd s.banks p f }
def modQueue (q : Fin 256) (f : Queue → Queue) (s : State) : State := { s with queues := upd s.queues q f }
def modHolding (h : Fin 32) (f : Holding → Holding) (s : State) : State := { s with holdings := upd s.holdings h f }
def modHedge (e : Fin 112) (f : Hedge → Hedge) (s : State) : State := { s with hedges := upd s.hedges e f }
def modRing (q : Fin 256) (f : Ring → Ring) (s : State) : State := { s with rings := upd s.rings q f }
def modFn (i : Fin 33) (f : Fn → Fn) (s : State) : State := { s with fns := upd s.fns i f }
def modQuad (n : Fin 12) (f : Quad → Quad) (s : State) : State := { s with quads := upd s.quads n f }
def modLane (l : Fin 48) (f : Lane → Lane) (s : State) : State := { s with lanes := upd s.lanes l f }
def modCvu (u : Fin 32) (f : Cvu → Cvu) (s : State) : State := { s with cvus := upd s.cvus u f }
def modCore (c : Fin 4) (f : Core → Core) (s : State) : State :=
  { s with boot := { s.boot with cores := upd s.boot.cores c f } }

/-- f of each index in ascending order. -/
def eachFin (n : Nat) (f : Fin n → State → State) (s : State) : State :=
  (List.finRange n).foldl (fun t i => f i t) s

def eachOf {α : Type} (l : List α) (f : α → State → State) (s : State) : State := l.foldl (fun t a => f a t) s

/-- x + n, held at the largest value of its width. -/
def satAdd {w : Nat} (x : BitVec w) (n : Nat) : BitVec w :=
  if x.toNat + n < 2 ^ w then BitVec.ofNat w (x.toNat + n) else BitVec.allOnes w

def emit (o : Out) (s : State) : State := { s with out := o :: s.out }

def draw (s : State) : State := { s with fresh := s.fresh + 1 }

/-- One draw from the DRBG (R732). -/
def drbgDraw (s : State) : State :=
  { s with boot := { s.boot with draws := s.boot.draws + 1, generates := s.boot.generates + 1 } }

/-! Status codes (Table 19-4). -/

def stOk : Byte := 0x00
def stNotReady : Byte := 0x01
def stBusy : Byte := 0x02
def stDenied : Byte := 0x03
def stNoEntry : Byte := 0x04
def stRange : Byte := 0x05
def stQuota : Byte := 0x06
def stNoSlot : Byte := 0x07
def stStoreFailed : Byte := 0x08
def stEntropy : Byte := 0x09
def stRecovery : Byte := 0x0A
def stMismatch : Byte := 0x10
def stSignature : Byte := 0x11
def stSection : Byte := 0x12
def stTruncated : Byte := 0x13
def stAborted : Byte := 0x14
def stRollback : Byte := 0x15
def stKeysExhausted : Byte := 0x16
def stFreezeTimeout : Byte := 0x20
def stSnapMismatch : Byte := 0x21
def stSnapUnusable : Byte := 0x22
def stSnapAuth : Byte := 0x23
def stSnapTruncated : Byte := 0x24
def stLate : Byte := 0x30
def stSspTimeout : Byte := 0x31
def stFlashRejected : Byte := 0x32
def stFlashVerify : Byte := 0x33
def stFlashTimeout : Byte := 0x34

/-! The events of Table 16-5: code and severity. -/

structure Ev where
  code : BitVec 12
  sev : BitVec 3
deriving DecidableEq, Repr

def evLedgerPageLost : Ev := ⟨0x001, 3⟩
def evLedgerDegraded : Ev := ⟨0x002, 3⟩
def evLedgerOverflow : Ev := ⟨0x003, 2⟩
def evLastGaspCleared : Ev := ⟨0x004, 1⟩
def evBellWrap : Ev := ⟨0x101, 0⟩
def evLateRun : Ev := ⟨0x102, 2⟩
def evLateRunEnd : Ev := ⟨0x103, 1⟩
def evAuditFail : Ev := ⟨0x104, 4⟩
def evTimebaseLost : Ev := ⟨0x105, 4⟩
def evBellInLost : Ev := ⟨0x106, 2⟩
def evBellInRelocked : Ev := ⟨0x107, 1⟩
def evBellInGlitch : Ev := ⟨0x108, 2⟩
def evCadenceWarn : Ev := ⟨0x201, 2⟩
def evCadenceOver : Ev := ⟨0x202, 2⟩
def evCadenceOk : Ev := ⟨0x203, 1⟩
def evCalLimit : Ev := ⟨0x204, 3⟩
def evCalFail : Ev := ⟨0x205, 3⟩
def evQuernResidue : Ev := ⟨0x206, 3⟩
def evConfigCe : Ev := ⟨0x207, 0⟩
def evConfigUe : Ev := ⟨0x208, 3⟩
def evThermalAlert : Ev := ⟨0x209, 2⟩
def evThermalClear : Ev := ⟨0x20A, 1⟩
def evGranaryCe : Ev := ⟨0x301, 0⟩
def evGranaryUe : Ev := ⟨0x302, 3⟩
def evGranaryPoison : Ev := ⟨0x303, 3⟩
def evRepairCandidate : Ev := ⟨0x304, 2⟩
def evBinModeAdjusted : Ev := ⟨0x305, 1⟩
def evBinUe : Ev := ⟨0x306, 3⟩
def evBinPoison : Ev := ⟨0x307, 3⟩
def evBinParity : Ev := ⟨0x308, 3⟩
def evWindowUe : Ev := ⟨0x309, 2⟩
def evWindowMiss : Ev := ⟨0x30A, 1⟩
def evClearFail : Ev := ⟨0x30B, 3⟩
def evMemUe : Ev := ⟨0x30C, 3⟩
def evMemScrubUe : Ev := ⟨0x30D, 2⟩
def evQstoreUe : Ev := ⟨0x30E, 3⟩
def evCommonsParity : Ev := ⟨0x30F, 3⟩
def evCommonsRoute : Ev := ⟨0x310, 4⟩
def evQueueDrop : Ev := ⟨0x401, 2⟩
def evQueueFlush : Ev := ⟨0x402, 1⟩
def evIdleTimeout : Ev := ⟨0x403, 2⟩
def evQueueBound : Ev := ⟨0x404, 0⟩
def evStateChange : Ev := ⟨0x501, 1⟩
def evSlotReleased : Ev := ⟨0x502, 1⟩
def evHedgeBreach : Ev := ⟨0x503, 3⟩
def evRegFault : Ev := ⟨0x504, 3⟩
def evDozeEnter : Ev := ⟨0x505, 1⟩
def evDozeExit : Ev := ⟨0x506, 1⟩
def evTransitionCancelled : Ev := ⟨0x507, 2⟩
def evFreezeCut : Ev := ⟨0x601, 1⟩
def evFreezeTimeout : Ev := ⟨0x602, 2⟩
def evForcedStop : Ev := ⟨0x603, 2⟩
def evSnapshotDone : Ev := ⟨0x604, 1⟩
def evSnapshotFail : Ev := ⟨0x605, 3⟩
def evRestoreDone : Ev := ⟨0x606, 1⟩
def evRestoreFail : Ev := ⟨0x607, 3⟩
def evLoadDone : Ev := ⟨0x608, 1⟩
def evLoadFail : Ev := ⟨0x609, 3⟩
def evRingError : Ev := ⟨0x701, 2⟩
def evDmaUnitUnfit : Ev := ⟨0x702, 2⟩
def evDmaHostError : Ev := ⟨0x703, 3⟩
def evPcieLinkLost : Ev := ⟨0x704, 4⟩
def evPcieLinkUp : Ev := ⟨0x705, 1⟩
def evMboxNoticeLost : Ev := ⟨0x706, 2⟩
def evDmaAbandoned : Ev := ⟨0x707, 2⟩
def evLaneUp : Ev := ⟨0x801, 1⟩
def evLaneDown : Ev := ⟨0x802, 2⟩
def evLimvaUp : Ev := ⟨0x803, 1⟩
def evLimvaDown : Ev := ⟨0x804, 2⟩
def evLimvaUnfit : Ev := ⟨0x805, 2⟩
def evQuadPllUnlock : Ev := ⟨0x806, 3⟩
def evCvuMismatch : Ev := ⟨0x901, 2⟩
def evCvuFault : Ev := ⟨0x902, 3⟩
def evGateHsTimeout : Ev := ⟨0x903, 3⟩
def evFlashRejected : Ev := ⟨0xA01, 3⟩
def evFlashVerify : Ev := ⟨0xA02, 3⟩
def evFlashTimeout : Ev := ⟨0xA03, 3⟩
def evSspRdyTimeout : Ev := ⟨0xA04, 2⟩
def evSsp1Frame : Ev := ⟨0xA05, 2⟩
def evStoreInvalid : Ev := ⟨0xA06, 2⟩
def evStoreWriteFail : Ev := ⟨0xA07, 3⟩
def evStoreCompact : Ev := ⟨0xA08, 0⟩
def evSectorRetired : Ev := ⟨0xA09, 2⟩
def evAuthFail : Ev := ⟨0xB01, 2⟩
def evSessionOpen : Ev := ⟨0xB02, 0⟩
def evSessionClose : Ev := ⟨0xB03, 0⟩
def evFnetDadFail : Ev := ⟨0xB04, 3⟩
def evFnetPlcaLost : Ev := ⟨0xB05, 2⟩
def evFnetPlcaConflict : Ev := ⟨0xB06, 2⟩
def evBootDone : Ev := ⟨0xC01, 1⟩
def evBootSlotReject : Ev := ⟨0xC02, 3⟩
def evBootFallback : Ev := ⟨0xC03, 2⟩
def evBootHealthFail : Ev := ⟨0xC04, 3⟩
def evSlotActivated : Ev := ⟨0xC05, 1⟩
def evSlotWriteReject : Ev := ⟨0xC06, 2⟩
def evRollbackAdvanced : Ev := ⟨0xC07, 1⟩
def evRollbackDeferred : Ev := ⟨0xC08, 2⟩
def evKeyRotated : Ev := ⟨0xC09, 1⟩
def evKeyRevokeCompleted : Ev := ⟨0xC0A, 1⟩
def evKeyRevokePending : Ev := ⟨0xC0B, 2⟩
def evDirectoryRepaired : Ev := ⟨0xC0C, 1⟩
def evRngHealthFail : Ev := ⟨0xC0D, 3⟩
def evBootHalt : Ev := ⟨0xC0E, 4⟩
def evSelftestStart : Ev := ⟨0xD01, 1⟩
def evSelftestSlice : Ev := ⟨0xD02, 0⟩
def evSelftestFail : Ev := ⟨0xD03, 3⟩
def evSelftestDone : Ev := ⟨0xD04, 1⟩
def evSoftRepairLoaded : Ev := ⟨0xD05, 1⟩
def evFuseRepairDone : Ev := ⟨0xD06, 1⟩
def evRepairExhausted : Ev := ⟨0xD07, 3⟩
def evVillageJoin : Ev := ⟨0xE01, 1⟩
def evVillageLeave : Ev := ⟨0xE02, 1⟩
def evVillageHold : Ev := ⟨0xE03, 2⟩
def evVillageResume : Ev := ⟨0xE04, 1⟩
def evVillageExclude : Ev := ⟨0xE05, 3⟩
def evVillageSlew : Ev := ⟨0xE06, 0⟩
def evVillageResync : Ev := ⟨0xE07, 2⟩
def evManifestAccepted : Ev := ⟨0xE08, 1⟩
def evManifestRejected : Ev := ⟨0xE09, 3⟩
def evDeviceFatal : Ev := ⟨0xF01, 4⟩
def evRecoveryDone : Ev := ⟨0xF02, 1⟩

/-! DATA of Table 16-5: H and q in [47:40], P in [45:40], S in [39:32]. -/

def datTop (top rest : Nat) : Word := BitVec.ofNat 48 (top * 2 ^ 40 + rest)
def datS (top : Nat) (st : Byte) (rest : Nat) : Word := BitVec.ofNat 48 (top * 2 ^ 40 + st.toNat * 2 ^ 32 + rest)

/-- The 96 bits of a record (Table 16-4). -/
def recBits (r : Rec) : BitVec 96 := r.bell ++ r.sev ++ 0#1 ++ r.code ++ r.data

/-- A record enters the last-gasp latch, a ring of four (R822). -/
def latch (r : Rec) (s : State) : State :=
  let i := s.ledger.gaspCount % 4
  let b := recBits r
  let g := ((s.ledger.gasp.setIfInBounds (2 * i) (b.extractLsb' 48 48)).setIfInBounds (2 * i + 1)
    (b.extractLsb' 0 48))
  { s with ledger := { s.ledger with gasp := g, gaspCount := s.ledger.gaspCount + 1 } }

/-- A record reaches the Reeve: below MIN_SEVERITY nothing is written (R812); a FATAL record also enters the latch
(R823); once DEGRADED, records of SEV 3 and above enter the latch alone (R825); otherwise the intake of 64 takes it
or it is lost and counted, a FATAL one excepted (R811, R817). -/
def record (e : Ev) (owner : Fin 32) (data : Word) (s : State) : State :=
  if e.sev.toNat < s.ledger.minSev.toNat then s else
  let r : Rec :=
    { bell := s.bell.number.setWidth 32, sev := e.sev, code := e.code, data, owner := BitVec.ofNat 5 owner.val }
  let s := if e.sev = 4 ∨ (s.ledger.degraded ∧ 3 ≤ e.sev.toNat) then latch r s else s
  if s.ledger.degraded then s
  else if 64 ≤ s.ledger.intake.length then
    if e.sev = 4 then s else { s with ledger := { s.ledger with lostRecs := s.ledger.lostRecs + 1 } }
  else { s with ledger := { s.ledger with intake := s.ledger.intake ++ [r] } }

/-! MSI-X (R420 to R423). -/

/-- Function f raises vector v: nothing while MSI-X Enable is 0; a masked vector becomes pending. -/
def raiseVec (f : Fin 33) (v : Nat) (s : State) : State :=
  let n := s.fns[f]
  if !n.msixEnable then s
  else if n.masked.getLsbD v then modFn f (fun n => { n with pba := n.pba ||| (1#64 <<< v) }) s
  else emit (.msix f v) s

/-! The Holding mailbox (R430 to R432). -/

def vfBit (m : BitVec 32) (i : Fin 33) : Bool := i.val != 0 && m.getLsbD (i.val - 1)

/-- The Holding to which VFi is bound, 0 for none (R295). -/
def vfHolding (s : State) (i : Fin 33) : Fin 32 :=
  ((List.finRange 32).find? fun h => h.val != 0 && vfBit s.holdings[h].vfMask i).getD 0

def laneHolding (s : State) (l : Fin 48) : Fin 32 :=
  ((List.finRange 32).find? fun h => h.val != 0 && s.holdings[h].laneMask.getLsbD l.val).getD 0

def cvuHolding (s : State) (u : Fin 32) : Fin 32 :=
  ((List.finRange 32).find? fun h => h.val != 0 && s.holdings[h].cvuMask.getLsbD u.val).getD 0

/-- Table 08-10, little-endian, as a 128-bit value. -/
def mbxEntry (e : Ev) (bell : BellNo) (data : Word) (seq : BitVec 16) : BitVec 128 :=
  seq ++ data ++ bell ++ (0#4 ++ e.code)

/-- An entry enters the mailbox of one VF, or is dropped and counted when 256 wait (R432). -/
def mbxPut (i : Fin 33) (v : BitVec 128) (s : State) : State :=
  let n := s.fns[i]
  if n.mbxProd - n.mbxCons = 256 then modFn i (fun n => { n with mbxLost := satAdd n.mbxLost 1 }) s
  else raiseVec i 0 (modFn i (fun n =>
    { n with mbx := memSet n.mbx (n.mbxProd.toNat % 256) v, mbxProd := n.mbxProd + 1 }) s)

/-- An event is posted to Holding h's mailbox: every VF bound to it stores the same entry, and SEQ rises by 1
whether or not one stores it (R430, R431). -/
def mailbox (e : Ev) (h : Fin 32) (data : Word) (s : State) : State :=
  if h.val = 0 then s else
  let v := mbxEntry e s.bell.number data s.holdings[h].seq
  let s := modHolding h (fun x => { x with seq := x.seq + 1 }) s
  eachFin 33 (fun i t => if vfBit t.holdings[h].vfMask i then mbxPut i v t else t) s

/-- A record and its mailbox entry. -/
def post (e : Ev) (h : Fin 32) (data : Word) (s : State) : State := mailbox e h data (record e h data s)

/-- A freeze gate acts on Holding h: from edge f until the cut is given up at edge f+4 (R335, R338), and while the cut is
held. -/
def gateStands (s : State) (h : Fin 32) : Bool :=
  let x := s.holdings[h]
  match x.freeze with
  | .cut => true
  | .attempt => x.cutEdge.isSome || s.bell.edges < x.freezeEdge + 4
  | .none | .forced => false

/-! Record limits (R1003): the limit is measured in edges from the previous record of the kind and subject. -/

/-- The Holding that owns queue q, 0 for the system or when it is not bound (R1005). -/
def queueOwner (s : State) (q : Fin 256) : Fin 32 :=
  if s.queues[q].bound then Fin.ofNat 32 s.queues[q].owner.toNat else 0

/-- Writes the record of a limited kind for its subject, carrying the count n where the kind carries one. -/
def limitWrite (code : BitVec 12) (subj n : Nat) (s : State) : State :=
  if code = evGranaryCe.code then
    record evGranaryCe s.plots[Fin.ofNat 64 subj].owner (datTop (subj % 64) (n % 2 ^ 32)) s
  else if code = evConfigCe.code then
    record evConfigCe s.plots[Fin.ofNat 64 subj].owner (datTop (subj % 64) (n % 2 ^ 32)) s
  else if code = evQueueDrop.code then
    record evQueueDrop (queueOwner s (Fin.ofNat 256 subj)) (datTop (subj % 256) (min n (2 ^ 40 - 1))) s
  else if code = evCvuMismatch.code then
    record evCvuMismatch (cvuHolding s (Fin.ofNat 32 subj)) (datTop (subj % 32) (min n (2 ^ 32 - 1))) s
  else if code = evMboxNoticeLost.code then record evMboxNoticeLost 0 (datTop 0 (n % 2 ^ 32)) s
  else if code = evBellInGlitch.code then record evBellInGlitch 0 0 s
  else if code = evWindowMiss.code then record evWindowMiss (Fin.ofNat 32 subj) (datTop (subj % 32) 0) s
  else if code = evSsp1Frame.code then record evSsp1Frame 0 0 s
  else if code = evFnetPlcaConflict.code then record evFnetPlcaConflict 0 0 s
  else s

/-- The kinds whose record carries the count since the previous one. -/
def limitCounts (code : BitVec 12) : Bool :=
  code == evGranaryCe.code || code == evConfigCe.code || code == evQueueDrop.code || code == evCvuMismatch.code ||
    code == evMboxNoticeLost.code

/-- n events of a limited kind for a subject: one record when 1,024 bells have passed since the previous one,
else they are counted. -/
def limited (e : Ev) (subj n : Nat) (s : State) : State :=
  let same := fun l : Limit => l.code == e.code && l.subj == subj
  match s.ledger.limits.find? same with
  | none =>
    limitWrite e.code subj n { s with ledger := { s.ledger with
      limits := ⟨e.code, subj, s.bell.edges, 0⟩ :: s.ledger.limits } }
  | some l =>
    let put := fun l' : Limit => { s with ledger := { s.ledger with
      limits := s.ledger.limits.map fun x => if same x then l' else x } }
    if 1024 ≤ s.bell.edges - l.last then
      limitWrite e.code subj (l.held + n) (put { l with last := s.bell.edges, held := 0 })
    else put { l with held := l.held + n }

/-- A limited count waits and 1,024 bells have passed. -/
def limitDue (s : State) (l : Limit) : Bool :=
  limitCounts l.code && l.held != 0 && decide (1024 ≤ s.bell.edges - l.last)

/-- At an edge: the first bell at which 1,024 have passed writes the record of a count that is not 0. -/
def limitFlush (s : State) : State :=
  let limits := s.ledger.limits.map fun l => if limitDue s l then { l with last := s.bell.edges, held := 0 } else l
  eachOf (s.ledger.limits.filter (limitDue s)) (fun l t => limitWrite l.code l.subj l.held t)
    { s with ledger := { s.ledger with limits } }

/-! Ubper messages. -/

/-- The object dictionary service executes requests: core 1 runs its S2 and boot has not halted (R27, R698, R948). -/
def serving (s : State) : Bool :=
  s.boot.cores[(1 : Fin 4)].ready && !s.boot.cores[(1 : Fin 4)].lost &&
    (s.boot.phase == .released || s.boot.phase == .running)

def findSession (s : State) (id : BitVec 32) : Option Session := s.fnet.sessions.find? (·.id == id)

def modSession (id : BitVec 32) (f : Session → Session) (s : State) : State :=
  { s with fnet := { s.fnet with sessions := s.fnet.sessions.map fun x => if x.id == id then f x else x } }

/-- The SEALED message of Table 12-1: outer header, ciphertext and tag. -/
def sealMsg (sess ctr : BitVec 32) (inner : List Byte) : List Byte :=
  beBytes 2 0x5542 ++ [0x01, 0x04] ++ beBytes 4 sess.toNat ++ beBytes 4 ctr.toNat ++
    beBytes 2 (inner.length + 16) ++ [0, 0] ++ Config.sealBytes sess.toNat ctr.toNat inner

/-- Response k is ready (R427). A response to a slot that a mailbox clear has freed is discarded (R450). -/
def pf0Respond (k : Fin 8) (msg : List Byte) (len : Nat) (s : State) : State :=
  if !s.host.busy.getLsbD k.val then s else
  raiseVec 0 0 { s with host := { s.host with
    respSlots := s.host.respSlots.set k (padTo 2048 msg), respLen := s.host.respLen.set k (BitVec.ofNat 12 len),
    respReady := s.host.respReady ||| (1#8 <<< k.val),
    requests := s.host.requests.filter fun r => r.1 != k } }

/-- The response waits in block 0x02 and REQ_BUSY clears (R581). -/
def ssp1Respond (msg : List Byte) (len : Nat) (s : State) : State :=
  if !s.ssp.reqBusy then s else
  { s with ssp := { s.ssp with response := msg.take 2048, respLen := len, respReady := true,
                               reqBusy := false, requests := s.ssp.requests.drop 1 } }

/-- A request that produces no Ubper response: a response of length 0 on the mailbox and SSP1 (R427, R657). -/
def noResponse (p : Path) (s : State) : State :=
  match p with
  | .fnet _ => s
  | .pf0 k => pf0Respond k [] 0 s
  | .ssp1 => ssp1Respond [] 0 s

/-- A response leaves on the path that carried its request (R644). -/
def sendResponse (p : Path) (sess ctr : BitVec 32) (inner : List Byte) (s : State) : State :=
  match p with
  | .fnet _ => { s with fnet := { s.fnet with txq := s.fnet.txq ++ [.sealed p sess ctr inner] } }
  | .pf0 k => emit (.sealed p sess ctr inner) (pf0Respond k (sealMsg sess ctr inner) (inner.length + 32) s)
  | .ssp1 => emit (.sealed p sess ctr inner) (ssp1Respond (sealMsg sess ctr inner) (inner.length + 32) s)

/-- A notice into the PF0 mailbox (R428, R429). -/
def pf0Notice (msg : List Byte) (len : Nat) (s : State) : State :=
  let hs := s.host
  if hs.noticeProd - hs.noticeCons = 16 then
    limited evMboxNoticeLost 0 1 { s with host := { hs with noticeLost := satAdd hs.noticeLost 1 } }
  else raiseVec 0 1 { s with host := { hs with
    noticeSlots := hs.noticeSlots.set (hs.noticeProd.toNat % 16) (leBytes 2 len ++ msg.take 2046)
      (Nat.mod_lt _ (by decide)),
    noticeProd := hs.noticeProd + 1 } }

/-- A notice to SSP1: up to 16 are held, a further one is dropped and counted (R583, R584). -/
def ssp1Notice (msg : List Byte) (s : State) : State :=
  if 16 ≤ s.ssp.notices.length then { s with ssp := { s.ssp with noticeLost := satAdd s.ssp.noticeLost 1 } }
  else { s with ssp := { s.ssp with notices := s.ssp.notices ++ [msg.take 2048] } }

/-- An unsolicited message on a session's path (R644). -/
def sendNotice (p : Path) (sess ctr : BitVec 32) (inner : List Byte) (s : State) : State :=
  match p with
  | .fnet _ => { s with fnet := { s.fnet with txq := s.fnet.txq ++ [.sealed p sess ctr inner] } }
  | .pf0 _ => emit (.sealed p sess ctr inner) (pf0Notice (sealMsg sess ctr inner) (inner.length + 32) s)
  | .ssp1 => emit (.sealed p sess ctr inner) (ssp1Notice (sealMsg sess ctr inner) s)

/-- The role byte of Table 12-3 and its Holding, 0 for none. -/
def roleNum : Role → Nat × Nat
  | .pub => (0, 0)
  | .operator => (1, 0)
  | .tenant h => (2, h.val)
  | .maint => (3, 0)

def roleOwner : Role → Fin 32
  | .tenant h => h
  | _ => 0

/-- DATA of SESSION_OPEN. -/
def sessionData (r : Role) (id : BitVec 32) : Word :=
  BitVec.ofNat 48 ((roleNum r).2 * 2 ^ 40 + (roleNum r).1 * 2 ^ 32 + id.toNat)

/-- DATA of SESSION_CLOSE: the reason in place of session bits [23:16]. -/
def sessionCloseData (r : Role) (id : BitVec 32) (reason : Byte) : Word :=
  BitVec.ofNat 48 ((roleNum r).2 * 2 ^ 40 + (roleNum r).1 * 2 ^ 32 + id.toNat / 2 ^ 24 * 2 ^ 24 +
    reason.toNat * 2 ^ 16 + id.toNat % 2 ^ 16)

def crClient : Byte := 0
def crExpired : Byte := 1
def crEpoch : Byte := 2
def crCounter : Byte := 3
def crAuth : Byte := 4

/-- Closing a session ends its subscriptions and writes SESSION_CLOSE (R646); the device sends a CLOSE with the
reason, unless the client closed it, while a device counter is left for it (R642, R653). -/
def closeSession (se : Session) (reason : Byte) (s : State) : State :=
  let s := { s with fnet := { s.fnet with sessions := s.fnet.sessions.filter fun x => !(x.id == se.id) } }
  let s := record evSessionClose (roleOwner se.role) (sessionCloseData se.role se.id reason) s
  if reason = crClient ∨ se.dev = 0 then s
  else sendNotice se.path se.id se.dev ([0x41, 0, 0, 0, reason] : List Byte) s

/-- Closes every session that p chooses (R635, R726). -/
def closeSessions (p : Session → Bool) (reason : Byte) (s : State) : State :=
  eachOf (s.fnet.sessions.filter p) (fun se t => closeSession se reason t) s

def opAuth : Byte := 0x10
def opRead : Byte := 0x20
def opWrite : Byte := 0x21
def opInvoke : Byte := 0x22
def opSubscribe : Byte := 0x30
def opUnsubscribe : Byte := 0x31
def opReport : Byte := 0x32
def opKeepalive : Byte := 0x40
def opClose : Byte := 0x41

/-- The inner message of a response (Table 12-4, R636): OP with bit 7 set, the request's TAG, the common part. -/
def respInner (op : Byte) (tag : BitVec 16) (st ty : Byte) (bell : BellNo) (body : List Byte) : List Byte :=
  [op ||| 0x80, 0] ++ beBytes 2 tag.toNat ++ [st, ty] ++ beBytes 6 bell.toNat ++ body

/-- The device answers a request: the response takes the next device counter (R642), is kept (R641) and sent on the
request's path (R644). A session that has closed meanwhile gets none (R657). A counter that would pass its end closes
the session (R653). -/
def respond (rq : Req) (op st ty : Byte) (bell : BellNo) (body : List Byte) (s : State) : State :=
  match findSession s rq.sess with
  | none => noResponse rq.path s
  | some se =>
    if se.dev = 0 then closeSession se crCounter (noResponse rq.path s) else
    let inner := respInner op rq.tag st ty bell body
    let se' := { se with dev := se.dev + 1,
                         kept := (⟨rq.ctr, rq.ct, se.dev, inner⟩ :: se.kept).take 8 }
    let s := sendResponse rq.path se.id se.dev inner (modSession se.id (fun _ => se') s)
    if se.dev = BitVec.allOnes 32 ∨ rq.ctr = BitVec.allOnes 32 then closeSession se' crCounter s else s

def rxDrop (s : State) : State := { s with fnet := { s.fnet with rxDropped := satAdd s.fnet.rxDropped 1 } }

/-- A SEALED request arrives and, when its tag verifies and its counter is the next one, executes (R640 to R644).
A repeat of a kept counter with the same ciphertext is answered again; another is discarded. While the service
does not run, the request waits (R698, R948). -/
def serve (rq : Req) (run : Session → State → State) (s : State) : State :=
  if !serving s then s else
  match findSession s rq.sess with
  | none => noResponse rq.path (rxDrop s)
  | some se =>
    if !rq.sealOk then noResponse rq.path (rxDrop s)
    else if rq.ctr = se.next then
      let se' := { se with next := se.next + 1, path := rq.path }
      run se' (modSession se.id (fun _ => se') s)
    else if se.next.toNat < rq.ctr.toNat then noResponse rq.path (rxDrop s)
    else match se.kept.find? fun k => k.ctr == rq.ctr && k.ct == rq.ct with
      | some k => sendResponse rq.path se.id k.dev k.inner s
      | none => noResponse rq.path s

/-! DEVICE_FATAL (R919 to R922). -/

def causeCode : FatalCause → Nat
  | .slotAudit | .tallyAudit | .creditAudit | .bellSlotAudit => 0x104
  | .timebaseLost => 0x105
  | .commonsRoute => 0x310
  | .hsTimeout => 0x903
  | .linkLost => 0x704
  | .fatalAer => 0xFF2
  | .coreLost => 0xFF1
  | .vgranLost => 0xFF0

end Sys2Proof.Machine
end

