-- ==== Sys2Proof/Machine/Flags.lean ====
section
/-! DEFINITION. Every check and flag computation of the spec: the memory check code and its syndrome (R167 to R170), Bin
parity (Table 04-5), the check menu of Table 10-5, and the flags of a Quern (Table 03-8) with its residue check. -/

namespace Sys2Proof.Machine

/-- The columns of data bits 0 to 47: the 8-bit values with exactly three bits set, ascending (R167). -/
def secCols : List (BitVec 8) :=
  [0x07, 0x0B, 0x0D, 0x0E, 0x13, 0x15, 0x16, 0x19, 0x1A, 0x1C, 0x23, 0x25, 0x26, 0x29, 0x2A, 0x2C,
   0x31, 0x32, 0x34, 0x38, 0x43, 0x45, 0x46, 0x49, 0x4A, 0x4C, 0x51, 0x52, 0x54, 0x58, 0x61, 0x62,
   0x64, 0x68, 0x70, 0x83, 0x85, 0x86, 0x89, 0x8A, 0x8C, 0x91, 0x92, 0x94, 0x98, 0xA1, 0xA2, 0xA4]

/-- The exclusive-or of the columns of the bits of d that are set, from bit i on. -/
def xorCols (d : Word) : Nat → List (BitVec 8) → BitVec 8
  | _, [] => 0
  | i, c :: cs => (if d.getLsbD i then c else 0) ^^^ xorCols d (i + 1) cs

/-- The check bits of a word (R168). -/
def checkBits (d : Word) : BitVec 8 := xorCols d 0 secCols

/-- A word as the device writes it. -/
def secWord (d : Word) : Stored := checkBits d ++ d

def secData (w : Stored) : Word := w.extractLsb' 0 48

/-- The syndrome of a stored word (R169). -/
def syndrome (w : Stored) : BitVec 8 := checkBits (secData w) ^^^ w.extractLsb' 48 8

/-- A poisoned word (R170). -/
def poisonWord (d : Word) : Stored := (checkBits d ^^^ 0xFF) ++ d

/-- What a read finds (Table 04-3): the data delivered, and whether it is correctable, uncorrectable, poisoned. -/
structure Found where
  data : Word
  ce : Bool
  ue : Bool
  poisoned : Bool
deriving DecidableEq, Repr

def isOneBit (s : BitVec 8) : Bool := (List.range 8).any fun j => s == 1#8 <<< j

/-- The data bit whose column is s. -/
def colIndex (s : BitVec 8) : Option Nat := secCols.findIdx? (· == s)

def secRead (w : Stored) : Found :=
  let s := syndrome w
  let d := secData w
  if s = 0 then ⟨d, false, false, false⟩
  else if isOneBit s then ⟨d, true, false, false⟩
  else match colIndex s with
    | some i => ⟨d ^^^ (1#48 <<< i), true, false, false⟩
    | none => ⟨d, false, true, s == 0xFF⟩

/-- What check-and-correct leaves in place of a word (R184): a CE corrected, a UE other than a poisoned word
poisoned with DATA as read, anything else as it is. -/
def secCorrect (w : Stored) : Stored :=
  let f := secRead w
  if f.ce then secWord f.data else if f.ue && !f.poisoned then poisonWord f.data else w

/-! Bins (Table 04-5). -/

/-- The effective check mode: SECDED in a narrow shape runs PARITY (R196), code 3 is OFF. -/
def binMode (shape check : BitVec 2) : BitVec 2 :=
  if check = 3 then 2 else if check = 0 ∧ shape ≠ 0 then 1 else check

def parity12 (d : Word) (j : Nat) : Bool := ((List.range 12).map fun i => d.getLsbD (12 * j + i)).foldl xor false

/-- CHECK of PARITY mode. -/
def parityBits (d : Word) : BitVec 8 := BitVec.ofNat 8 (ofBits ((List.range 4).map (parity12 d)))

/-- A row as a Bin of the mode writes it. -/
def binRow (mode : BitVec 2) (d : Word) : Stored :=
  if mode = 0 then secWord d else if mode = 1 then parityBits d ++ d else 0#8 ++ d

/-- The 12-bit groups of the row that a mask of groups names have an odd error. -/
def parityError (w : Stored) (groups : List Nat) : Bool :=
  groups.any fun j => parity12 (secData w) j != w.getLsbD (48 + j)

/-- What a Bin finds when it reads a row: a parity error is reported as uncorrectable. -/
def binFound (mode : BitVec 2) (w : Stored) (groups : List Nat) : Found :=
  if mode = 0 then secRead w
  else if mode = 1 then ⟨secData w, false, parityError w groups, false⟩
  else ⟨secData w, false, false, false⟩

/-! The check menu (Table 10-5), as a bit-serial register model (R520). -/

structure Crc where
  width : Nat
  poly : Nat
  init : Nat
  refl : Bool
  xorOut : Nat
deriving DecidableEq, Repr

def crcP0 : Crc := ⟨32, 0x04C11DB7, 0xFFFFFFFF, true, 0xFFFFFFFF⟩
def crcP1 : Crc := ⟨32, 0x1EDC6F41, 0xFFFFFFFF, true, 0xFFFFFFFF⟩
def crcP2 : Crc := ⟨64, 0x42F0E1EBA9EA3693, 0, false, 0⟩
def crcP3 : Crc := ⟨16, 0x1021, 0xFFFF, false, 0⟩

def crcOf (code : Nat) : Crc := if code = 0 then crcP0 else if code = 1 then crcP1 else if code = 2 then crcP2 else crcP3

def crcBit (c : Crc) (reg : BitVec 64) (b : Bool) : BitVec 64 :=
  let top := reg.getLsbD (c.width - 1) != b
  let sh := (reg <<< 1) &&& BitVec.ofNat 64 (2 ^ c.width - 1)
  if top then sh ^^^ BitVec.ofNat 64 c.poly else sh

/-- One step: a byte, its least significant bit first when RefIn is Yes. -/
def crcByte (c : Crc) (reg : BitVec 64) (x : Byte) : BitVec 64 :=
  let bits := (List.range 8).map fun i => x.getLsbD i
  (if c.refl then bits else bits.reverse).foldl (crcBit c) reg

def crcInit (c : Crc) : BitVec 64 := BitVec.ofNat 64 c.init

/-- The finalised value: reflected over the width when RefOut is Yes, then XORed with XorOut. -/
def crcFinal (c : Crc) (reg : BitVec 64) : BitVec 64 :=
  let bits := (List.range c.width).map fun i => reg.getLsbD i
  BitVec.ofNat 64 (ofBits (if c.refl then bits.reverse else bits)) ^^^ BitVec.ofNat 64 c.xorOut

def crc (c : Crc) (b : List Byte) : BitVec 64 := crcFinal c (b.foldl (crcByte c) (crcInit c))

/-! Querns (R123 to R131, Table 03-8). -/

/-- The flag item F. -/
structure QFlags where
  illegal : Bool := false
  lts : Bool := false
  ltu : Bool := false
  eq : Bool := false
  n : Bool := false
  zero : Bool := false
  v : Bool := false
  c : Bool := false
deriving DecidableEq, Repr

def qFlags (f : QFlags) : Byte :=
  BitVec.ofNat 8 (ofBits [f.c, f.v, f.zero, f.n, f.eq, f.ltu, f.lts, f.illegal])

def prodU (a b : Word) : BitVec 96 := BitVec.ofNat 96 (a.toNat * b.toNat)

def prodS (a b : Word) : BitVec 96 := BitVec.ofInt 96 (a.toInt * b.toInt)

/-- The modulo-3 residue of the product that the operands give, and the check of a product against it (R131). -/
def residueOkU (a b : Word) (p : BitVec 96) : Bool := p.toNat % 3 == (a.toNat % 3) * (b.toNat % 3) % 3

def residueOkS (a b : Word) (p : BitVec 96) : Bool := p.toInt % 3 == (a.toInt % 3) * (b.toInt % 3) % 3

/-- ACC + x over exact integers leaves the signed range of 104 bits. -/
def accOverflowS (acc : BitVec 104) (x : Int) : Bool :=
  let r := acc.toInt + x
  r < -(2 ^ 103 : Int) || (2 ^ 103 : Int) ≤ r

/-- MAC_U: carry out of ACC[103]. -/
def accCarry (acc : BitVec 104) (x : Nat) : Bool := 2 ^ 104 ≤ acc.toNat + x

def accFlags (acc : BitVec 104) (v : Bool) : QFlags := { n := acc.getLsbD 103, zero := acc == 0, v }

def addFlags (a b : Word) : QFlags :=
  let z := a + b
  { n := z.getLsbD 47, zero := z == 0, c := 2 ^ 48 ≤ a.toNat + b.toNat,
    v := a.getLsbD 47 == b.getLsbD 47 && z.getLsbD 47 != a.getLsbD 47 }

def subFlags (a b : Word) : QFlags :=
  let z := a - b
  { n := z.getLsbD 47, zero := z == 0, c := a.toNat < b.toNat,
    v := a.getLsbD 47 != b.getLsbD 47 && z.getLsbD 47 != a.getLsbD 47 }

def cmpFlags (a b : Word) : QFlags :=
  { eq := a == b, ltu := a.toNat < b.toNat, lts := a.toInt < b.toInt }

/-- The amount of a shift: B[5:0]; the bits above are ignored (R128). -/
def shAmt (b : Word) : Nat := b.toNat % 64

/-- Last bit shifted out, 0 for an amount of 0; `left` false for a right shift; `sign` the bit shifted in. -/
def shiftOut (a : Word) (n : Nat) (left sign : Bool) : Bool :=
  if n = 0 then false
  else if left then (if n ≤ 48 then a.getLsbD (48 - n) else false)
  else if n ≤ 48 then a.getLsbD (n - 1) else sign

def shlZ (a b : Word) : Word := a <<< shAmt b
def shrLZ (a b : Word) : Word := a >>> shAmt b
def shrAZ (a b : Word) : Word := a.sshiftRight (shAmt b)

def shiftFlags (z : Word) (c : Bool) : QFlags := { n := z.getLsbD 47, zero := z == 0, c }

/-- One GF(2^10) product modulo x^10 plus poly (R129, R130), from the highest bit of b down. -/
def gfMul (poly : BitVec 10) (a b : BitVec 10) : BitVec 10 :=
  (List.range 10).foldl (fun r i =>
    let dbl := (r <<< 1) ^^^ (if r.getLsbD 9 then poly else 0)
    if b.getLsbD (9 - i) then dbl ^^^ a else dbl) 0

def gfmulZ (poly : BitVec 10) (a b : Word) : Word :=
  let m := fun k => gfMul poly (a.extractLsb' (10 * k) 10) (b.extractLsb' (10 * k) 10)
  0#8 ++ m 3 ++ m 2 ++ m 1 ++ m 0

end Sys2Proof.Machine
end

