-- ==== Sys2Proof/Machine/Operands.lean ====
section
/-! DEFINITION. Every operand form: queue items and markers (Tables 05-2, 05-3), endpoint codes (Table 05-4), rectangles
and windows (Table 06-1, R202), Hedge numbers (R302), slots and the guards of an edge (R40, R56, R77), units of host DMA
(Table 08-8), and the encodings of states. -/

namespace Sys2Proof.Machine

/-! Items. -/

def itLast (i : Item) : Bool := i.getLsbD 50
def itMark (i : Item) : Bool := i.getLsbD 49
def itBad (i : Item) : Bool := i.getLsbD 48
def itData (i : Item) : Word := i.extractLsb' 0 48
def itTags (i : Item) : BitVec 4 := i.extractLsb' 48 4

def mkItem (first last mark bad : Bool) (d : Word) : Item :=
  BitVec.ofBool first ++ (BitVec.ofBool last ++ (BitVec.ofBool mark ++ (BitVec.ofBool bad ++ d)))

def setFirst (f : Bool) (i : Item) : Item := mkItem f (itLast i) (itMark i) (itBad i) (itData i)
def setBad (i : Item) : Item := i ||| (1#52 <<< 48)
def setLast (l : Bool) (i : Item) : Item := mkItem (i.getLsbD 51) l (itMark i) (itBad i) (itData i)

/-- A device marker: FIRST, LAST and MARK set, a code and an argument that saturates at 40 bits (Table 05-3). -/
def marker (code arg : Nat) : Item :=
  mkItem true true true false (BitVec.ofNat 48 (code * 2 ^ 40 + min arg (2 ^ 40 - 1)))

/-- A marker: a packet of one item with MARK set (R523). -/
def isMarker (it : Item) : Bool := it.getLsbD 51 && itLast it && itMark it

def mkGap : Nat := 0x01
def mkLate : Nat := 0x02
def mkRecovery : Nat := 0x03
def mkFlush : Nat := 0x04

def markCode (i : Item) : Nat := (itData i).toNat / 2 ^ 40
def markArg (i : Item) : Nat := (itData i).toNat % 2 ^ 40

/-- A producer marker with a code from 0x01 to 0x0F is stored with code 0x00 (R232). -/
def storedMarker (i : Item) : Item :=
  if itMark i && 1 ≤ markCode i && markCode i ≤ 15 then
    mkItem (i.getLsbD 51) (itLast i) true (itBad i) (BitVec.ofNat 48 (markArg i))
  else i

/-! Endpoints. -/

/-- The endpoints of Table 05-4. -/
inductive Endpoint where
  | plotPort (p : Fin 64) (port : Fin 8)
  | laneRx (l : Fin 48)
  | laneTx (l : Fin 48)
  | host (f : Fin 33)
  | cvu (u : Fin 32)
  | reeve (c : Fin 8)
deriving DecidableEq, Repr

/-- The endpoint that a code names, none where it does not exist. -/
def endpoint (code : BitVec 16) : Option Endpoint :=
  let n := code.toNat
  let cls := n / 4096
  let low := n % 4096
  if cls = 0 then if low < 512 then some (.plotPort (Fin.ofNat 64 (low / 8)) (Fin.ofNat 8 (low % 8))) else none
  else if cls = 1 then if low < 48 then some (.laneRx (Fin.ofNat 48 low)) else none
  else if cls = 2 then if low < 48 then some (.laneTx (Fin.ofNat 48 low)) else none
  else if cls = 3 then if low < 33 then some (.host (Fin.ofNat 33 low)) else none
  else if cls = 4 then if low < 32 then some (.cvu (Fin.ofNat 32 low)) else none
  else if cls = 5 then if low < 8 then some (.reeve (Fin.ofNat 8 low)) else none
  else none

/-- Codes that a write accepts (R269): classes 0x0 to 0x5, and 0xFFFF. -/
def codeAllowed (code : BitVec 16) : Bool := code.toNat / 4096 ≤ 5 || code.toNat == 0xFFFF

def canProduce : Endpoint → Bool
  | .laneTx _ => false
  | _ => true

def canConsume : Endpoint → Bool
  | .laneRx _ => false
  | _ => true

/-- A Plot port: the producer is a Holding's design (R52). -/
def isDesign (code : BitVec 16) : Bool :=
  match endpoint code with
  | some (.plotPort _ _) => true
  | _ => false

/-- Commons credits of an attachment (Table 05-5). -/
def credits (code : BitVec 16) : Nat :=
  match endpoint code with
  | some (.laneRx _) => 2048
  | _ => 64

def plotCode (p : Fin 64) (port : Nat) : BitVec 16 := BitVec.ofNat 16 (8 * p.val + port)
def laneRxCode (l : Fin 48) : BitVec 16 := BitVec.ofNat 16 (0x1000 + l.val)
def laneTxCode (l : Fin 48) : BitVec 16 := BitVec.ofNat 16 (0x2000 + l.val)
def hostCode (f : Fin 33) : BitVec 16 := BitVec.ofNat 16 (0x3000 + f.val)
def cvuCode (u : Fin 32) : BitVec 16 := BitVec.ofNat 16 (0x4000 + u.val)
def reeveCode (c : Nat) : BitVec 16 := BitVec.ofNat 16 (0x5000 + c)

/-! Rectangles (Table 06-1). -/

def rectX (r : BitVec 32) : Nat := r.toNat / 2 ^ 24
def rectY (r : BitVec 32) : Nat := r.toNat / 2 ^ 16 % 256
def rectW (r : BitVec 32) : Nat := r.toNat / 256 % 256
def rectH (r : BitVec 32) : Nat := r.toNat % 256

/-- R284. -/
def rectValid (r : BitVec 32) : Bool :=
  r == 0 || (1 ≤ rectW r && rectW r ≤ 8 && 1 ≤ rectH r && rectH r ≤ 8 &&
    rectX r + rectW r ≤ 8 && rectY r + rectH r ≤ 8)

def inRect (r : BitVec 32) (p : Fin 64) : Bool :=
  let x := p.val % 8
  let y := p.val / 8
  rectX r ≤ x && x < rectX r + rectW r && rectY r ≤ y && y < rectY r + rectH r

/-- The Plots of a rectangle, ascending. -/
def rectPlots (r : BitVec 32) : List (Fin 64) := (List.finRange 64).filter (inRect r)

/-- The bank at index j of a rectangle (R202). -/
def rectBank (r : BitVec 32) (j : Nat) : Option (Fin 64) :=
  if rectW r = 0 ∨ rectW r * rectH r ≤ j then none
  else some (Fin.ofNat 64 (8 * (rectY r + j / rectW r) + rectX r + j % rectW r))

/-! Hedges (R302): the two Plots of Hedge e, south-west first. -/

def hedgePlots (e : Fin 112) : Fin 64 × Fin 64 :=
  if e.val < 56 then
    let p := 8 * (e.val / 7) + e.val % 7
    (Fin.ofNat 64 p, Fin.ofNat 64 (p + 1))
  else (Fin.ofNat 64 (e.val - 56), Fin.ofNat 64 (e.val - 56 + 8))

/-! Ticks. -/

/-- Slot j begins ⌊j·N/16⌋ ticks after the edge (R40); it has this many ticks. -/
def slotStart (n j : Nat) : Nat := j * n / 16
def slotLen (n j : Nat) : Nat := slotStart n (j + 1) - slotStart n j

/-- Ticks from now to the edge that ends the bell in progress. -/
def toEdge (s : State) : Nat := s.bell.edgeAt + s.bell.len - s.bell.now

/-- No edge lies ahead: the timebase is stopped or has not locked yet (R77). -/
def noEdge (s : State) : Bool := s.bell.stopped || !s.bell.locked || s.bell.firstEdge || s.bell.restart.isSome

/-- The edges from now at which what executes now under the timing of R77 takes effect: 1 for the coming edge, 2 for
the one after, as the arbiter decides within 16 ticks of the edge. -/
def edgesAway (guard : Nat) (s : State) : Nat :=
  if noEdge s || guard ≤ toEdge s then 1 else if Config.arbiter s.fresh then 1 else 2

/-- Whether the arbiter was asked; if so the decision is used up. -/
def tookArbiter (guard : Nat) (s : State) : Bool := !noEdge s && toEdge s < guard

def afterArbiter (guard : Nat) (s : State) : State := if tookArbiter guard s then draw s else s

/-- The bell that begins at the n-th edge from now (R39, R77, R83, R87). -/
def bellAt (s : State) (n : Nat) : BellNo :=
  if s.bell.firstEdge then s.bell.number + BitVec.ofNat 48 (n - 1) else s.bell.number + BitVec.ofNat 48 n

/-- The length of the bell that the coming edge begins, with a period of n ticks: a slew's, or the one that follows
BELL_IN (R67, R895). -/
def bellLength (s : State) (n : Nat) : Nat :=
  if s.village.slewing && s.village.slewLeft != 0 then (Int.ofNat n + s.village.slewD).toNat
  else if s.bell.source then (Int.ofNat n + s.bell.adj).toNat
  else n

/-- The closure window in ps (R135). -/
def windowPs (n : Nat) : Nat := (n - 12) * 800

/-! Host DMA units (Table 08-8): rate code 1 to 5 for 2.5 to 32.0 GT/s, 0 when down. -/

def rateFactor (rate : Nat) : Nat := if rate = 0 then 0 else 2 ^ (rate - 1)

def unitR (s : State) : Nat := rateFactor s.host.rate.val * s.host.width.val

def unitBytes (s : State) : Nat :=
  let r := unitR s
  if r = 0 then 0 else if r < 8 then 16 else min s.host.mps (2 * r)

def unitTicks (s : State) : Nat :=
  let r := unitR s
  if r = 0 then 0 else if 8 ≤ r then 11 else if 4 ≤ r then 22 else if 2 ≤ r then 44 else 88

/-- VFi is enabled (R386); PF0 always. -/
def vfOn (s : State) (f : Fin 33) : Bool :=
  f.val == 0 || (s.host.vfEnable && decide (f.val ≤ s.host.numVfs.toNat) && (s.host.ari || decide (f.val ≤ 7)))

/-! Encodings. -/

def hstateNum : HState → Nat
  | .empty => 0
  | .loading => 1
  | .ready => 2
  | .running => 3
  | .quiesced => 4
  | .dozing => 5
  | .faulted => 6
  | .clearing => 7

def freezeNum : FreezeState → Nat
  | .none => 0
  | .attempt => 1
  | .cut => 2
  | .forced => 3

def snapNum : SnapState → Nat
  | .idle => 0
  | .snapshotting => 1
  | .snapshotDone => 2
  | .moved => 3
  | .restoring => 4
  | .restored => 5
  | .failed => 6
  | .restoreFailed => 7

def budgetNum : BudgetState → Nat
  | .ok => 0
  | .warn => 1
  | .overBudget => 2

def faultNum : FaultCause → Nat
  | .none => 0
  | .plotUnfit => 1
  | .quernResidue => 2
  | .memUe => 3
  | .hedgeBreach => 4
  | .regFault => 5
  | .lane => 6
  | .cvu => 7

def laneStNum : LaneSt → Nat
  | .off => 0
  | .training => 1
  | .up => 2

def limvaNum : LimvaSt → Nat
  | .down => 0
  | .init => 1
  | .active => 2

def ringNum : RingSt → Nat
  | .disabled => 0
  | .active => 1
  | .draining => 2
  | .error => 3

def cvuNum : CvuSt → Nat
  | .idle => 0
  | .running => 1
  | .fault => 2

def villageNum : VillageSt → Nat
  | .none => 0
  | .joining => 1
  | .member => 2
  | .hold => 3

/-- Background work runs: core 2 is not lost (R948). -/
def gleanerRuns (s : State) : Bool := !s.boot.cores[(2 : Fin 4)].lost

/-- The unit of the evening test in progress tests Plot p, so that the Gleaner skips it (R870). -/
def underTest (s : State) (p : Fin 64) : Bool :=
  s.test.slice.any fun x => x.current.any fun k => decide (k < 320) && k / 5 == p.val

/-- The device is in BOOT_HALT (R747). -/
def bootHalted (s : State) : Bool :=
  match s.boot.phase with
  | .halted _ => true
  | .atReset | .romPassed | .released | .running => false

/-! What a Holding and a queue hold. -/

/-- The Plots that a Holding owns, ascending. -/
def ownedPlots (s : State) (h : Fin 32) : List (Fin 64) :=
  (List.finRange 64).filter fun p => h.val != 0 && s.plots[p].owner == h

/-- The queues that h owns (R1005); for 0, those of the system. -/
def ownedQueues (s : State) (h : Fin 32) : List (Fin 256) :=
  (List.finRange 256).filter fun q => s.queues[q].bound && queueOwner s q == h

/-- Queues bound with an endpoint code as producer, as consumer. -/
def queueFrom (s : State) (code : BitVec 16) : Option (Fin 256) :=
  (List.finRange 256).find? fun q => s.queues[q].bound && s.queues[q].producer == code

def queueTo (s : State) (code : BitVec 16) : Option (Fin 256) :=
  (List.finRange 256).find? fun q => s.queues[q].bound && s.queues[q].consumer == code

/-- The queue's owner lets items move: the system, or a RUNNING Holding (R47, R290). -/
def ownerRuns (s : State) (q : Fin 256) : Bool :=
  let h := queueOwner s q
  h.val == 0 || s.holdings[h].st == .running

end Sys2Proof.Machine
end

