-- ==== Sys2Proof/Machine/Dict.lean ====
section
/-! DEFINITION. The object dictionary (13): areas, the catalogue of types, rights and storage, the value of every entry,
and the order of checks of Table 13-3. -/

namespace Sys2Proof.Machine

/-- Rights of one column of the catalogue. -/
inductive Rt where
  | no | r | w | rw | x
deriving DecidableEq, Repr

/-- Table 12-6. -/
inductive Ty where
  | bool | u8 | u16 | u32 | u48 | s48 | u64 | str | blob | action
deriving DecidableEq, Repr

/-- A row of the catalogue: sub, type, the OP, TEN, MAINT and PUB columns, whether persistent. -/
structure Attr where
  sub : Nat
  ty : Ty
  op : Rt
  ten : Rt
  maint : Rt
  pub : Rt
  persistent : Bool
deriving DecidableEq, Repr

/-- The areas of Table 13-5. -/
inductive Area where
  | ident | device | store | fabric
  | plot (p : Fin 64)
  | granary
  | bank (p : Fin 64)
  | qstore | hedge | snap | host
  | quad (n : Fin 12)
  | gate | bell | slotMap | slotGranary
  | queue (q : Fin 256)
  | hold (h : Fin 32) (group : Nat)
  | lane (l : Fin 48)
  | cvuSys
  | cvu (u : Fin 32)
  | ssp | fnet | boot | meas | key | rng | attest | ledger | selftest | tele | village
deriving DecidableEq, Repr

def atIdent : List Attr :=
  [⟨1, .str, .r, .r, .r, .r, false⟩, ⟨2, .u48, .r, .r, .r, .r, false⟩, ⟨3, .u32, .r, .r, .r, .r, false⟩,
   ⟨4, .u32, .r, .r, .r, .r, false⟩, ⟨5, .u16, .r, .no, .r, .r, false⟩, ⟨6, .u32, .r, .no, .r, .r, false⟩]
def atDevice : List Attr :=
  [⟨1, .u8, .r, .r, .r, .r, false⟩, ⟨2, .u16, .r, .no, .r, .no, false⟩, ⟨3, .u48, .r, .no, .r, .no, false⟩,
   ⟨4, .blob, .r, .no, .r, .no, false⟩]
def atStore : List Attr :=
  [⟨1, .u8, .r, .no, .r, .no, false⟩, ⟨2, .u32, .r, .no, .r, .no, false⟩, ⟨3, .u32, .r, .no, .r, .no, false⟩,
   ⟨4, .u32, .r, .no, .r, .no, false⟩, ⟨5, .u32, .r, .no, .r, .no, false⟩, ⟨6, .action, .no, .no, .x, .no, false⟩]
def atFabric : List Attr :=
  [⟨1, .action, .x, .no, .x, .no, false⟩, ⟨2, .action, .no, .no, .x, .no, false⟩]
def atGranary : List Attr :=
  [⟨1, .u16, .rw, .no, .r, .no, true⟩, ⟨2, .u16, .rw, .no, .r, .no, true⟩, ⟨3, .action, .x, .no, .x, .no, false⟩]
def atQstore : List Attr :=
  [⟨1, .u16, .r, .no, .r, .no, false⟩, ⟨2, .u32, .r, .no, .r, .no, false⟩, ⟨3, .u32, .r, .no, .r, .no, false⟩]
def atHedge : List Attr :=
  [⟨1, .blob, .r, .no, .r, .no, false⟩, ⟨2, .u32, .r, .no, .r, .no, false⟩]
def atSnap : List Attr :=
  [⟨1, .u16, .rw, .no, .r, .no, false⟩, ⟨2, .u16, .rw, .no, .r, .no, false⟩, ⟨3, .blob, .rw, .no, .r, .no, false⟩,
   ⟨4, .u8, .r, .r, .r, .r, false⟩, ⟨5, .u8, .r, .no, .r, .no, false⟩]
def atHost : List Attr :=
  [⟨1, .u16, .r, .no, .r, .no, false⟩, ⟨2, .u8, .r, .no, .r, .no, false⟩, ⟨3, .u16, .r, .no, .r, .no, false⟩,
   ⟨4, .u16, .r, .no, .r, .no, false⟩, ⟨5, .u16, .r, .no, .r, .no, false⟩, ⟨6, .u32, .r, .no, .r, .no, false⟩,
   ⟨7, .u32, .r, .no, .r, .no, false⟩]
def atGate : List Attr :=
  [⟨1, .u32, .r, .no, .r, .no, false⟩, ⟨2, .u32, .r, .no, .r, .no, false⟩, ⟨3, .u32, .r, .no, .r, .no, false⟩]
def atBell : List Attr :=
  [⟨1, .u16, .rw, .r, .r, .no, true⟩, ⟨2, .u48, .r, .r, .r, .r, false⟩, ⟨3, .u8, .rw, .no, .r, .no, true⟩,
   ⟨4, .bool, .rw, .no, .r, .no, true⟩, ⟨5, .u8, .r, .r, .r, .r, false⟩, ⟨6, .u32, .r, .no, .r, .no, false⟩,
   ⟨7, .action, .x, .no, .x, .no, false⟩]
def atCvuSys : List Attr :=
  [⟨1, .u32, .r, .no, .r, .no, false⟩]
def atSsp : List Attr :=
  [⟨1, .u16, .rw, .no, .r, .no, true⟩, ⟨2, .u8, .r, .no, .r, .no, false⟩, ⟨3, .u32, .r, .no, .r, .no, false⟩,
   ⟨4, .u32, .r, .no, .r, .no, false⟩, ⟨5, .u32, .r, .no, .r, .no, false⟩, ⟨16, .u8, .rw, .no, .r, .no, true⟩,
   ⟨17, .u8, .rw, .no, .r, .no, true⟩, ⟨18, .u16, .rw, .no, .r, .no, true⟩, ⟨19, .u8, .rw, .no, .r, .no, true⟩,
   ⟨20, .u16, .rw, .no, .r, .no, true⟩, ⟨21, .u16, .rw, .no, .r, .no, true⟩, ⟨22, .u32, .rw, .no, .rw, .no, false⟩,
   ⟨23, .blob, .rw, .no, .rw, .no, false⟩, ⟨24, .blob, .r, .no, .r, .no, false⟩,
   ⟨25, .action, .x, .no, .x, .no, false⟩, ⟨26, .u8, .r, .no, .r, .no, false⟩, ⟨27, .u32, .r, .no, .r, .no, false⟩,
   ⟨28, .u32, .r, .no, .r, .no, false⟩, ⟨29, .blob, .r, .no, .r, .no, false⟩,
   ⟨30, .blob, .rw, .no, .rw, .no, false⟩, ⟨31, .u32, .r, .no, .r, .no, false⟩]
def atFnet : List Attr :=
  [⟨1, .bool, .rw, .no, .rw, .no, true⟩, ⟨2, .u48, .rw, .no, .r, .r, true⟩, ⟨3, .u16, .rw, .no, .r, .r, true⟩,
   ⟨4, .u8, .rw, .no, .rw, .r, true⟩, ⟨5, .u8, .rw, .no, .rw, .no, true⟩, ⟨6, .u8, .rw, .no, .rw, .no, true⟩,
   ⟨7, .u8, .rw, .no, .rw, .no, true⟩, ⟨8, .u8, .rw, .no, .rw, .no, true⟩, ⟨9, .u8, .r, .no, .r, .r, false⟩,
   ⟨10, .u8, .r, .no, .r, .r, false⟩, ⟨11, .blob, .r, .no, .r, .r, false⟩, ⟨12, .u32, .r, .no, .r, .no, false⟩,
   ⟨13, .u32, .r, .no, .r, .no, false⟩, ⟨16, .u32, .rw, .no, .r, .no, true⟩]
def atBoot : List Attr :=
  [⟨1, .u8, .r, .no, .r, .r, false⟩, ⟨2, .u8, .r, .no, .r, .r, false⟩, ⟨3, .u32, .r, .no, .r, .r, false⟩,
   ⟨4, .u32, .r, .no, .r, .r, false⟩, ⟨5, .u8, .r, .no, .r, .r, false⟩, ⟨6, .bool, .r, .no, .r, .no, false⟩,
   ⟨7, .action, .x, .no, .x, .no, false⟩]
def atMeas : List Attr :=
  [⟨1, .blob, .r, .r, .r, .r, false⟩, ⟨2, .blob, .r, .r, .r, .r, false⟩, ⟨3, .blob, .r, .r, .r, .r, false⟩,
   ⟨4, .blob, .r, .r, .r, .r, false⟩, ⟨5, .blob, .r, .r, .r, .r, false⟩, ⟨6, .blob, .r, .r, .r, .r, false⟩,
   ⟨7, .blob, .r, .r, .r, .r, false⟩, ⟨8, .blob, .r, .r, .r, .r, false⟩]
def atKey : List Attr :=
  [⟨1, .u8, .r, .no, .r, .r, false⟩, ⟨2, .blob, .r, .no, .r, .r, false⟩, ⟨3, .u8, .r, .no, .r, .r, false⟩,
   ⟨4, .action, .no, .no, .x, .no, false⟩, ⟨5, .blob, .r, .r, .r, .r, false⟩, ⟨6, .blob, .r, .no, .r, .r, false⟩]
def atRng : List Attr :=
  [⟨1, .u8, .r, .r, .r, .r, false⟩, ⟨2, .blob, .r, .r, .r, .no, false⟩]
def atAttest : List Attr :=
  [⟨1, .action, .x, .x, .x, .no, false⟩, ⟨2, .blob, .r, .r, .r, .no, false⟩]
def atLedger : List Attr :=
  [⟨1, .u8, .r, .r, .r, .no, false⟩, ⟨2, .u32, .r, .r, .r, .no, false⟩, ⟨3, .blob, .r, .r, .r, .no, false⟩,
   ⟨4, .u8, .r, .no, .r, .no, false⟩, ⟨5, .blob, .r, .no, .r, .no, false⟩, ⟨6, .action, .no, .no, .x, .no, false⟩,
   ⟨7, .u8, .rw, .no, .r, .no, true⟩]
def atSelftest : List Attr :=
  [⟨1, .bool, .rw, .no, .rw, .no, true⟩, ⟨2, .u16, .rw, .no, .rw, .no, true⟩,
   ⟨3, .action, .x, .no, .x, .no, false⟩, ⟨4, .u32, .r, .no, .r, .no, false⟩, ⟨5, .blob, .r, .no, .r, .no, false⟩,
   ⟨6, .u16, .r, .no, .r, .no, false⟩, ⟨7, .action, .no, .no, .x, .no, false⟩]
def atTele : List Attr :=
  [⟨1, .blob, .r, .no, .r, .no, false⟩, ⟨2, .blob, .r, .no, .r, .no, false⟩, ⟨3, .u16, .r, .no, .r, .r, false⟩,
   ⟨4, .u32, .r, .no, .r, .no, false⟩, ⟨5, .u16, .rw, .no, .r, .no, true⟩]
def atVillage : List Attr :=
  [⟨1, .bool, .rw, .no, .r, .no, true⟩, ⟨2, .blob, .rw, .no, .r, .no, true⟩, ⟨3, .u8, .r, .no, .r, .r, false⟩,
   ⟨4, .u8, .r, .no, .r, .r, false⟩, ⟨5, .u16, .r, .no, .r, .r, false⟩, ⟨6, .blob, .r, .no, .r, .r, false⟩,
   ⟨7, .u32, .r, .no, .r, .no, false⟩, ⟨8, .action, .x, .no, .x, .no, false⟩]
def atBank : List Attr :=
  [⟨1, .u32, .r, .no, .r, .no, false⟩, ⟨2, .u32, .r, .no, .r, .no, false⟩, ⟨3, .u32, .r, .no, .r, .no, false⟩,
   ⟨4, .u32, .r, .no, .r, .no, false⟩, ⟨5, .u8, .r, .no, .r, .no, false⟩, ⟨6, .u8, .r, .no, .r, .no, false⟩,
   ⟨7, .u8, .r, .no, .r, .no, false⟩, ⟨8, .u16, .r, .no, .r, .no, false⟩]
def atCvu : List Attr :=
  [⟨1, .u8, .rw, .rw, .r, .no, false⟩, ⟨2, .u8, .rw, .rw, .r, .no, false⟩, ⟨3, .u8, .rw, .rw, .r, .no, false⟩,
   ⟨4, .u8, .rw, .rw, .r, .no, false⟩, ⟨5, .u8, .rw, .rw, .r, .no, false⟩, ⟨6, .u32, .rw, .rw, .r, .no, false⟩,
   ⟨7, .u16, .rw, .rw, .r, .no, false⟩, ⟨8, .u64, .rw, .rw, .r, .no, false⟩, ⟨9, .u64, .r, .r, .r, .no, false⟩,
   ⟨10, .action, .x, .x, .no, .no, false⟩, ⟨11, .action, .x, .x, .x, .no, false⟩,
   ⟨12, .u8, .r, .r, .r, .no, false⟩, ⟨13, .u64, .r, .r, .r, .no, false⟩, ⟨14, .u32, .r, .r, .r, .no, false⟩,
   ⟨15, .u32, .r, .r, .r, .no, false⟩, ⟨16, .u32, .r, .r, .r, .no, false⟩, ⟨17, .u8, .rw, .rw, .r, .no, false⟩]
def atHold10 : List Attr :=
  [⟨1, .u32, .rw, .r, .r, .no, false⟩, ⟨2, .u8, .r, .r, .r, .no, false⟩, ⟨3, .u48, .r, .r, .r, .no, false⟩,
   ⟨4, .u8, .r, .r, .r, .no, false⟩, ⟨5, .action, .x, .no, .no, .no, false⟩, ⟨6, .action, .x, .x, .x, .no, false⟩,
   ⟨7, .action, .x, .x, .no, .no, false⟩, ⟨8, .action, .x, .x, .no, .no, false⟩,
   ⟨9, .action, .x, .x, .no, .no, false⟩, ⟨10, .action, .x, .x, .x, .no, false⟩,
   ⟨11, .action, .x, .no, .x, .no, false⟩]
def atHold20 : List Attr :=
  [⟨1, .u32, .rw, .r, .r, .no, false⟩, ⟨2, .u48, .rw, .r, .r, .no, false⟩, ⟨3, .u32, .rw, .r, .r, .no, false⟩,
   ⟨4, .u16, .rw, .r, .r, .no, false⟩, ⟨5, .u32, .rw, .r, .r, .no, false⟩, ⟨6, .u32, .r, .r, .r, .no, false⟩]
def atHold30 : List Attr :=
  [⟨1, .u32, .r, .r, .r, .no, false⟩, ⟨2, .u16, .r, .r, .r, .no, false⟩, ⟨3, .u16, .r, .r, .r, .no, false⟩,
   ⟨4, .u8, .r, .r, .r, .no, false⟩]
def atHold40 : List Attr :=
  [⟨1, .u8, .rw, .rw, .r, .no, false⟩, ⟨2, .bool, .rw, .r, .r, .no, false⟩, ⟨3, .u32, .r, .r, .r, .no, false⟩,
   ⟨4, .u32, .r, .r, .r, .no, false⟩]
def atHold50 : List Attr :=
  [⟨1, .u16, .rw, .rw, .r, .no, false⟩, ⟨2, .u16, .rw, .r, .r, .no, false⟩, ⟨3, .u16, .rw, .r, .r, .no, false⟩]
def atHold60 : List Attr :=
  [⟨1, .action, .x, .no, .x, .no, false⟩, ⟨2, .action, .x, .no, .no, .no, false⟩, ⟨3, .u8, .r, .r, .r, .no, false⟩,
   ⟨4, .action, .x, .no, .no, .no, false⟩, ⟨5, .u8, .rw, .r, .r, .no, false⟩,
   ⟨6, .action, .x, .no, .no, .no, false⟩, ⟨7, .u8, .r, .r, .r, .no, false⟩, ⟨8, .u32, .r, .r, .r, .no, false⟩,
   ⟨9, .u16, .r, .r, .r, .no, false⟩]
def atHold70 : List Attr :=
  [⟨1, .u16, .r, .r, .r, .no, false⟩, ⟨2, .u32, .r, .r, .r, .no, false⟩]
def atHold80 : List Attr :=
  [⟨1, .u32, .rw, .r, .r, .no, true⟩]
def atHold90 : List Attr :=
  [⟨1, .u32, .r, .r, .r, .no, false⟩, ⟨2, .u16, .r, .r, .r, .no, false⟩, ⟨3, .u32, .r, .r, .r, .no, false⟩]
def atHoldA0 : List Attr :=
  [⟨1, .action, .x, .no, .no, .no, false⟩, ⟨2, .u16, .rw, .no, .r, .no, false⟩,
   ⟨3, .blob, .w, .no, .no, .no, false⟩, ⟨4, .blob, .r, .r, .r, .no, false⟩, ⟨5, .u16, .r, .r, .r, .no, false⟩,
   ⟨6, .u32, .r, .r, .r, .no, false⟩]
def atLane : List Attr :=
  [⟨1, .bool, .rw, .rw, .r, .no, false⟩, ⟨2, .u8, .rw, .r, .r, .no, false⟩, ⟨3, .u8, .rw, .r, .r, .no, false⟩,
   ⟨4, .u8, .rw, .rw, .r, .no, false⟩, ⟨5, .u8, .rw, .rw, .r, .no, false⟩, ⟨6, .u32, .rw, .rw, .r, .no, false⟩,
   ⟨7, .u8, .rw, .rw, .r, .no, false⟩, ⟨8, .u8, .rw, .rw, .rw, .no, false⟩, ⟨9, .u8, .rw, .rw, .rw, .no, false⟩,
   ⟨10, .u8, .rw, .rw, .rw, .no, false⟩, ⟨11, .u64, .r, .r, .r, .no, false⟩, ⟨12, .u64, .r, .r, .r, .no, false⟩,
   ⟨13, .u64, .rw, .rw, .r, .no, false⟩, ⟨14, .u8, .r, .r, .r, .no, false⟩, ⟨15, .u64, .r, .r, .r, .no, false⟩,
   ⟨16, .u32, .r, .r, .r, .no, false⟩, ⟨17, .u32, .r, .r, .r, .no, false⟩, ⟨18, .u32, .r, .r, .r, .no, false⟩,
   ⟨19, .u8, .r, .r, .r, .no, false⟩, ⟨20, .u64, .r, .r, .r, .no, false⟩, ⟨21, .u48, .r, .r, .r, .no, false⟩,
   ⟨22, .s48, .r, .r, .r, .no, false⟩, ⟨23, .u32, .r, .r, .r, .no, false⟩, ⟨24, .u32, .r, .r, .r, .no, false⟩,
   ⟨25, .u64, .r, .r, .r, .no, false⟩]
def atPlot : List Attr :=
  [⟨1, .u16, .r, .no, .r, .no, false⟩, ⟨2, .u8, .r, .no, .r, .no, false⟩, ⟨3, .u32, .r, .no, .r, .no, false⟩,
   ⟨4, .u8, .r, .no, .r, .no, false⟩, ⟨5, .u8, .r, .no, .r, .no, false⟩, ⟨6, .u16, .r, .no, .r, .no, false⟩,
   ⟨7, .u8, .r, .no, .r, .no, false⟩]
def atQueue : List Attr :=
  [⟨1, .u8, .rw, .r, .r, .no, false⟩, ⟨2, .u8, .rw, .r, .r, .no, false⟩, ⟨3, .u16, .rw, .r, .r, .no, false⟩,
   ⟨4, .u8, .rw, .r, .r, .no, false⟩, ⟨5, .u8, .rw, .rw, .r, .no, false⟩, ⟨6, .u32, .r, .r, .r, .no, false⟩,
   ⟨7, .u16, .r, .r, .r, .no, false⟩, ⟨8, .u16, .rw, .r, .r, .no, false⟩, ⟨9, .action, .x, .no, .no, .no, false⟩,
   ⟨10, .action, .x, .no, .x, .no, false⟩, ⟨11, .action, .x, .x, .x, .no, false⟩,
   ⟨12, .u8, .r, .r, .r, .no, false⟩, ⟨13, .u16, .rw, .rw, .r, .no, false⟩, ⟨14, .u8, .rw, .rw, .r, .no, false⟩,
   ⟨15, .u32, .r, .r, .r, .no, false⟩, ⟨16, .u32, .r, .r, .r, .no, false⟩, ⟨17, .u64, .r, .r, .r, .no, false⟩,
   ⟨18, .u32, .r, .r, .r, .no, false⟩, ⟨19, .u64, .r, .r, .r, .no, false⟩]
def atQuad : List Attr :=
  [⟨1, .u32, .rw, .no, .r, .no, true⟩, ⟨2, .u16, .rw, .no, .r, .no, true⟩, ⟨3, .u16, .rw, .no, .r, .no, true⟩,
   ⟨4, .u8, .r, .no, .r, .no, false⟩]
def atSlotMap : List Attr :=
  (List.range 18).map fun i => ⟨i + 1, .blob, .rw, .no, .r, .no, false⟩

/-- SLOT.GRANARY0 to SLOT.GRANARY63: read only. -/
def atSlotGranary : List Attr :=
  (List.range 64).map fun i => ⟨i + 1, .blob, .r, .no, .r, .no, false⟩

def tyCode : Ty → Nat
  | .bool => 0
  | .u8 => 1
  | .u16 => 2
  | .u32 => 3
  | .u48 => 4
  | .s48 => 5
  | .u64 => 6
  | .str => 7
  | .blob => 8
  | .action => 9

/-- Value bytes of types 0 to 6; 0 for the others. -/
def tyWidth : Ty → Nat
  | .bool | .u8 => 1
  | .u16 => 2
  | .u32 => 4
  | .u48 | .s48 => 6
  | .u64 => 8
  | .str | .blob | .action => 0

/-- The Holding block in which an index lies, present or absent (R668, Table 13-7). -/
def holdBlock (ix : BitVec 16) : Option (Fin 32) :=
  let n := ix.toNat
  if 0x4100 ≤ n ∧ n < 0x6000 then some (Fin.ofNat 32 ((n - 0x4000) / 256)) else none

def areaOf (ix : BitVec 16) : Option Area :=
  let n := ix.toNat
  if n = 0x0000 then some .ident
  else if n = 0x1000 then some .device
  else if n = 0x1100 then some .store
  else if n = 0x1200 then some .fabric
  else if 0x1240 ≤ n ∧ n < 0x1280 then some (.plot (Fin.ofNat 64 (n - 0x1240)))
  else if n = 0x1300 then some .granary
  else if 0x1340 ≤ n ∧ n < 0x1380 then some (.bank (Fin.ofNat 64 (n - 0x1340)))
  else if n = 0x1400 then some .qstore
  else if n = 0x1500 then some .hedge
  else if n = 0x1600 then some .snap
  else if n = 0x1700 then some .host
  else if 0x1800 ≤ n ∧ n < 0x180C then some (.quad (Fin.ofNat 12 (n - 0x1800)))
  else if n = 0x1900 then some .gate
  else if n = 0x2000 then some .bell
  else if n = 0x2010 then some .slotMap
  else if n = 0x2011 then some .slotGranary
  else if 0x3000 ≤ n ∧ n < 0x3100 then some (.queue (Fin.ofNat 256 (n - 0x3000)))
  else if 0x4100 ≤ n ∧ n < 0x6000 then
    some (.hold (Fin.ofNat 32 ((n - 0x4000) / 256)) (n % 256))
  else if 0x6000 ≤ n ∧ n < 0x6030 then some (.lane (Fin.ofNat 48 (n - 0x6000)))
  else if n = 0x6100 then some .cvuSys
  else if 0x6110 ≤ n ∧ n < 0x6130 then some (.cvu (Fin.ofNat 32 (n - 0x6110)))
  else if n = 0x6200 then some .ssp
  else if n = 0x6300 then some .fnet
  else if n = 0x7000 then some .boot
  else if n = 0x7010 then some .meas
  else if n = 0x7020 then some .key
  else if n = 0x7030 then some .rng
  else if n = 0x7040 then some .attest
  else if n = 0x7800 then some .ledger
  else if n = 0x7900 then some .selftest
  else if n = 0x7A00 then some .tele
  else if n = 0x7C00 then some .village
  else none

def attrs : Area → List Attr
  | .ident => atIdent
  | .device => atDevice
  | .store => atStore
  | .fabric => atFabric
  | .plot _ => atPlot
  | .granary => atGranary
  | .bank _ => atBank
  | .qstore => atQstore
  | .hedge => atHedge
  | .snap => atSnap
  | .host => atHost
  | .quad _ => atQuad
  | .gate => atGate
  | .bell => atBell
  | .slotMap => atSlotMap
  | .slotGranary => atSlotGranary
  | .queue _ => atQueue
  | .hold _ g =>
    if g = 0x10 then atHold10 else if g = 0x20 then atHold20 else if g = 0x30 then atHold30
    else if g = 0x40 then atHold40 else if g = 0x50 then atHold50 else if g = 0x60 then atHold60
    else if g = 0x70 then atHold70 else if g = 0x80 then atHold80 else if g = 0x90 then atHold90
    else if g = 0xA0 then atHoldA0 else []
  | .lane _ => atLane
  | .cvuSys => atCvuSys
  | .cvu _ => atCvu
  | .ssp => atSsp
  | .fnet => atFnet
  | .boot => atBoot
  | .meas => atMeas
  | .key => atKey
  | .rng => atRng
  | .attest => atAttest
  | .ledger => atLedger
  | .selftest => atSelftest
  | .tele => atTele
  | .village => atVillage

/-- The catalogue row of index.sub, none when absent (R666, R668). -/
def attrOf (ix : BitVec 16) (sub : Nat) : Option Attr := (areaOf ix).bind fun a => (attrs a).find? (·.sub == sub)

/-! Reach, rights and the first checks of Table 13-3. -/

inductive Access where
  | r | w | x
deriving DecidableEq, Repr

def allows : Rt → Access → Bool
  | .r, .r | .rw, .r | .rw, .w | .w, .w | .x, .x => true
  | _, _ => false

/-- Table 13-2. -/
def reach (s : State) (role : Role) (ix : BitVec 16) (sub : Nat) : Bool :=
  match role with
  | .operator => true
  | .maint => s.pins.maintLow
  | .pub => (attrOf ix sub).any fun a => a.pub != .no
  | .tenant h =>
    match holdBlock ix with
    | some b => b == h
    | none =>
      match areaOf ix with
      | some (.queue q) => h.val != 0 && queueOwner s q == h
      | some (.lane l) => h.val != 0 && laneHolding s l == h
      | some (.cvu u) => h.val != 0 && cvuHolding s u == h
      | _ => (attrOf ix sub).any fun a => a.ten != .no || a.pub != .no

/-- A role's own column together with the PUB column. -/
def hasRight (role : Role) (a : Attr) (acc : Access) : Bool :=
  allows a.pub acc ||
    match role with
    | .operator => allows a.op acc
    | .tenant _ => allows a.ten acc
    | .maint => allows a.maint acc
    | .pub => false

/-- Queue, Holding and lane entries (R33). -/
def needsPower (ix : BitVec 16) : Bool :=
  match areaOf ix with
  | some (.queue _) | some (.hold _ _) | some (.lane _) => true
  | _ => false

/-- Steps 1 to 7 of Table 13-3, for a request whose TYPE, length and value are as stated (steps 4 to 6). -/
def checkEntry (s : State) (role : Role) (ix : BitVec 16) (sub : Nat) (acc : Access) (tyOk lenOk valOk : Bool) :
    Option Byte :=
  if !reach s role ix sub then some stDenied else
  match attrOf ix sub with
  | none => some stNoEntry
  | some a =>
    if !hasRight role a acc then some stDenied
    else if !tyOk then some stDenied
    else if !lenOk || !valOk then some stRange
    else if needsPower ix && !s.pins.corePowerGood then some stNotReady
    else none

/-- The TYPE byte of a response that names an entry; for one that names none, or an absent one, the spec states no
value: Config.respType, assumption 7. -/
def typeByte (op : Byte) (ix : BitVec 16) (sub : Nat) : Byte :=
  match attrOf ix sub with
  | some a => BitVec.ofNat 8 (tyCode a.ty)
  | none => Config.respType op

/-! The value of every entry. -/

def num (v : BitVec w) : Val := .num v.toNat
def flags (l : List Bool) : Val := .num (ofBits l)
def boolVal (b : Bool) : Val := .num (b2n b)

def valBytes (ty : Ty) : Val → List Byte
  | .num n => beBytes (tyWidth ty) n
  | .bytes b => b

def devStatus (s : State) : Nat := ofBits [s.pins.corePowerGood, s.bell.locked, s.dev.fatal]

def asciiBytes (t : String) : List Byte := t.toList.map fun c => BitVec.ofNat 8 c.toNat

/-- The directory copy in force (R706). -/
def dirInForce (s : State) : Option Dir :=
  match s.boot.dir0, s.boot.dir1 with
  | some a, some b => if b.seq.toNat ≤ a.seq.toNat then some a else some b
  | some a, none => some a
  | none, b => b

/-- Anti-rollback fuses: the run of blown bits from bit 0 (R716). -/
def rollbackRun (t : BitVec 64) : Nat := ((List.range 64).takeWhile fun i => t.getLsbD i).length

/-- The generation in force: the highest g whose COMMIT is set (R723). -/
def rootGen (s : State) : Fin 8 :=
  (((List.finRange 8).filter fun g => s.boot.gens[g].commit).getLast?).getD 0

def genBlown (g : KeyGen) : Bool := g.hashBlown || g.pending || g.commit || g.revoke

/-- The highest generation with any fuse blown (R723). -/
def topGen (s : State) : Nat :=
  ((((List.finRange 8).filter fun g => genBlown s.boot.gens[g]).getLast?).map (·.val)).getD 0

def gensLeft (s : State) : Nat := 7 - topGen s

def recSize (r : StoreRec) : Nat := 12 + (r.value.length + 3) / 4 * 4 + 4

/-- The latest valid record of each entry, and the replay list (R685, R735). -/
def recLive (s : State) (r : StoreRec) : Bool :=
  let newer := fun (x : StoreRec) => x.crcOk && x.tag == r.tag && r.seq.toNat < x.seq.toNat
  r.crcOk &&
    if r.tag = 0x5250 then (s.store.recs.filter newer).length < 64
    else r.tag == 0x5352 && !(s.store.recs.any fun x => newer x && x.ix == r.ix && x.sub == r.sub)

def liveBytes (s : State) : Nat := ((s.store.recs.filter (recLive s)).map recSize).sum

/-- Tallies issued to a Holding's rings; for 0, to PF0's. -/
def talliesOf (s : State) (h : Fin 32) : Nat :=
  ((List.finRange 256).map fun q => if s.rings[q].holder == h then s.rings[q].tallies.length else 0).sum

def bootSlotNum (b : Bool) : Nat := b2n b

/-- The device is a chain stage (R880). -/
def chainOwned (s : State) : Bool := s.village.manifest != [] && s.ssp.chain && s.ssp.chainBits == 256

/-- The serials of a manifest's members, in order (Table 18-1). -/
def manifestSerials (m : List Byte) : List Nat :=
  (List.range (bytesAt m 5 1 |> ofBe)).map fun i => ofBe (bytesAt m (16 + 54 * i) 6)

/-- The device's own member number in a manifest (R878). -/
def memberOf (m : List Byte) : Option Nat :=
  if m = [] then none else (manifestSerials m).findIdx? (· == Config.serial.toNat)

/-- The spanning Holdings of a manifest: Holding and mask of each. -/
def spansOf (m : List Byte) : List (Nat × Nat) :=
  let count := ofBe (bytesAt m 5 1)
  (List.range (ofBe (bytesAt m 6 1))).map fun j =>
    (ofBe (bytesAt m (16 + 54 * count + 4 * j) 1), ofBe (bytesAt m (18 + 54 * count + 4 * j) 2))

/-- Table 18-3. -/
def configDigest (s : State) : Digest :=
  Config.sha384 (beBytes 48 s.boot.gens[rootGen s].hash.toNat ++ beBytes 2 s.bell.period.toNat ++
    beBytes 1 (b2n s.bell.source) ++ beBytes 1 (b2n s.bell.outEnable) ++ beBytes 1 (b2n s.ssp.slave) ++
    beBytes 1 (b2n s.ssp.chain) ++ beBytes 2 s.ssp.chainBits.toNat ++ beBytes 1 s.ssp.selLevel.toNat ++
    beBytes 2 s.ssp.div1.toNat)

/-! Ledger record slots (R808): two coded words, OWNER three times. -/

def ledgerSlot (r : Rec) : BitVec 128 :=
  let b := recBits r
  secWord (b.extractLsb' 48 48) ++ (secWord (b.extractLsb' 0 48) ++ (r.owner ++ (r.owner ++ (r.owner ++ 0#1))))

def slotRec (v : BitVec 128) : BitVec 96 :=
  (secRead (v.extractLsb' 72 56)).data ++ (secRead (v.extractLsb' 16 56)).data

/-- OWNER, read by majority. -/
def slotOwner (v : BitVec 128) : Nat :=
  let a := v.extractLsb' 11 5
  let b := v.extractLsb' 6 5
  let c := v.extractLsb' 1 5
  ((a &&& b) ||| (a &&& c) ||| (b &&& c)).toNat

def ownerVisible (role : Role) (o : Nat) : Bool :=
  match role with
  | .operator | .maint => true
  | .tenant h => o != 0 && o == h.val
  | .pub => false

/-- Written slots, oldest first: from the next position to write, round to it. -/
def ledgerOrder (s : State) : List (Nat × BitVec 128) :=
  let good := s.ledger.pages.filter fun e => !s.ledger.lostPages.contains (e.1 / 256)
  (good.filter fun e => s.ledger.pos ≤ e.1) ++ (good.filter fun e => e.1 < s.ledger.pos)

/-- LEDGER.RECORDS (R809). -/
def ledgerExport (s : State) (role : Role) : List Byte :=
  (((ledgerOrder s).filter fun e => ownerVisible role (slotOwner e.2)).map fun e =>
    beBytes 12 (slotRec e.2).toNat).flatten

def ledgerWritten (s : State) (role : Role) : Nat :=
  (((List.finRange 32).filter fun h => ownerVisible role h.val).map fun h =>
    (s.ledger.written[h]).toNat).sum % 2 ^ 32

/-- The report that a role reads (R734). -/
def reportFor (s : State) (role : Role) : List Byte :=
  match role with
  | .tenant h => ((s.boot.reports.find? fun r => r.1 == .tenant h).map (·.2)).getD []
  | .operator | .maint => ((s.boot.reports.find? fun r => r.1 == .operator || r.1 == .maint).map (·.2)).getD []
  | .pub => []

def be16s (l : List (BitVec 16)) : List Byte := (l.map fun v => beBytes 2 v.toNat).flatten

/-- Released items not yet accepted (QUEUE.VISIBLE). -/
def visibleItems (q : Queue) : Nat := q.vis

/-- Items occupying slots, reserve included (QUEUE.HELD). -/
def heldItems (q : Queue) : Nat := q.items.length + q.openPk.length

/-- Ordinary items stored (R236). -/
def ordinaryItems (q : Queue) : Nat := ((q.items ++ q.openPk).filter fun c => !c.res).length

/-- D of a queue (R235). -/
def depth (q : Queue) : Nat := 2 ^ q.depthLog2.toNat

def queueStatus (q : Queue) : Nat :=
  ofBits [q.bound, (q.bound && heldItems q == 0), q.bound && ordinaryItems q == depth q - 1, !q.openPk.isEmpty,
    q.items.any (·.res), q.idle]

def fnetStatus (s : State) : Nat :=
  ofBits [s.fnet.plcaOk, s.fnet.nodeId == 0, s.fnet.addrValid, s.fnet.dadFail, s.fnet.conflict]

def hedgeBytes (s : State) : List Byte :=
  (List.range 14).map fun b => BitVec.ofNat 8 (ofBits ((List.range 8).map fun i =>
    s.hedges[Fin.ofNat 112 (8 * b + i)].isOpen))

def neighbourBytes (s : State) : List Byte :=
  padTo 2048 ((s.fnet.neighbours.map fun n => beBytes 8 n.iid.toNat ++ padTo 24 n.body).flatten)

def holdVal (s : State) (h : Fin 32) (g sub : Nat) : Val :=
  let x := s.holdings[h]
  match g, sub with
  | 0x10, 1 => num x.rect
  | 0x10, 2 => .num (hstateNum x.st)
  | 0x10, 3 => num x.stateBell
  | 0x10, 4 => .num (faultNum x.cause)
  | 0x20, 1 => num x.vfMask
  | 0x20, 2 => num x.laneMask
  | 0x20, 3 => num x.cvuMask
  | 0x20, 4 => num x.tallyQuota
  | 0x20, 5 => num x.queueQuota
  | 0x20, 6 => num x.itemsHeld
  | 0x30, 1 => num x.budgetUnits
  | 0x30, 2 => num x.cyclePs
  | 0x30, 3 => num x.budgetLoad
  | 0x30, 4 => .num (budgetNum x.budget)
  | 0x40, 1 => boolVal x.memUeReport
  | 0x40, 2 => boolVal x.window
  | 0x40, 3 => num x.memCe
  | 0x40, 4 => num x.memUe
  | 0x50, 1 => num x.voltage
  | 0x50, 2 => num x.vmin
  | 0x50, 3 => num x.vmax
  | 0x60, 3 => .num (freezeNum x.freeze)
  | 0x60, 5 => boolVal x.snapMove
  | 0x60, 7 => .num (snapNum x.snap)
  | 0x60, 8 => num x.snapBytes
  | 0x60, 9 => num x.snapResult
  | 0x70, 1 => .num (talliesOf s h)
  | 0x70, 2 => num x.dmaErrors
  | 0x80, 1 => num x.credEpoch
  | 0x90, 1 => num x.cadence
  | 0x90, 2 => num x.tempMax
  | 0x90, 3 => num x.islandMa
  | 0xA0, 2 => num x.loadSource
  | 0xA0, 4 => .bytes (beBytes 48 x.digest.toNat)
  | 0xA0, 5 => num x.loadResult
  | 0xA0, 6 => num x.loadBytes
  | _, _ => .bytes []

def plotVal (x : Plot) : Nat → Val
  | 1 => num x.cyclePs
  | 2 => num x.calTrim
  | 3 => num x.calCount
  | 4 => flags [x.calibrated, x.limit, x.unfit]
  | 5 => .num x.owner.val
  | 6 => num x.voltMv
  | 7 => flags [x.ramping, x.overcur, x.undervolt]
  | _ => .bytes []

def bankVal (x : Bank) : Nat → Val
  | 1 => num x.ceCount
  | 2 => num x.ueCount
  | 3 => num x.poisonCount
  | 4 => num x.wbDropped
  | 5 => num x.spareRows
  | 6 => num x.spareCols
  | 7 => flags [x.cleared, x.clearFail]
  | 8 => num x.scrubLine
  | _ => .bytes []

def queueVal (x : Queue) : Nat → Val
  | 0x01 => num x.owner
  | 0x02 => num x.depthLog2
  | 0x03 => num x.producer
  | 0x04 => boolVal x.locked
  | 0x05 => boolVal x.mark
  | 0x06 => num x.lateCount
  | 0x07 => num x.lateRun
  | 0x08 => num x.consumer
  | 0x0C => .num (queueStatus x)
  | 0x0D => num x.idleBells
  | 0x0E => boolVal x.idleFlush
  | 0x0F => .num (visibleItems x)
  | 0x10 => .num (heldItems x)
  | 0x11 => num x.dropCount
  | 0x12 => num x.rewindCount
  | 0x13 => num x.flushCount
  | _ => .bytes []

def laneVal (x : Lane) : Nat → Val
  | 0x01 => boolVal x.enable
  | 0x02 => boolVal x.pllB
  | 0x03 => boolVal x.limvaMode
  | 0x04 => boolVal x.b66
  | 0x05 => num x.polarity
  | 0x06 => num x.txFfe
  | 0x07 => boolVal x.frozen
  | 0x08 => num x.loopback
  | 0x09 => num x.prbsGen
  | 0x0A => num x.prbsChk
  | 0x0B => num x.prbsBits
  | 0x0C => num x.prbsErrors
  | 0x0D => num x.txFill
  | 0x0E => .num (laneStNum x.st + 16 * b2n x.blockLocked + 32 * b2n x.prbsLocked)
  | 0x0F => num x.rxDiscarded
  | 0x10 => num x.txDiscarded
  | 0x11 => num x.shErrors
  | 0x12 => num x.downCount
  | 0x13 => .num (limvaNum x.limva)
  | 0x14 => num x.peer
  | 0x15 => num x.peerBell
  | 0x16 => num x.bellDelta
  | 0x17 => num x.replays
  | 0x18 => num x.crcErrors
  | 0x19 => num x.lost
  | _ => .bytes []

def cvuVal (x : Cvu) : Nat → Val
  | 0x01 => num x.poly
  | 0x02 => num x.mode
  | 0x03 => num x.width
  | 0x04 => num x.order
  | 0x05 => num x.boundary
  | 0x06 => num x.frameItems
  | 0x07 => num x.snoop
  | 0x08 => num x.expect
  | 0x09 => num x.result
  | 0x0C => .num (cvuNum x.st)
  | 0x0D => num x.packets
  | 0x0E => num x.mismatches
  | 0x0F => num x.runts
  | 0x10 => num x.discarded
  | 0x11 => num x.skip
  | _ => .bytes []

def sspVal (s : State) : Nat → Val
  | 0x01 => num s.ssp.div0
  | 0x02 => flags [s.ssp.flashReady, s.ssp.writeBusy]
  | 0x03 => num s.ssp.programs
  | 0x04 => num s.ssp.erases
  | 0x05 => num s.ssp.flashErrors
  | 0x10 => boolVal s.ssp.slave
  | 0x11 => boolVal s.ssp.chain
  | 0x12 => num s.ssp.div1
  | 0x13 => num s.ssp.selLevel
  | 0x14 => num s.ssp.chainBits
  | 0x15 => num s.ssp.rdyTimeout
  | 0x16 => num s.ssp.xferCtrl
  | 0x17 => .bytes (padTo 8192 s.ssp.xferTx)
  | 0x18 => .bytes (padTo 8192 s.ssp.xferRx)
  | 0x1A => flags [s.ssp.xferBusy, chainOwned s, s.ssp.selected, s.ssp.reqBusy]
  | 0x1B => num s.ssp.errors
  | 0x1C => num s.ssp.noticeLost
  | 0x1D => .bytes (padTo 512 s.ssp.chainRx)
  | 0x1E => .bytes (padTo 512 s.ssp.chainTx)
  | 0x1F => num s.ssp.chainLatches
  | _ => .bytes []

def fnetVal (s : State) : Nat → Val
  | 0x01 => boolVal s.fnet.enable
  | 0x02 => num s.fnet.mac
  | 0x03 => num s.fnet.port
  | 0x04 => num s.fnet.nodeId
  | 0x05 => num s.fnet.nodeCount
  | 0x06 => num s.fnet.toTimer
  | 0x07 => num s.fnet.burstCount
  | 0x08 => num s.fnet.burstTimer
  | 0x09 => .num (fnetStatus s)
  | 0x0A => .num s.fnet.sessions.length
  | 0x0B => .bytes (neighbourBytes s)
  | 0x0C => num s.fnet.rxDropped
  | 0x0D => num s.fnet.authFails
  | 0x10 => num s.fnet.credEpoch
  | _ => .bytes []

/-- The temperature code that a Plot's sensor reports: 0 while its island is unpowered (R804, assumption 23). -/
def plotTemp (x : Plot) : BitVec 16 := if x.regOn then x.temp else 0

/-- The value of an entry as a role reads it. -/
def entryVal (s : State) (role : Role) (a : Area) (sub : Nat) : Val :=
  match a, sub with
  | .ident, 1 => .bytes (asciiBytes (if Config.gradeE then "VG48-96-F2964-E" else "VG48-96-F2964-C"))
  | .ident, 2 => num Config.serial
  | .ident, 3 => num s.boot.fw
  | .ident, 4 => .num 0x489656B0
  | .ident, 5 => num Config.vendorId
  | .ident, 6 => .num 0x14896A3D
  | .device, 1 => .num (devStatus s)
  | .device, 2 => num s.dev.code
  | .device, 3 => num s.dev.bell
  | .device, 4 => .bytes ((List.finRange 32).map fun h => BitVec.ofNat 8 (hstateNum s.holdings[h].st))
  | .store, 1 => flags [s.store.ready, s.store.failed, s.store.full]
  | .store, 2 => .num (liveBytes s)
  | .store, 3 => num s.store.nextSeq
  | .store, 4 => num s.store.torn
  | .store, 5 => num s.store.writeFails
  | .plot p, n => plotVal s.plots[p] n
  | .granary, 1 => num s.scrubS
  | .granary, 2 => num s.binScrubS
  | .bank p, n => bankVal s.banks[p] n
  | .qstore, 1 => num s.qstore.seenPages
  | .qstore, 2 => num s.qstore.ceCount
  | .qstore, 3 => num s.qstore.ueCount
  | .hedge, 1 => .bytes (hedgeBytes s)
  | .hedge, 2 => num s.breaches
  | .snap, 1 => num s.snap.outQueue
  | .snap, 2 => num s.snap.inQueue
  | .snap, 3 => .bytes (padTo 97 s.snap.targetKey)
  | .snap, 4 => .num 0x0B
  | .snap, 5 => flags [s.snap.job.isSome, s.snap.restore.isSome]
  | .host, 1 => .num (if s.host.rate.val = 0 then 0 else s.host.width.val * 256 + s.host.rate.val)
  | .host, 2 => .num (unitTicks s)
  | .host, 3 => .num (unitBytes s)
  | .host, 4 => num s.host.talliesSeen
  | .host, 5 => .num (talliesOf s 0)
  | .host, 6 => num s.host.fcStalls
  | .host, 7 => num s.host.abandoned
  | .quad n, 1 => num s.quads[n].refKhz
  | .quad n, 2 => num s.quads[n].pllaM
  | .quad n, 3 => num s.quads[n].pllbM
  | .quad n, 4 => flags [s.quads[n].refOk, s.quads[n].aLocked, s.quads[n].bLocked]
  | .gate, 1 => num s.gates.mxLong
  | .gate, 2 => num s.gates.dsResamples
  | .gate, 3 => num s.gates.hsTimeouts
  | .bell, 1 => num s.bell.period
  | .bell, 2 => num s.bell.number
  | .bell, 3 => boolVal s.bell.source
  | .bell, 4 => boolVal s.bell.outEnable
  | .bell, 5 => flags [s.bell.locked, s.bell.binLocked, s.bell.holdover, s.bell.stopped]
  | .bell, 6 => num s.bell.auditFails
  | .slotMap, n => .bytes s.slots.maps[Fin.ofNat 18 (n - 1)].toList
  | .slotGranary, n => .bytes s.slots.granary[Fin.ofNat 64 (n - 1)].toList
  | .queue q, n => queueVal s.queues[q] n
  | .hold h g, n => holdVal s h g n
  | .lane l, n => laneVal s.lanes[l] n
  | .cvuSys, 1 => .num (ofBits ((List.finRange 32).map fun u => cvuHolding s u == 0))
  | .cvu u, n => cvuVal s.cvus[u] n
  | .ssp, n => sspVal s n
  | .fnet, n => fnetVal s n
  | .boot, 1 => .num (bootSlotNum ((dirInForce s).any (·.activeB)))
  | .boot, 2 => .num (bootSlotNum s.boot.bootedB)
  | .boot, 3 => .num (((dirInForce s).map (·.genA.toNat)).getD 0)
  | .boot, 4 => .num (((dirInForce s).map (·.genB.toNat)).getD 0)
  | .boot, 5 => .num (rollbackRun s.boot.thermo)
  | .boot, 6 => boolVal s.boot.fallback
  | .meas, n => .bytes (beBytes 48 s.boot.m[Fin.ofNat 8 (n - 1)].toNat)
  | .key, 1 => .num (rootGen s).val
  | .key, 2 => .bytes (beBytes 48 s.boot.gens[rootGen s].hash.toNat)
  | .key, 3 => .num (gensLeft s)
  | .key, 5 => .bytes (padTo 97 Config.identityPub)
  | .key, 6 => .bytes (padTo 97 (Config.migrationPub (BitVec.ofNat 8 (rootGen s).val)))
  | .rng, 1 => flags [s.boot.seeded, s.boot.healthFail]
  | .rng, 2 => .bytes (padTo 48 (Config.drbg s.boot.draws 48))
  | .attest, 2 => .bytes (reportFor s role)
  | .ledger, 1 => flags [s.ledger.degraded]
  | .ledger, 2 => .num (ledgerWritten s role)
  | .ledger, 3 => .bytes (ledgerExport s role)
  | .ledger, 4 => .num s.ledger.lostPages.length
  | .ledger, 5 => .bytes ((s.ledger.gasp.toList.map fun w => beBytes 6 w.toNat).flatten ++
      beBytes 2 (min s.ledger.gaspCount 0xFFFF))
  | .ledger, 7 => num s.ledger.minSev
  | .selftest, 1 => boolVal s.test.enable
  | .selftest, 2 => num s.test.sliceMs
  | .selftest, 4 => num s.test.coverage
  | .selftest, 5 => .bytes s.test.results
  | .selftest, 6 => num s.test.softRepairs
  | .tele, 1 => .bytes (be16s (s.plots.toList.map plotTemp))
  | .tele, 2 => .bytes (be16s (s.quads.toList.map (·.temp)))
  | .tele, 3 => num s.tele.package
  | .tele, 4 => num s.tele.vinMa
  | .tele, 5 => num s.tele.alertTemp
  | .village, 1 => boolVal s.village.enable
  | .village, 2 => .bytes s.village.manifest
  | .village, 3 => .num (villageNum s.village.st)
  | .village, 4 => .num (if s.village.st = .none then 0xFF else (memberOf s.village.inForce).getD 0xFF)
  | .village, 5 => num s.village.members
  | .village, 6 => .bytes (beBytes 48 (configDigest s).toNat)
  | .village, 7 => num s.village.musters
  | _, _ => .bytes []

/-! Requests: the checks, then the entry's own conditions and effect. -/

/-- The bell in progress. -/
def bellNow (s : State) : BellNo := s.bell.number

/-- A WRITE of an entry that has its own row: Table 13-3, then `cond`, then `eff`, which names the bell of the
response. -/
def writeReq (rq : Req) (ix : BitVec 16) (sub : Nat) (lenOk valOk : Bool) (cond : State → Option Byte)
    (eff : State → State × BellNo) (s : State) : State :=
  serve rq (fun se s =>
    let ty := typeByte opWrite ix sub
    match (checkEntry s se.role ix sub .w true lenOk valOk).or (cond s) with
    | some e => respond rq opWrite e ty (bellNow s) [] s
    | none =>
      let r := eff s
      respond rq opWrite stOk ty r.2 [] r.1) s

/-- An INVOKE: Table 13-3, then `cond`, then `eff`, which answers now with a status and bell, or later. -/
def invokeReq (rq : Req) (ix : BitVec 16) (sub : Nat) (lenOk : Bool) (cond : Session → State → Option Byte)
    (eff : Session → State → State × Option (Byte × BellNo)) (s : State) : State :=
  serve rq (fun se s =>
    let ty := typeByte opInvoke ix sub
    match (checkEntry s se.role ix sub .x true lenOk true).or (cond se s) with
    | some e => respond rq opInvoke e ty (bellNow s) [] s
    | none =>
      let r := eff se s
      match r.2 with
      | some (st, b) => respond rq opInvoke st ty b [] r.1
      | none => r.1) s

/-- The response of an INVOKE whose outcome was decided later (R676). -/
def invokeDone (rq : Option Req) (st : Byte) (b : BellNo) (s : State) : State :=
  match rq with
  | none => s
  | some rq => respond rq opInvoke st (BitVec.ofNat 8 (tyCode .action)) b [] s

/-- The index of a Holding's entry group. -/
def hix (h : Fin 32) (g : Nat) : BitVec 16 := BitVec.ofNat 16 (0x4000 + 0x100 * h.val + g)
def qix (q : Fin 256) : BitVec 16 := BitVec.ofNat 16 (0x3000 + q.val)
def lix (l : Fin 48) : BitVec 16 := BitVec.ofNat 16 (0x6000 + l.val)
def cix (u : Fin 32) : BitVec 16 := BitVec.ofNat 16 (0x6110 + u.val)

end Sys2Proof.Machine
end

