-- ==== Sys2Proof/Machine/Persist.lean ====
section
/-! DEFINITION. The boot flash engine behind SSP0 (R585 to R593, R598, R605), the Store as a log of records in it (R678 to
R686, R798 to R802, R1004), and persistent writes from their checks to their response (R679 to R681, R690 to R697). -/

namespace Sys2Proof.Machine

/-! Flash contents: kept inverted, so that an unlisted byte reads as erased. -/

def flashGet (m : Mem 8) (a : Nat) : Byte := ~~~ memGet m a

def flashBytes (m : Mem 8) (a n : Nat) : List Byte := (List.range n).map fun i => flashGet m (a + i)

/-- Bytes set as given. -/
def flashSet (m : Mem 8) (a : Nat) (b : List Byte) : Mem 8 := memPut m a (b.map (~~~ ·))

/-- Programming clears bits only. -/
def flashProgram (m : Mem 8) (a : Nat) (b : List Byte) : Mem 8 :=
  flashSet m a (b.zipIdx.map fun x => x.1 &&& flashGet m (a + x.2))

def flashWipe (m : Mem 8) (a n : Nat) : Mem 8 := memKeep (fun k => k < a || a + n ≤ k) m

def modSsp (f : Ssp → Ssp) (s : State) : State := { s with ssp := f s.ssp }
def modStore (f : Store → Store) (s : State) : State := { s with store := f s.store }

def flashAddr (a : Nat) : List Byte := if a < 0x1000000 then beBytes 3 a else beBytes 4 a

/-- The bytes that the page program in progress covers: those of its first page. -/
def pageLen (a : Nat) (b : List Byte) : Nat := min b.length (256 - a % 256)

/-- The address of an operation. -/
def flashOpAddr : FlashOp → Nat
  | .program a _ _ | .erase a _ | .read a => a

/-- The commands that start an operation (Table 11-6, R587 to R589). -/
def flashOpCmd : FlashOp → List Byte
  | .program a b _ => [if a < 0x1000000 then 0x02 else 0x12] ++ flashAddr a ++ b.take (pageLen a b)
  | .erase a n =>
    [if n = 4096 then (if a < 0x1000000 then 0x20 else 0x21) else if a < 0x1000000 then 0xD8 else 0xDC] ++
      flashAddr a
  | .read a => [if a < 0x1000000 then 0x03 else 0x13] ++ flashAddr a

def isRead : FlashOp → Bool
  | .read _ => true
  | _ => false

/-- Waiting operations start in order: reads pass at once, a program or erase when none is in progress (R598). -/
def flashRun : List FlashOp → State → State
  | [], s => modSsp (fun x => { x with ops := [] }) s
  | .read a :: os, s => flashRun os (emit (.flashCmd (flashOpCmd (.read a))) s)
  | o :: os, s =>
    emit (.flashCmd (flashOpCmd o)) (emit (.flashCmd [0x06]) (modSsp (fun x => { x with op := some o, ops := os }) s))

/-- After a FLASH_TIMEOUT reads continue and no program or erase is sent (R605). -/
def flashStart (s : State) : State :=
  if s.ssp.op.isSome then s
  else if s.ssp.writeBusy then
    eachOf (s.ssp.ops.filter isRead) (fun o t => emit (.flashCmd (flashOpCmd o)) t)
      (modSsp (fun x => { x with ops := x.ops.filter fun o => !isRead o }) s)
  else flashRun s.ssp.ops s

def flashPush (o : FlashOp) (s : State) : State := flashStart (modSsp (fun x => { x with ops := x.ops ++ [o] }) s)

/-! The Store region (Table 14-9, R798 to R801). -/

def storeBase : Nat := 0x2100000
def spillBase : Nat := 0x2500000

/-- A record as laid out in Table 13-4, its CRC-32C last. -/
def recordBytes (r : StoreRec) : List Byte :=
  let b := beBytes 2 r.tag.toNat ++ beBytes 2 r.ix.toNat ++ beBytes 1 r.sub.toNat ++ beBytes 1 r.ty.toNat ++
    beBytes 2 r.value.length ++ beBytes 4 r.seq.toNat ++ r.value
  let b := padTo ((b.length + 3) / 4 * 4) b
  b ++ beBytes 4 (crc crcP1 b).toNat

/-- Records of one sector from byte offset k on: the scan steps over each by its LEN and ends at a position that holds
no record (R1004, R678, R683). -/
def scanSector (m : Mem 8) (sector : Nat) : Nat → Nat → List StoreRec
  | 0, _ => []
  | fuel + 1, k =>
    let at_ := storeBase + 4096 * sector + k
    let tag := ofBe (flashBytes m at_ 2)
    let len := ofBe (flashBytes m (at_ + 6) 2)
    let body := 12 + (len + 3) / 4 * 4
    if (tag ≠ 0x5352 ∧ tag ≠ 0x5250) ∨ 4096 < k + body + 4 then [] else
    let b := flashBytes m at_ body
    { tag := BitVec.ofNat 16 tag, ix := BitVec.ofNat 16 (ofBe (bytesAt b 2 2)),
      sub := BitVec.ofNat 8 (ofBe (bytesAt b 4 1)), ty := BitVec.ofNat 8 (ofBe (bytesAt b 5 1)),
      seq := BitVec.ofNat 32 (ofBe (bytesAt b 8 4)), value := bytesAt b 12 len, sector,
      crcOk := (crc crcP1 b).toNat == ofBe (flashBytes m (at_ + body) 4) } :: scanSector m sector fuel (k + body + 4)

/-- The sector header: MAGIC, ERASE_COUNT, CHECK, reserved, SECTOR_SEQ (Table 16-2). -/
def sectorHeader (erases seq : Nat) : List Byte :=
  let b := beBytes 4 0x56535443 ++ beBytes 4 erases
  b ++ beBytes 2 (crc crcP3 b).toNat ++ [0xFF, 0xFF] ++ beBytes 4 seq

def sectorFree (s : State) (i : Nat) : Bool :=
  !(s.store.sectors.any fun x => x.1 == i) && !s.store.retired.contains i

/-- The next free sector after the open one, in ascending order, wrapping (R799). -/
def nextSector (s : State) : Option Nat :=
  ((List.range 1024).map fun i => (s.store.openSector + 1 + i) % 1024).find? (sectorFree s)

def freeSectors (s : State) : Nat := ((List.range 1024).filter (sectorFree s)).length

/-- The first sector of all when none has been opened yet. -/
def sectorToOpen (s : State) : Option Nat :=
  if s.store.sectors.isEmpty then (List.range 1024).find? (sectorFree s) else nextSector s

/-- Opens a sector: programs SECTOR_SEQ, one higher than the open one's (R798, R799). -/
def openSector (i : Nat) (s : State) : State :=
  let seq := if s.store.sectors.isEmpty then s.store.sectorSeq else s.store.sectorSeq + 1
  let s := modStore (fun x => { x with
    openSector := i, openUsed := 16, sectorSeq := seq, sectors := x.sectors ++ [(i, seq)] }) s
  let hdr := sectorHeader (memGet s.store.eraseCount i).toNat seq.toNat
  modSsp (fun x => { x with flash := flashProgram x.flash (storeBase + 4096 * i) hdr }) s

/-- A place for n bytes: in the open sector, or in the next free one; none when no erased space is left. -/
def placeRecord (n : Nat) (s : State) : Option (State × Nat) :=
  if !s.store.sectors.isEmpty && s.store.openUsed + n ≤ 4096 then
    some (modStore (fun x => { x with openUsed := x.openUsed + n }) s,
      storeBase + 4096 * s.store.openSector + s.store.openUsed)
  else
    match sectorToOpen s with
    | none => none
    | some i => some (modStore (fun x => { x with openUsed := 16 + n }) (openSector i s), storeBase + 4096 * i + 16)

/-- A record copied to the open sector as it stands, SEQ unchanged (R685); none where no erased space is left. -/
def copyRecord (r : StoreRec) (s : State) : Option State :=
  (placeRecord (recSize r) s).map fun x =>
    modSsp (fun y => { y with
      flash := flashProgram y.flash x.2 (recordBytes r), programs := satAdd y.programs 1 })
      (modStore (fun y => { y with recs := y.recs ++ [{ r with sector := (x.2 - storeBase) / 4096 }] }) x.1)

def copyRecords : List StoreRec → State → Option State
  | [], s => some s
  | r :: l, s => (copyRecord r s).bind (copyRecords l)

/-- A Store sector is erased and counted; one of 100,000 erasures is retired (R798, R802). -/
def eraseSector (i : Nat) (s : State) : State :=
  let n := (memGet s.store.eraseCount i).toNat + 1
  let base := storeBase + 4096 * i
  let hdr := sectorHeader n 0xFFFFFFFF
  let s := modSsp (fun x => { x with
    flash := flashProgram (flashWipe x.flash base 4096) base hdr, erases := satAdd x.erases 1 }) s
  modStore (fun x => { x with
    sectors := x.sectors.filter fun y => y.1 != i, eraseCount := memSet x.eraseCount i (BitVec.ofNat 32 n),
    retired := if 100000 ≤ n then i :: x.retired else x.retired, full := false }) s

def recordRetired (i : Nat) (s : State) : State :=
  if s.store.retired.contains i then record evSectorRetired 0 (datTop 0 i) s else s

/-- Compaction of one sector: its latest records and those of the replay list are copied, then it is erased (R685, R800).
Nothing happens where there is no room for the copies. -/
def compactSector (i : Nat) (s : State) : State :=
  let keep := s.store.recs.filter fun r => r.sector == i && recLive s r
  match copyRecords keep (modStore (fun x => { x with recs := x.recs.filter fun r => r.sector != i }) s) with
  | none => s
  | some s => recordRetired i (record evStoreCompact 0 (datTop 0 i) (eraseSector i s))

/-- The sector with the lowest SECTOR_SEQ, the open one apart. -/
def oldestSector (s : State) : Option Nat :=
  ((s.store.sectors.filter fun x => x.1 != s.store.openSector).head?).map (·.1)

/-- A place for n bytes, after a compaction when there is no erased space (R690, R800). -/
def placeAfterCompaction (n : Nat) (s : State) : Option (State × Nat) :=
  match placeRecord n s with
  | some x => some x
  | none =>
    match oldestSector s with
    | none => none
    | some i => placeRecord n (compactSector i s)

/-! Persistent entries. -/

def valNum : Val → Nat
  | .num n => n
  | .bytes b => ofBe b

def valBytesOf : Val → List Byte
  | .num n => beBytes 8 n
  | .bytes b => b

def valBool (v : Val) : Bool := valNum v != 0

/-- The value of a persistent entry, set as at start-up (R682). -/
def setEntry (ix : BitVec 16) (sub : Nat) (v : Val) (s : State) : State :=
  let n := valNum v
  let b := valBool v
  match areaOf ix, sub with
  | some .bell, 1 => { s with bell := { s.bell with period := BitVec.ofNat 16 n } }
  | some .bell, 3 => { s with bell := { s.bell with source := b } }
  | some .bell, 4 => { s with bell := { s.bell with outEnable := b } }
  | some .granary, 1 => { s with scrubS := BitVec.ofNat 16 n }
  | some .granary, 2 => { s with binScrubS := BitVec.ofNat 16 n }
  | some (.quad q), 1 => modQuad q (fun x => { x with refKhz := BitVec.ofNat 32 n }) s
  | some (.quad q), 2 => modQuad q (fun x => { x with pllaM := BitVec.ofNat 16 n }) s
  | some (.quad q), 3 => modQuad q (fun x => { x with pllbM := BitVec.ofNat 16 n }) s
  | some .ssp, 0x01 => modSsp (fun x => { x with div0 := BitVec.ofNat 16 n }) s
  | some .ssp, 0x10 => modSsp (fun x => { x with slave := b }) s
  | some .ssp, 0x11 => modSsp (fun x => { x with chain := b }) s
  | some .ssp, 0x12 => modSsp (fun x => { x with div1 := BitVec.ofNat 16 n }) s
  | some .ssp, 0x13 => modSsp (fun x => { x with selLevel := BitVec.ofNat 8 n }) s
  | some .ssp, 0x14 => modSsp (fun x => { x with chainBits := BitVec.ofNat 16 n }) s
  | some .ssp, 0x15 => modSsp (fun x => { x with rdyTimeout := BitVec.ofNat 16 n }) s
  | some .fnet, 0x01 => { s with fnet := { s.fnet with enable := b } }
  | some .fnet, 0x02 => { s with fnet := { s.fnet with mac := BitVec.ofNat 48 n } }
  | some .fnet, 0x03 => { s with fnet := { s.fnet with port := BitVec.ofNat 16 n } }
  | some .fnet, 0x04 => { s with fnet := { s.fnet with nodeId := BitVec.ofNat 8 n } }
  | some .fnet, 0x05 => { s with fnet := { s.fnet with nodeCount := BitVec.ofNat 8 n } }
  | some .fnet, 0x06 => { s with fnet := { s.fnet with toTimer := BitVec.ofNat 8 n } }
  | some .fnet, 0x07 => { s with fnet := { s.fnet with burstCount := BitVec.ofNat 8 n } }
  | some .fnet, 0x08 => { s with fnet := { s.fnet with burstTimer := BitVec.ofNat 8 n } }
  | some .fnet, 0x10 => { s with fnet := { s.fnet with credEpoch := BitVec.ofNat 32 n } }
  | some (.hold h 0x80), 1 => modHolding h (fun x => { x with credEpoch := BitVec.ofNat 32 n }) s
  | some .ledger, 7 => { s with ledger := { s.ledger with minSev := BitVec.ofNat 8 n } }
  | some .selftest, 1 => { s with test := { s.test with enable := b } }
  | some .selftest, 2 => { s with test := { s.test with sliceMs := BitVec.ofNat 16 n } }
  | some .tele, 5 => { s with tele := { s.tele with alertTemp := BitVec.ofNat 16 n } }
  | some .village, 1 => { s with village := { s.village with enable := b } }
  | some .village, 2 => { s with village := { s.village with manifest := valBytesOf v } }
  | _, _ => s

/-- Whether any Holding is in one of the states of a list. -/
def anyHolding (s : State) (l : List HState) : Bool :=
  (List.finRange 32).any fun h => h.val != 0 && l.contains s.holdings[h].st

/-- M = SHA-384(M ‖ d) (R717). -/
def extendM (i : Fin 8) (d : Digest) (s : State) : State :=
  let v := Config.sha384 (beBytes 48 s.boot.m[i].toNat ++ beBytes 48 d.toNat)
  { s with boot := { s.boot with m := s.boot.m.set i v } }

/-- The bell length of the scrub interval I of R189 in bells, for a period of P seconds and N ticks. -/
def scrubInterval (p n : Nat) : Nat := max 1 (p * 1000000000 * 10 / (65536 * n * 8))

/-- A recomputed I moves the next scrub line of every bank (R193): I bells after the bell at which the last line fell
due, or the first bell after the change when that lies before it. -/
def rescrub (oldI newI first : Nat) (s : State) : State :=
  { s with banks := s.banks.map fun b => { b with nextDue := max (b.nextDue - oldI + newI) first } }

/-- A persistent write takes effect while the device runs: the bell period at its edge (R38, R77), the selection of
BELL_IN (R69, R84, R85), a new scrub interval (R193), a PLL that is turned off or changed (R454), the acceptance or
removal of a manifest (R883, R884). Answers the bell that the response names. -/
def applyEntry (ix : BitVec 16) (sub : Nat) (v : Val) (s : State) : State × BellNo :=
  match areaOf ix, sub with
  | some .bell, 1 =>
    let n := edgesAway 16 s
    let b := bellAt s n
    (afterArbiter 16 { s with bell := { s.bell with
      pendPeriod := s.bell.pendPeriod ++ [(s.bell.edges + n, BitVec.ofNat 16 (valNum v))] } }, b)
  | some .bell, 3 =>
    if valBool v then
      ({ s with bell := { s.bell with
          source := true, binLast := none, binFrom := s.bell.now, aligned := 0,
          pendSource := !anyHolding s [.running, .dozing, .quiesced] } }, bellNow s)
    else
      ({ s with bell := { s.bell with
          source := false, pendSource := false, adj := 0, aligned := 0, holdover := false,
          binLocked := s.bell.binLocked && !s.bell.holdover } }, bellNow s)
  | some .granary, 1 =>
    (rescrub (scrubInterval s.scrubS.toNat s.bell.period.toNat) (scrubInterval (valNum v) s.bell.period.toNat)
      (s.bell.edges + 1) (setEntry ix sub v s), bellNow s)
  | some (.quad q), 2 =>
    let s := setEntry ix sub v s
    if !s.quads[q].aLocked then (s, bellNow s) else
    (record evQuadPllUnlock 0 (BitVec.ofNat 48 (256 * q.val))
      (modQuad q (fun x => { x with aLocked := false }) s), bellNow s)
  | some (.quad q), 3 =>
    let s := setEntry ix sub v s
    if !s.quads[q].bLocked then (s, bellNow s) else
    (record evQuadPllUnlock 0 (BitVec.ofNat 48 (256 * q.val + 1))
      (modQuad q (fun x => { x with bLocked := false }) s), bellNow s)
  | some .village, 2 =>
    let s := setEntry ix sub v s
    if valBytesOf v = [] then ({ s with village := { s.village with inForce := [], lastRelease := none } }, bellNow s)
    else (record evManifestAccepted 0 0 (extendM 6 (Config.sha384 (valBytesOf v)) s), bellNow s)
  | _, _ => (setEntry ix sub v s, bellNow s)

/-- Duplicate address detection starts with its Neighbour Solicitation (R618, R655). -/
def startDad (s : State) : State :=
  { s with fnet := { s.fnet with
    addrValid := false, dadFail := false, dadRunning := true, txq := .dadSolicit :: s.fnet.txq } }

/-- What follows the response: a new MAC address repeats duplicate address detection, a PLCA entry restarts PLCA
(R654, R655), and a new epoch closes the sessions that it governs (R635; for the writing session after its own
response, assumption 8). -/
def afterEntry (ix : BitVec 16) (sub : Nat) (s : State) : State :=
  match areaOf ix, sub with
  | some .fnet, 0x02 => startDad s
  | some .fnet, 0x04 | some .fnet, 0x05 | some .fnet, 0x06 | some .fnet, 0x07 | some .fnet, 0x08 =>
    { s with fnet := { s.fnet with plcaOk := false } }
  | some .fnet, 0x10 => closeSessions (fun x => x.role == .operator || x.role == .maint) crEpoch s
  | some (.hold h 0x80), 1 => closeSessions (fun x => x.role == .tenant h) crEpoch s
  | _, _ => s

/-- The failure of a record (R695): STORE_WRITE_FAIL, STORE_FAILED to the writer, and the position's TAG voided, so
that the next record goes to the next sector. -/
def storeFailed (w : StorePend) (a : Nat) (s : State) : State :=
  let s := modStore (fun x => { x with writeFails := satAdd x.writeFails 1, openUsed := 4096 }) s
  let s := record evStoreWriteFail 0 (datTop 0 (w.record.ix.toNat * 256 + w.record.sub.toNat)) s
  let s := respond w.rq opWrite stStoreFailed w.record.ty (bellNow s) [] s
  modSsp (fun x => { x with ops := .program a [0, 0] (.voidTag ((a - storeBase) / 4096)) :: x.ops }) s

/-- A flash operation has ended well: what waited for it follows. -/
def flashDone (k : FlashCont) (s : State) : State :=
  match k with
  | .window | .voidTag _ => s
  | .replay r => modStore (fun x => { x with recs := x.recs ++ [r] }) s
  | .store w =>
    let s := modStore (fun x => { x with recs := x.recs ++ [w.record] }) s
    let r := applyEntry w.record.ix w.record.sub.toNat w.v s
    let s := respond w.rq opWrite stOk w.record.ty r.2 [] r.1
    afterEntry w.record.ix w.record.sub.toNat s

/-- A flash operation has failed: R591, R592, R605, R695. -/
def flashFailed (o : FlashOp) (s : State) : State :=
  match o with
  | .program a _ (.store w) => storeFailed w a s
  | .program _ _ (.voidTag i) => compactSector i s
  | .program _ _ _ | .erase _ _ | .read _ => s

/-- Step 9 of Table 13-3 and R680: a record of the value is appended and programmed; the value is applied and the
response sent when it has been read back. -/
def persistNow (rq : Req) (ix : BitVec 16) (sub : Nat) (role : Role) (v : Val) (s : State) : State :=
  let ty := typeByte opWrite ix sub
  let answer := fun st (s : State) => respond rq opWrite st ty (bellNow s) [] s
  match areaOf ix, attrOf ix sub with
  | some a, some at_ =>
    let bytes := valBytes at_.ty v
    if valBytes at_.ty (entryVal s role a sub) = bytes then answer stOk s
    else if !s.ssp.flashReady then answer stNotReady s
    else if s.store.failed then answer stStoreFailed s
    else
      let r : StoreRec :=
        { tag := 0x5352, ix, sub := BitVec.ofNat 8 sub, ty, seq := s.store.nextSeq, value := bytes, sector := 0,
          crcOk := true }
      match placeAfterCompaction (recSize r) s with
      | none => answer stNoSlot (modStore (fun x => { x with full := true }) s)
      | some (s, at_) =>
        let r := { r with sector := (at_ - storeBase) / 4096 }
        let s := modStore (fun x => { x with nextSeq := x.nextSeq + 1 }) s
        flashPush (.program at_ (recordBytes r) (.store { rq, record := r, v })) s
  | _, _ => answer stNoEntry s

/-- The operation programs a record of the entry. -/
def storesEntry (ix : BitVec 16) (sub : Nat) : FlashOp → Bool
  | .program _ _ (.store w) => w.record.ix == ix && w.record.sub.toNat == sub
  | _ => false

def entryPending (s : State) (ix : BitVec 16) (sub : Nat) : Bool :=
  s.ssp.op.any (storesEntry ix sub) || s.ssp.ops.any (storesEntry ix sub)

/-- A persistent write: it waits while an earlier one of the same entry has not been applied (R681). -/
def persist (rq : Req) (ix : BitVec 16) (sub : Nat) (role : Role) (v : Val) (s : State) : State :=
  if entryPending s ix sub then modStore (fun x => { x with waits := x.waits ++ [⟨rq, ix, sub, role, v⟩] }) s
  else persistNow rq ix sub role v s

/-- The writes that waited go on, in order. -/
def wakeStore (s : State) : State :=
  eachOf s.store.waits (fun w t => persist w.rq w.ix w.sub w.role w.v t) (modStore (fun x => { x with waits := [] }) s)

/-- A WRITE of a persistent entry that has its own row. -/
def writePersist (rq : Req) (ix : BitVec 16) (sub : Nat) (lenOk valOk : Bool) (cond : State → Option Byte) (v : Val)
    (s : State) : State :=
  serve rq (fun se s =>
    match (checkEntry s se.role ix sub .w true lenOk valOk).or (cond s) with
    | some e => respond rq opWrite e (typeByte opWrite ix sub) (bellNow s) [] s
    | none => persist rq ix sub se.role v s) s

/-- A record that no request asked for is appended. -/
def appendRecord (tag ix : BitVec 16) (sub ty : BitVec 8) (value : List Byte) (s : State) : State :=
  let r : StoreRec := { tag, ix, sub, ty, seq := s.store.nextSeq, value, sector := 0, crcOk := true }
  match placeRecord (recSize r) s with
  | none => modStore (fun x => { x with full := true }) s
  | some (s, a) =>
    let r := { r with sector := (a - storeBase) / 4096 }
    flashPush (.program a (recordBytes r) (.replay r)) (modStore (fun x => { x with nextSeq := x.nextSeq + 1 }) s)

/-- A record of the replay list (R370, R735). -/
def replayAppend (id : BitVec 128) (s : State) : State := appendRecord 0x5250 0x1600 0 8 (beBytes 16 id.toNat) s

/-- The epoch that CLEARING raises is a persistent value: it is stored (R12, R635, assumption 19). -/
def storeEpoch (h : Fin 32) (s : State) : State :=
  if s.ssp.flashReady && !s.store.failed then
    appendRecord 0x5352 (hix h 0x80) 1 3 (beBytes 4 s.holdings[h].credEpoch.toNat) s
  else s

/-- The IDs of the replay list (R735). -/
def inReplay (s : State) (id : BitVec 128) : Bool :=
  s.store.recs.any fun r => r.tag == 0x5250 && recLive s r && ofBe r.value == id.toNat

end Sys2Proof.Machine
end

