-- ==== Sys2Proof/Machine/Queues.lean ====
section
/-! DEFINITION. What a hardware queue does (05): staging, commits, losses and GAP markers, rewinds, releases, the consumer
buffer, acceptance, flushes, markers, binding and unbinding, and the judgement of closure at an edge (02). -/

namespace Sys2Proof.Machine

/-! Snoop taps (R535 to R538): kind 1 the producer side of a queue, 2 and 3 a lane's receive and transmit sides. -/

def tapCode (kind n : Nat) : BitVec 16 := BitVec.ofNat 16 (kind * 2 ^ 14 + n)

/-- The unit runs with this tap. -/
def tapSees (x : Cvu) (code : BitVec 16) : Bool :=
  x.st == .running && (x.mode == 3 || x.mode == 4) && x.snoop == code

/-- What passes the tap waits for the unit that holds it. -/
def showTap (kind n : Nat) (e : TapEv) (s : State) : State :=
  if s.cvus.any (tapSees · (tapCode kind n)) then
    { s with cvus := s.cvus.map fun x => if tapSees x (tapCode kind n) then { x with taps := x.taps ++ [e] } else x }
  else s

/-- The open packet of a queue leaves it. -/
def tapRewind (q : Fin 256) (s : State) : State :=
  if s.queues[q].openPk.isEmpty then s else showTap 1 q.val .rewind s

/-- The binding is in effect and no unbinding has executed: the queue carries traffic. -/
def carries (q : Queue) : Bool := q.bound && q.active && q.unbindEdge.isNone

/-- A freeze gate acts on the owner of the queue (R335). -/
def gated (s : State) (q : Fin 256) : Bool :=
  let h := queueOwner s q
  h.val != 0 && gateStands s h

/-- The queue's Holding takes a restore: losses pend until its end (R368). -/
def restoring (s : State) (q : Fin 256) : Bool :=
  match s.snap.restore with
  | some j => j.begun && queueOwner s q == j.h
  | none => false

def addLossPending (q : Fin 256) (n : Nat) (s : State) : State :=
  match s.snap.restore with
  | none => s
  | some j =>
    let old := ((j.losses.find? fun x => x.1 == q.val).map (·.2)).getD 0
    let losses := (q.val, old + n) :: j.losses.filter fun x => x.1 != q.val
    { s with snap := { s.snap with restore := some { j with losses } } }

/-- Lost items are counted when they are lost (R256, R259). -/
def countDrop (q : Fin 256) (n : Nat) (s : State) : State :=
  if n = 0 then s else
  limited evQueueDrop q.val n (modQueue q (fun x => { x with dropCount := satAdd x.dropCount n }) s)

/-- The edge for which what is committed now counts (R56, R75). -/
def commitEdge (s : State) : Nat := s.bell.edges + edgesAway 2 s

/-- After something whole has been appended: a free queue of a running owner releases it (R49), a queue whose owner does
not run keeps it for the edge at which the owner runs (R290). -/
def afterAppend (q : Fin 256) (s : State) : State :=
  if !ownerRuns s q then modQueue q (fun x => { x with runLen := x.items.length }) s
  else if !s.queues[q].locked then modQueue q (fun x => { x with vis := x.items.length }) s
  else s

/-- n lost items enter the GAP marker at the tail, a new GAP marker in the reserve, or the held count (R256). -/
def gapCount (q : Fin 256) (n : Nat) (s : State) : State :=
  if n = 0 then s
  else if restoring s q then addLossPending q n s
  else
    let x := s.queues[q]
    if x.heldGap ≠ 0 then modQueue q (fun x => { x with heldGap := x.heldGap + n }) s
    else
      match x.items.getLast? with
      | some c =>
        if c.gap && x.buf < x.items.length then
          modQueue q (fun x => { x with
            items := x.items.dropLast ++ [{ c with it := marker mkGap (markArg c.it + n) }] }) s
        else if x.items.any (·.res) then modQueue q (fun x => { x with heldGap := n }) s
        else afterAppend q (modQueue q (fun x => { x with
          items := x.items ++ [⟨marker mkGap n, commitEdge s, true, true⟩] }) s)
      | none => afterAppend q (modQueue q (fun x => { x with
          items := [⟨marker mkGap n, commitEdge s, true, true⟩] }) s)

/-- An ordinary slot is free for one more item; while a GAP marker holds the reserve, two must be (R258). -/
def roomFor (x : Queue) : Bool :=
  x.heldGap == 0 && ordinaryItems x + (if x.items.any (·.res) then 2 else 1) ≤ depth x - 1

def freeReserve (l : List QCell) : List QCell := l.map fun c => { c with res := false }

/-- One item is committed (R226 to R232, R255 to R258). -/
def commitItem (cb : Nat) (q : Fin 256) (it0 : Item) (s : State) : State :=
  let x := s.queues[q]
  let it := storedMarker it0
  if x.losing then
    gapCount q 1 (countDrop q 1 (modQueue q (fun x => { x with losing := !itLast it }) s))
  else if itLast it && itBad it then
    modQueue q (fun x => { x with openPk := [], rewindCount := satAdd x.rewindCount 1 }) (tapRewind q s)
  else if !roomFor x then
    let n := x.openPk.length + 1
    gapCount q n (countDrop q n (modQueue q (fun x => { x with openPk := [], losing := !itLast it })
      (tapRewind q s)))
  else
    let cell : QCell := ⟨setFirst x.openPk.isEmpty it, cb, false, false⟩
    let s := showTap 1 q.val (.item cell.it) s
    if itLast it then
      afterAppend q (modQueue q (fun x => { x with
        items := freeReserve x.items ++ x.openPk ++ [cell], openPk := [] }) s)
    else modQueue q (fun x => { x with items := freeReserve x.items, openPk := x.openPk ++ [cell] }) s

/-- The packet that is open is removed, and any loss of it ends (R229, R931). -/
def rewindOpen (q : Fin 256) (s : State) : State :=
  let x := s.queues[q]
  if x.losing then modQueue q (fun x => { x with losing := false }) s
  else if x.openPk.isEmpty then s
  else modQueue q (fun x => { x with openPk := [], rewindCount := satAdd x.rewindCount 1 }) (tapRewind q s)

/-- Items lost at staging reach their place in the queue: the packet's committed items go with them. -/
def lossReached (q : Fin 256) (n : Nat) (ended : Bool) (s : State) : State :=
  let k := s.queues[q].openPk.length
  gapCount q (n + k) (countDrop q k (modQueue q (fun x => { x with openPk := [], losing := !ended }) (tapRewind q s)))

/-- A device marker is committed between packets, before the open packet (R233); without room it is lost as one item
(R272). -/
def commitMarker (q : Fin 256) (code arg : Nat) (s : State) : State :=
  if !roomFor s.queues[q] then gapCount q 1 (countDrop q 1 s)
  else afterAppend q (modQueue q (fun x => { x with
    items := freeReserve x.items ++ [⟨marker code arg, commitEdge s, false, false⟩] }) s)

/-- The markers of a RESYNC reach their place (R489). -/
def resyncReached (q : Fin 256) (gap : Nat) (recovery : Bool) (s : State) : State :=
  let s := gapCount q gap s
  if recovery then commitMarker q mkRecovery (s.bell.number.toNat % 2 ^ 32) s else s

/-- Takes n items from staging in arrival order, with the losses, rewinds and markers that stand before, between and
right after them. -/
def commitStaged (cb : Nat) (q : Fin 256) : List Staged → Nat → State → State × List Staged
  | [], _, s => (s, [])
  | .lost k e :: l, n, s => commitStaged cb q l n (lossReached q k e s)
  | .rewind :: l, n, s => commitStaged cb q l n (rewindOpen q s)
  | .mark g r :: l, n, s => commitStaged cb q l n (resyncReached q g r s)
  | .item it :: l, n + 1, s => commitStaged cb q l n (commitItem cb q it s)
  | .item it :: l, 0, s => (s, .item it :: l)

def isStagedItem : Staged → Bool
  | .item _ => true
  | _ => false

def stagedItems (x : Queue) : List Staged := x.staging.filter isStagedItem

/-- Items leave the receive staging of the lane that produces for the queue: what CREDIT counts (Table 09-5). -/
def leaveStaging (q : Fin 256) (n : Nat) (s : State) : State :=
  match endpoint s.queues[q].producer with
  | some (.laneRx l) => modLane l (fun x => { x with creditOut := x.creditOut + BitVec.ofNat 16 n }) s
  | _ => s

/-- Commits n staged items and frees their credits. -/
def commitN (q : Fin 256) (n : Nat) (s : State) : State :=
  let r := commitStaged (commitEdge s) q s.queues[q].staging n s
  leaveStaging q n (modQueue q (fun x => { x with staging := r.2, prodFree := x.prodFree + n }) r.1)

/-- The packet that arrives is open: its LAST has not arrived. -/
def arrivalOpen (x : Queue) : Bool :=
  x.arrLosing || x.discarding ||
    match (x.staging.filter fun e => match e with | .mark _ _ => false | _ => true).getLast? with
    | some (.item it) => !itLast it
    | some (.lost _ e) => !e
    | some _ => false
    | none => x.losing || !x.openPk.isEmpty

def stageLoss (n : Nat) (ended : Bool) (l : List Staged) : List Staged :=
  match l.getLast? with
  | some (.lost k _) => l.dropLast ++ [.lost (k + n) ended]
  | _ => l ++ [.lost n ended]

/-- An item is lost as it arrives at a full staging (R255, R257). -/
def loseArrival (q : Fin 256) (last : Bool) (s : State) : State :=
  let s := countDrop q 1 (modQueue q (fun x => { x with arrLosing := !last }) s)
  if restoring s q then addLossPending q 1 s
  else commitN q 0 (modQueue q (fun x => { x with staging := stageLoss 1 last x.staging }) s)

/-- An item arrives at the producer attachment, which holds a free credit for it, or takes items it must lose: the rest of
a flushed packet (R261, R262), the rest of a lost packet, and what reaches a full lane receive staging (Table 05-5). -/
def stageItem (q : Fin 256) (it : Item) (s : State) : State :=
  let x := s.queues[q]
  if x.discarding then
    modQueue q (fun x => { x with flushCount := satAdd x.flushCount 1, discarding := !itLast it }) s
  else if x.arrLosing then loseArrival q (itLast it) s
  else if x.prodFree ≠ 0 then
    modQueue q (fun x => { x with staging := x.staging ++ [.item it], prodFree := x.prodFree - 1 }) s
  else if itLast it && itBad it then
    commitN q 0 (modQueue q (fun x => { x with staging := x.staging ++ [.rewind] }) s)
  else loseArrival q (itLast it) s

/-- The attachment takes an item without losing it for want of a credit. -/
def takesItem (x : Queue) : Bool := x.discarding || x.arrLosing || x.prodFree != 0

/-- A rewind made in place of a BAD LAST: it ends the packet that is open, and any loss or discard of it (R229). -/
def rewindPlace (q : Fin 256) (s : State) : State :=
  if !arrivalOpen s.queues[q] then s else
  commitN q 0 (modQueue q (fun x => { x with
    staging := if x.discarding then x.staging else x.staging ++ [.rewind], discarding := false,
    arrLosing := false }) s)

/-- The item that the consumer buffer offers behind an open gate (R250, R251). -/
def offered (x : Queue) : Option Item := if x.buf = 0 ∨ x.vis = 0 then none else (x.items.head?).map (·.it)

/-- A faulted Holding's items are never delivered (R917). -/
def delivers (s : State) (q : Fin 256) : Bool :=
  let h := queueOwner s q
  carries s.queues[q] && (h.val == 0 || s.holdings[h].cause == .none)

/-- The consumer accepts the item offered: its slot and credit are free, an idle episode ends (R237, R265), and a held
loss count is committed when the reserve becomes free (R256). -/
def takeItem (q : Fin 256) (s : State) : State :=
  let x := s.queues[q]
  let held := x.heldGap
  let wasRes := (x.items.head?).any (·.res)
  let s := modQueue q (fun x => { x with
    items := x.items.drop 1, vis := x.vis - 1, buf := x.buf - 1, runLen := x.runLen - 1,
    closeLen := x.closeLen.map (· - 1), closeNext := x.closeNext.map (· - 1), accepted := true,
    consFree := x.consFree + 1, idle := false, idleCnt := 0, reqUp := false }) s
  if wasRes && held ≠ 0 then gapCount q held (modQueue q (fun x => { x with heldGap := 0 }) s) else s

/-- Everything in the queue, its staging and its consumer buffer goes (R260). -/
def emptyQueue (q : Fin 256) (s : State) : State :=
  leaveStaging q (stagedItems s.queues[q]).length <| modQueue q (fun x => { x with
    items := [], vis := 0, buf := 0, openPk := [], staging := [], losing := false, arrLosing := false,
    discarding := arrivalOpen x, heldGap := 0, closeLen := x.closeLen.map fun _ => 0,
    closeNext := x.closeNext.map fun _ => 0, runLen := 0, reqUp := false,
    prodFree := x.prodFree + (stagedItems x).length, consFree := x.consFree + x.buf }) (tapRewind q s)

/-- Items that a flush discards. -/
def flushTotal (x : Queue) : Nat := x.items.length + x.openPk.length + (stagedItems x).length

/-- Losses counted and not yet in a marker. -/
def lossesHeld (x : Queue) : Nat :=
  x.heldGap + (x.staging.map fun e => match e with | .lost n _ => n | _ => 0).sum

/-- A flush of the queue itself (R260 to R262, R271). -/
def flushItems (q : Fin 256) (s : State) : State :=
  let n := flushTotal s.queues[q]
  let held := lossesHeld s.queues[q]
  let s := emptyQueue q s
  let s := modQueue q (fun x => { x with flushCount := satAdd x.flushCount n }) s
  let s := gapCount q held s
  let s := commitMarker q mkFlush n s
  record evQueueFlush (queueOwner s q) (datTop q.val (min n (2 ^ 40 - 1))) s

/-- What a bound queue needs of the Queue Store. -/
def pagesFor (depthLog2 : Nat) : Nat := 2 ^ depthLog2 / 64

/-- The sum of the depths of a Holding's bound queues (R299). -/
def itemsHeldSum (s : State) (h : Fin 32) : Nat := ((ownedQueues s h).map fun q => depth s.queues[q]).sum

def updateItemsHeld (h : Fin 32) (s : State) : State :=
  if h.val = 0 then s
  else modHolding h (fun x => { x with itemsHeld := BitVec.ofNat 32 (itemsHeldSum s h) }) s

/-- The edge at which what executes now under R77 takes effect. -/
def effectEdge (s : State) : Nat := s.bell.edges + edgesAway 16 s

/-- A lane's receive queue is bound anew: no earlier ACTIVE counts for it (R489). -/
def laneBound (q : Fin 256) (s : State) : State :=
  match endpoint s.queues[q].producer with
  | some (.laneRx l) => modLane l (fun x => { x with wasActive := false }) s
  | _ => s

/-- From its execution the queue counts as bound (R243, R1005): its pages are reserved and its counters are 0 (R267). -/
def bindQueue (q : Fin 256) (edge : Nat) (decl : Option Nat) (s : State) : State :=
  let n := pagesFor s.queues[q].depthLog2.toNat
  let s := modQueue q (fun x => { x with
    bound := true, bindEdge := some (max edge (x.unbindEdge.getD 0)), decl, pages := n,
    dropCount := 0, rewindCount := 0, flushCount := 0, lateCount := 0, lateRun := 0, runPosted := false,
    idleCnt := 0, idle := false }) s
  let s := { s with qstore := { s.qstore with freePages := s.qstore.freePages - n } }
  updateItemsHeld (queueOwner s q) (laneBound q s)

/-- From its execution the queue counts as unbound; contents and pages go at the edge (R243, R245). -/
def unbindQueue (q : Fin 256) (edge : Nat) (s : State) : State :=
  let h := queueOwner s q
  let s := modQueue q (fun x => { x with
    bound := false, unbindEdge := some (max edge (x.bindEdge.getD 0)), unbindPages := x.unbindPages + x.pages,
    pages := 0 }) s
  updateItemsHeld h s

/-- At an edge: a binding takes effect with its credits free, an unbinding discards everything and returns the pages. -/
def bindingEdge (e : Nat) (q : Fin 256) (s : State) : State :=
  let x := s.queues[q]
  let ub := x.unbindEdge.any (· ≤ e)
  let bd := x.bindEdge.any (· ≤ e)
  let s := if ub then leaveStaging q (stagedItems x).length (tapRewind q s) else s
  let s := if !ub then s else
    { modQueue q (fun x => { x with
        items := [], vis := 0, buf := 0, openPk := [], staging := [], losing := false, arrLosing := false,
        discarding := false, heldGap := 0, closeLen := none, closeNext := none, runLen := 0, reqUp := false,
        recMark := false, active := false, unbindEdge := none, unbindPages := 0, idleCnt := 0, idle := false,
        decl := if x.bound then x.decl else none }) s with
      qstore := { s.qstore with freePages := s.qstore.freePages + x.unbindPages } }
  if !bd then s else
    modQueue q (fun x => { x with
      active := x.bound, bindEdge := none, prodFree := credits x.producer, consFree := credits x.consumer,
      prodFlight := 0, consFlight := 0, accepted := false }) s

/-- The prefix of the first n items whose commits count for edge e. -/
def duePrefix (e n : Nat) (x : Queue) : Nat := ((x.items.take n).takeWhile fun c => c.cb ≤ e).length

def releaseTo (q : Fin 256) (n : Nat) (s : State) : State :=
  modQueue q (fun x => { x with vis := max x.vis n }) s

/-- The LATE marker of a late edge under MARK: it follows the packets released there (R59, R62, R272). -/
def commitLate (q : Fin 256) (e : Nat) (s : State) : State :=
  let x := s.queues[q]
  let arg := s.bell.number.toNat % 2 ^ 24 * 2 ^ 16 + x.lateRun.toNat
  if !roomFor x then gapCount q 1 (countDrop q 1 s)
  else modQueue q (fun x =>
    let l := freeReserve x.items
    { x with items := l.take x.vis ++ [⟨marker mkLate arg, e, false, false⟩] ++ l.drop x.vis, vis := x.vis + 1 }) s

/-- A late edge (R58 to R60). -/
def lateEdge (q : Fin 256) (e : Nat) (s : State) : State :=
  let s := modQueue q (fun x => { x with lateCount := satAdd x.lateCount 1, lateRun := satAdd x.lateRun 1 }) s
  if s.queues[q].mark then
    commitLate q e (releaseTo q (duePrefix e s.queues[q].items.length s.queues[q]) s)
  else s

/-- A closed edge (R54, R60, R61). -/
def closedEdge (q : Fin 256) (e n : Nat) (s : State) : State :=
  let x := s.queues[q]
  let s := releaseTo q (duePrefix e n x) s
  let s := if 16 ≤ x.lateRun.toNat then
    record evLateRunEnd (queueOwner s q) (datTop q.val x.lateRun.toNat) s else s
  modQueue q (fun x => { x with lateRun := 0, runPosted := false }) s

/-- The judgement and releases of one queue at edge e for an owner that ran in the bell just ended (R51, R53, R340). -/
def judgeQueue (e : Nat) (q : Fin 256) (s : State) : State :=
  let x := s.queues[q]
  if !(carries x && x.locked && ownerRuns s q) then s
  else if !isDesign x.producer then releaseTo q (duePrefix e x.items.length x) s
  else if gated s q then s
  else match x.closeLen with
    | some n => closedEdge q e n s
    | none => lateEdge q e s

/-- The idle count (R263, R265, R273, R340), taken before the edge's releases. -/
def idleEdge (q : Fin 256) (s : State) : State :=
  let x := s.queues[q]
  if !carries x then s
  else if gated s q then modQueue q (fun x => { x with accepted := false }) s
  else if x.vis ≠ 0 && !x.accepted then modQueue q (fun x => { x with idleCnt := x.idleCnt + 1 }) s
  else modQueue q (fun x => { x with
    idleCnt := 0, accepted := false, idle := x.idle && x.vis != 0 && !x.accepted }) s

/-- Close handshakes count once, for the edge that they are assigned to (R53, R56). -/
def closeEdge (q : Fin 256) (s : State) : State :=
  modQueue q (fun x => { x with closeLen := x.closeNext, closeNext := none }) s

/-- At the edge at which the owner runs: what was committed while it did not run is released (R290), the RECOVERY marker
of a reset Holding is committed (R930). -/
def queueRuns (q : Fin 256) (s : State) : State :=
  let s := if s.queues[q].recMark then
    commitMarker q mkRecovery (s.bell.number.toNat % 2 ^ 32) (modQueue q (fun x => { x with recMark := false }) s)
    else s
  modQueue q (fun x => { x with
    vis := if x.locked then max x.vis x.runLen else x.items.length, runLen := 0 }) s

/-- Recovery's marker at edge c (R925); a marked queue loses its mark (R942). -/
def queueRecovered (q : Fin 256) (s : State) : State :=
  commitMarker q mkRecovery (s.bell.number.toNat % 2 ^ 32) (modQueue q (fun x => { x with recMark := false }) s)

/-- A commit or release unit of queue q may run now: its owner holds the slot in progress of port q mod 4, and a tick of
it is left (R42, R46, R47, R238, R239). -/
def storeSlot (s : State) (q : Fin 256) : Bool :=
  let b := (s.slots.maps[(⟨1 + q.val % 4, by omega⟩ : Fin 18)])[s.bell.slot]
  !noEdge s && b.toNat == (queueOwner s q).val && ownerRuns s q &&
    s.bell.now + 1 ≤ s.bell.edgeAt + slotStart s.bell.len (s.bell.slot.val + 1)

/-- Moves n committed items into the consumer buffer; the slots are checked as they are read (R250, R277): one wrong bit is
corrected, more make the copy BAD. -/
def fillBuffer (q : Fin 256) (n : Nat) (wrong : List Nat) (s : State) : State :=
  let ue := fun i : Nat => 2 ≤ (wrong[i]?).getD 0
  let k := s.queues[q].buf
  let ces := ((wrong.take n).filter (· == 1)).length
  let ues := ((wrong.take n).filter (2 ≤ ·)).length
  let s := modQueue q (fun x => { x with
    items := x.items.zipIdx.map fun c =>
      if k ≤ c.2 && c.2 < k + n && ue (c.2 - k) then { c.1 with it := setBad c.1.it } else c.1,
    buf := x.buf + n, consFree := x.consFree - n }) s
  let s := { s with qstore := { s.qstore with
    ceCount := satAdd s.qstore.ceCount ces, ueCount := satAdd s.qstore.ueCount ues } }
  eachOf (List.range ues) (fun _ t => record evQstoreUe (queueOwner t q) (datTop q.val 0) t) s

end Sys2Proof.Machine
end

