-- ==== Sys2Proof/Machine/Rings.lean ====
section
/-! DEFINITION. Descriptor rings and tallies (08): write-backs, messages, completions forced by a flush, a fault or an
unbinding, abandonment at resets, and the flush of a queue with its ring. -/

namespace Sys2Proof.Machine

def codeOk : Byte := 0x00
def codeFlushed : Byte := 0x01
def codeInvalid : Byte := 0x02
def codeHostError : Byte := 0x03
def codePoisoned : Byte := 0x04
def codeFaulted : Byte := 0x05
def codeUnbound : Byte := 0x06

/-- Vectors that serve rings (R420). -/
def ringVector (f : Fin 33) (v : Nat) : Bool := if f.val = 0 then 3 ≤ v && v < 64 else 1 ≤ v && v < 8

/-- The ring's message (R421, R422): the count restarts at HOLDOFF. -/
def ringMessage (q : Fin 256) (s : State) : State :=
  let r := s.rings[q]
  let s := modRing q (fun r => { r with hoCount := r.holdoff.toNat, due := false }) s
  if ringVector r.fn r.vector.toNat then raiseVec r.fn r.vector.toNat s else s

/-- DONE_LEN of a descriptor (R400, R402, R931). -/
def doneLen (r : Ring) (t : Tally) (code : Byte) : Nat :=
  if code = codeInvalid then 0
  else if code = codeFaulted && r.h2d then t.whole
  else t.sent

/-- Bytes 16 to 31 of a descriptor (Table 08-6). -/
def writeBackBytes (r : Ring) (t : Tally) (code : Byte) (bell : BellNo) : List Byte :=
  let st := 0x8000 + (if t.lastSent then 0x4000 else 0) + (if r.resumed then 0x2000 else 0) + code.toNat
  leBytes 4 (doneLen r t code) ++ leBytes 2 st ++ [0, 0] ++ leBytes 6 bell.toNat ++ [0, 0]

/-- Address of descriptor i of the ring (R396). -/
def descAddr (r : Ring) (i : Nat) : Nat := r.base.toNat * 4096 + 32 * (i % 2 ^ r.sizeLog2.toNat)

/-- The function may send: the link is up, Bus Master Enable is set, it is not in D3hot, and a VF is bound (R393, R440). -/
def maySend (s : State) (f : Fin 33) : Bool :=
  s.host.rate.val != 0 && s.fns[f].busMaster && !s.fns[f].d3hot && (f.val == 0 || vfHolding s f != 0)

/-- The write-back of the oldest tally, whose code is decided: HEAD passes it, the tally returns to free and a descriptor
with IRQ raises the ring's vector (R400, R413, R417, R419, R422). -/
def writeBack (q : Fin 256) (t : Tally) (code : Byte) (s : State) : State :=
  let r := s.rings[q]
  let s := emit (.tlpWrite r.fn (BitVec.ofNat 64 (descAddr r r.head.toNat + 16))
    (writeBackBytes r t code s.bell.number)) s
  let s := modRing q (fun r => { r with head := r.head + 1, tallies := r.tallies.drop 1, resumed := false }) s
  let s := { s with host := { s.host with talliesFree := s.host.talliesFree + 1 } }
  let s := if code ≠ codeOk && r.holder.val ≠ 0 then
    modHolding r.holder (fun x => { x with dmaErrors := satAdd x.dmaErrors 1 }) s else s
  if !t.irq then s
  else if s.rings[q].hoCount = 0 then ringMessage q s
  else modRing q (fun r => { r with due := true }) s

/-- A code that a fault, a flush or an unbinding decided: its write-back needs no slot of the owner. -/
def forcedCode (c : Byte) : Bool := c == codeFlushed || c == codeFaulted || c == codeUnbound

/-- Write-backs of the oldest tallies whose codes were forced, in ring order, while the function may send. -/
def sendForced (q : Fin 256) : Nat → State → State
  | 0, s => s
  | n + 1, s =>
    match s.rings[q].tallies with
    | t :: _ =>
      match t.code with
      | some c => if forcedCode c && maySend s s.rings[q].fn then sendForced q n (writeBack q t c s) else s
      | none => s
    | [] => s

/-- The ring's descriptors in transfer have left a packet open in the queue. -/
def leftOpen (r : Ring) : Bool :=
  r.h2d && match (r.tallies.filter fun t => t.sent != 0 && t.code.isNone).getLast? with
    | some t => !t.lastSent
    | none => false

/-- Every issued tally of the ring that has not completed completes with the code. -/
def forceTallies (q : Fin 256) (code : Byte) (s : State) : State :=
  let s := if code = codeFaulted && leftOpen s.rings[q] then rewindPlace q s else s
  let s := modRing q (fun r => { r with
    tallies := r.tallies.map fun t => if t.code.isNone then { t with code := some code } else t }) s
  sendForced q 32 s

/-- A flush of a queue completes the descriptors in transfer (R437, R438). -/
def flushQueue (q : Fin 256) (s : State) : State := flushItems q (forceTallies q codeFlushed s)

/-- When a Holding faults, the issued tallies of its rings complete with FAULTED (R444). -/
def faultTallies (h : Fin 32) (s : State) : State :=
  eachFin 256 (fun q t => if t.rings[q].holder == h then forceTallies q codeFaulted t else t) s

/-- A DEVICE_FATAL fault completes every issued tally, while the link is up (R444). -/
def fatalTallies (s : State) : State :=
  if s.host.rate.val = 0 then s else eachFin 256 (fun q t => forceTallies q codeFaulted t) s

/-- The queue of a ring is unbound: issued tallies complete with UNBOUND, the ring is DISABLED (Table 08-5). -/
def unbindRing (q : Fin 256) (s : State) : State :=
  let s := forceTallies q codeUnbound s
  if s.rings[q].st == .active || s.rings[q].st == .draining then
    modRing q (fun r => { r with st := .disabled, enable := false, cache := [], asked := 0, due := false }) s
  else s

/-- QUEUE.UNBIND as it acts on one queue (R245, R293). -/
def unbindWhole (q : Fin 256) (edge : Nat) (s : State) : State := unbindQueue q edge (unbindRing q s)

/-- Items kept, of abandoned tallies (R452). -/
def itemsKept (r : Ring) : Nat := (r.tallies.map fun t => if r.h2d then t.whole / 8 else t.sent / 8).sum

/-- Issued tallies are abandoned without a write-back (R451); DMA_ABANDONED is posted for a Holding's ring (R452). -/
def abandonTallies (q : Fin 256) (event : Bool) (s : State) : State :=
  let r := s.rings[q]
  let n := r.tallies.length
  if n = 0 then s else
  let s := if leftOpen r then rewindPlace q s else s
  let s := modRing q (fun r => { r with
    tallies := [], abandoned := satAdd r.abandoned n, resumed := true, cache := [], asked := 0 }) s
  let s := { s with host := { s.host with
    talliesFree := s.host.talliesFree + n, abandoned := satAdd s.host.abandoned n } }
  if event && r.holder.val ≠ 0 then
    post evDmaAbandoned r.holder (datTop q.val (min n 255 * 2 ^ 32 + itemsKept r % 2 ^ 32)) s
  else s

/-- A ring is DISABLED by a reset of its function (Table 08-13): its tallies are abandoned and its registers take their
reset values. -/
def resetRing (q : Fin 256) (keepAbandoned : Bool) (s : State) : State :=
  let s := abandonTallies q true s
  modRing q (fun r => { Ring.reset with
    abandoned := if keepAbandoned then r.abandoned else 0, resumed := r.resumed, fn := r.fn, h2d := r.h2d,
    holder := r.holder }) s

/-- Entry to D3hot disables a function's rings and keeps their registers (Table 08-13). -/
def disableRing (q : Fin 256) (s : State) : State :=
  modRing q (fun r => { r with st := .disabled, enable := false, cause := 0, cache := [], asked := 0, due := false })
    (abandonTallies q true s)

/-- The ring enters ERROR (Table 08-5). -/
def ringError (q : Fin 256) (cause : BitVec 2) (s : State) : State :=
  let s := modRing q (fun r => { r with st := .error, enable := false, cause, asked := 0 }) s
  post evRingError (queueOwner s q) (datTop q.val cause.toNat) s

/-- The host endpoint of a queue, and whether the ring runs host to device (R394). -/
def hostEnd (x : Queue) : Option (Fin 33 × Bool) :=
  match endpoint x.producer, endpoint x.consumer with
  | some (.host f), _ => some (f, true)
  | _, some (.host f) => some (f, false)
  | _, _ => none

/-- The binding names the ring's function, direction and Holding. -/
def bindRing (q : Fin 256) (s : State) : State :=
  match hostEnd s.queues[q] with
  | none => s
  | some (f, d) =>
    modRing q (fun r => { r with fn := f, h2d := d, holder := if f.val = 0 then 0 else queueOwner s q }) s

end Sys2Proof.Machine
end

