-- ==== Sys2Proof/Machine/Contain.lean ====
section
/-! DEFINITION. What moves a Holding besides its own actions (06, 19): changes of state, the ends of pending actions,
freezes, snapshots, restores and loads, islands and their regulators, entering CLEARING, CONTAINED faults and
DEVICE_FATAL. -/

namespace Sys2Proof.Machine

/-- The bits [47:32] of a bell number. -/
def bellHigh (b : BellNo) : Nat := b.toNat / 2 ^ 32

/-- R303: a Hedge is OPEN while both its Plots belong to one Holding that is not EMPTY or CLEARING. -/
def hedgeOpen (s : State) (e : Fin 112) : Bool :=
  let h := s.plots[(hedgePlots e).1].owner
  h.val != 0 && s.plots[(hedgePlots e).2].owner == h && s.holdings[h].st != .empty && s.holdings[h].st != .clearing

/-- Hedges open or seal as their Holdings change state; a Hedge that is sealed is sealed at rest (R304, R305). -/
def refreshHedges (s : State) : State :=
  { s with hedges := Vector.ofFn fun e : Fin 112 =>
      let x := s.hedges[e]
      let o := hedgeOpen s e
      if o == x.isOpen then x
      else if o then { x with isOpen := true } else { isOpen := false, sealHolds := true, atRest := true } }

/-- A change of state, with its record, event and STATE_BELL (R292). -/
def setState (h : Fin 32) (st : HState) (s : State) : State :=
  let old := s.holdings[h].st
  let s := refreshHedges (modHolding h (fun x => { x with st, stateBell := s.bell.number }) s)
  post evStateChange h
    (datTop h.val (hstateNum st * 2 ^ 32 + hstateNum old * 2 ^ 24 + bellHigh s.bell.number)) s

/-! Islands (R308 to R315, R1006). -/

/-- A ramp toward a target from the voltage present; one that begins cancels a trim step (R310, R325, R820). -/
def rampPlot (p : Fin 64) (mv : Nat) (s : State) : State :=
  modPlot p (fun x =>
    if x.target = mv then x
    else if x.regOn then
      { x with
        target := mv, ramping := true, settling := false
        passWait := if x.passWait = .none then .none else .settle }
    else { x with target := mv }) s

def rampHolding (h : Fin 32) (mv : Nat) (s : State) : State := eachOf (ownedPlots s h) (rampPlot · mv) s

/-- The ramp of a load or a wake: each island that it moves completes a pass after settling (R312, R314). -/
def rampAwaited (h : Fin 32) (mv : Nat) (s : State) : State :=
  eachOf (ownedPlots s h) (fun p t => rampPlot p mv (modPlot p (fun x =>
    if x.regOn && x.target != mv then { x with passWait := .settle } else x) t)) s

/-- No pass of R312 or R314 is missing in the Plots of the Holding. -/
def passesMade (s : State) (h : Fin 32) : Bool := (ownedPlots s h).all fun p => s.plots[p].passWait == .none

def suppliesForPlots (s : State) : Bool := s.pins.vgran && s.pins.vinIvr

/-- The temperature code at or below which a tripped regulator restarts (R990): the grade maximum less 10 °C. -/
def restartTemp : Nat := if Config.gradeE then 1312 else 1232

/-- A regulator starts: its island is brought to 800 mV, and CALIBRATED waits for the first pass (R34, R160, R1006). -/
def startRegulator (p : Fin 64) (s : State) : State :=
  modPlot p (fun x => { x with
    regOn := true, overcur := false, undervolt := false, tripped := false, tripWait := false, target := 800,
    ramping := true, settling := false, calibrated := false }) s

/-- A clear calls for the Plot to be brought to 800 mV; after a thermal trip it waits for the temperature (R1006, R990). -/
def callForRestart (p : Fin 64) (s : State) : State :=
  let x := s.plots[p]
  if x.regOn then rampPlot p 800 s
  else if !suppliesForPlots s then s
  else if x.tripped && restartTemp < x.temp.toNat then modPlot p (fun x => { x with tripWait := true }) s
  else startRegulator p s

/-- Turning a regulator off (R160, R328, R989). -/
def stopRegulator (p : Fin 64) (s : State) : State :=
  modPlot p (fun x => { x with
    regOn := false, ramping := false, settling := false, calibrated := false, calRunning := false, calDue := false,
    passWait := .none, voltMv := 0 }) s

/-! The ends of what a Holding has under way. -/

def busyAnswer (rq : Option Req) (s : State) : State := invokeDone rq stBusy (bellNow s) s

/-- The forcing of Granary maps ends (R43, R361, R771). -/
def unforce (h : Fin 32) (s : State) : State :=
  eachOf (ownedPlots s h) (fun p t => modPlot p (fun x => { x with forced := false, ownAt := t.bell.now }) t) s

/-- A snapshot ends (R361, R375, R379). -/
def endSnapshot (st : SnapState) (code : Byte) (s : State) : State :=
  match s.snap.job with
  | none => s
  | some j =>
    let s := { s with
      snap := { s.snap with job := none },
      boot := { s.boot with waiting := s.boot.waiting.filter (· != .snapshot j.h) } }
    let s := modHolding j.h (fun x => { x with
      snap := st, snapResult := code.setWidth 16, pend := x.pend.filter fun t => t.kind != .snapshot }) s
    invokeDone j.rq code (bellNow s) (unforce j.h s)

/-- A restore ends (R365, R370, R375, R379, R380); losses that still pend enter their queues' GAP markers. -/
def endRestore (st : SnapState) (code : Byte) (s : State) : State :=
  match s.snap.restore with
  | none => s
  | some j =>
    let s := { s with snap := { s.snap with restore := none } }
    let s := eachOf j.losses (fun l t => gapCount (Fin.ofNat 256 l.1) l.2 t) s
    let s := modHolding j.h (fun x => { x with
      snap := st, snapResult := code.setWidth 16, pend := x.pend.filter fun t => t.kind != .restore }) s
    invokeDone j.rq code (bellNow s) (unforce j.h s)

/-- A fault or a clear ends the Holding's snapshot or restore (R375); the status that it completes with is not stated:
assumption 9. -/
def cutJobs (h : Fin 32) (s : State) : State :=
  let s := if s.snap.job.any (·.h == h) then endSnapshot .failed (Config.endStatus s.fresh) (draw s) else s
  match s.snap.restore with
  | some j => if j.h == h then
      endRestore (if j.taken = 0 then .failed else .restoreFailed) (Config.endStatus s.fresh) (draw s) else s
  | none => s

/-- Pending doze, wake and freeze complete with BUSY (R1007). -/
def cutFreezes (h : Fin 32) (s : State) : State :=
  let x := s.holdings[h]
  let s := modHolding h (fun x => { x with
    freezeRq := none, dozeRq := none, wakeRq := none, dozing := false, waking := false, wakeReady := none,
    freeze := if x.freeze = .attempt then .none else x.freeze }) s
  busyAnswer x.wakeRq (busyAnswer x.dozeRq (busyAnswer x.freezeRq s))

/-- A pending START, QUIESCE or RESUME is cancelled (R322). -/
def cancelled (h : Fin 32) (t : Trans) (s : State) : State :=
  match t.kind with
  | .start | .quiesce | .resume => post evTransitionCancelled h (datTop h.val (t.bell.toNat % 2 ^ 32)) s
  | _ => s

def isCancelled (t : Trans) : Bool := t.kind == .start || t.kind == .quiesce || t.kind == .resume

def cancelTransitions (h : Fin 32) (s : State) : State :=
  let l := s.holdings[h].pend
  eachOf l (cancelled h) (modHolding h (fun x => { x with pend := l.filter fun t => !isCancelled t }) s)

/-- What else waited for an edge is dropped; a response still owed is BUSY. RESET and CLEAR stay to act. -/
def dropPending (keepClears : Bool) (h : Fin 32) (s : State) : State :=
  let l := s.holdings[h].pend
  let stays := fun t : Trans => keepClears && (t.kind == .reset || t.kind == .clear)
  eachOf (l.filter fun t => !stays t) (fun t s => busyAnswer t.rq s)
    (modHolding h (fun x => { x with pend := l.filter stays }) s)

/-! CLEARING (R293, R294, R326). -/

def nameFree (h : Fin 32) (m : Vector Byte 16) : Vector Byte 16 := m.map fun b => if b.toNat = h.val then 0xFF else b

/-- Clearing of one Plot begins: its island goes to 800 mV and its contents are zeroed until PLOT_CLEAR_DONE (R219). -/
def clearPlot (p : Fin 64) (s : State) : State :=
  callForRestart p (modPlot p (fun x => { x with clearing := true, clearRetry := false, calDue := false, passWait := .none }) s)

/-- Window requests that wait at a bank are answered with zero bytes or discarded (R206); `ep` when VGRAN failed. -/
def answerWaiting (ep : Bool) (p : Fin 64) (s : State) : State :=
  let l := s.banks[p].win
  let s := modBank p (fun b => { b with win := [] }) s
  let s := if l.isEmpty || ep then s else limited evWindowMiss s.plots[p].owner.val l.length s
  eachOf l (fun o t => if o.isWrite then t else emit (.windowCpl o.vf (List.replicate o.len 0) ep) t) s

/-- The Holding enters CLEARING. -/
def enterClearing (h : Fin 32) (s : State) : State :=
  let s := cutJobs h (dropPending false h (cutFreezes h s))
  let s := modHolding h (fun x => { x with freeze := .none, clearUnbind := some (s.bell.edges + 1) }) s
  let s := setState h .clearing s
  let s := storeEpoch h (modHolding h (fun x => { x with credEpoch := x.credEpoch + 1 }) s)
  let s := closeSessions (fun x => x.role == .tenant h) crEpoch s
  let s := { s with slots := { s.slots with
    pend := s.slots.pend.map fun w => { w with map := nameFree h w.map } } }
  let s := record evSlotReleased h (datTop h.val 0) s
  eachOf (ownedPlots s h) (fun p t => clearPlot p (answerWaiting false p t)) s

/-- The queues of an ended load that it bound are unbound again (R775). -/
def unbindDeclared (h : Fin 32) (s : State) : State :=
  eachOf (ownedQueues s h) (fun q t =>
    if t.queues[q].decl.isSome then unbindWhole q (t.bell.edges + 1) t else t) s

/-- A load that has applied no configuration leaves its Holding EMPTY, at 800 mV (R315, R775). -/
def backToEmpty (h : Fin 32) (s : State) : State :=
  let s := eachOf (ownedPlots s h) (fun p t => modPlot p (fun x => { x with passWait := .none }) t) s
  setState h .empty (unbindDeclared h (unforce h (rampHolding h 800 s)))

/-- A load fails (R775, R783). -/
def failLoad (code : Byte) (toClearing : Bool) (s : State) : State :=
  match s.load with
  | none => s
  | some l =>
    let s := modHolding l.h (fun x => { x with loadResult := code.setWidth 16 }) { s with load := none }
    let s := record evLoadFail l.h (datS l.h.val code s.holdings[l.h].loadBytes.toNat) s
    let s := invokeDone l.rq code (bellNow s) s
    let s := eachOf l.chunks (fun c t => respond c.1 opWrite stBusy 8 (bellNow t) [] t) s
    let s := eachOf (ownedPlots s l.h) (fun p t => modBank p (fun b => { b with sys := [] }) t) s
    if !l.begun then modHolding l.h (fun x => { x with pend := x.pend.filter fun t => t.kind != .load }) s
    else if toClearing || l.configured then enterClearing l.h (unforce l.h s)
    else backToEmpty l.h s

/-! CONTAINED faults (R291, R328, R330, R375, R916, R1007, R1008). -/

def faultHolding (h : Fin 32) (cause : FaultCause) (s : State) : State :=
  if h.val = 0 then s else
  match s.holdings[h].st with
  | .empty | .clearing | .faulted => s
  | .loading => failLoad stAborted true s
  | .ready | .running | .quiesced | .dozing =>
    let s := cutJobs h (dropPending true h (cutFreezes h (cancelTransitions h s)))
    let s := faultTallies h s
    let s := modHolding h (fun x => { x with cause }) s
    let s := setState h .faulted s
    rampHolding h s.holdings[h].voltage.toNat s

/-- An UNFIT Plot faults its owner (R156, R137). -/
def setUnfit (p : Fin 64) (s : State) : State :=
  faultHolding s.plots[p].owner .plotUnfit (modPlot p (fun x => { x with unfit := true }) s)

/-! DEVICE_FATAL (R919 to R922, R938). -/

def hasRebuild : FatalCause → Bool
  | .slotAudit | .tallyAudit | .creditAudit | .bellSlotAudit | .commonsRoute | .hsTimeout | .coreLost => true
  | .timebaseLost | .linkLost | .fatalAer | .vgranLost => false

/-- A RUNNING Holding is quiesced by a DEVICE_FATAL fault (R290, R921). -/
def fatalQuiesce (h : Fin 32) (s : State) : State :=
  if h.val ≠ 0 && s.holdings[h].st == .running then setState h .quiesced s else s

/-- What a DEVICE_FATAL fault does to one Holding at once. -/
def fatalHolding (h : Fin 32) (s : State) : State :=
  if h.val = 0 then s else
  let s := cutJobs h (cancelTransitions h s)
  if s.holdings[h].st == .loading then failLoad stAborted true s else s

/-- One DEVICE_FATAL fault of one or more causes. -/
def deviceFatal (causes : List FatalCause) (s : State) : State :=
  match causes with
  | [] => s
  | c :: _ =>
    let first := s.dev.faults = 0
    let new := causes.map fun c => (⟨c, !hasRebuild c⟩ : Cause)
    let s := { s with dev := { s.dev with
      fatal := true, faults := s.dev.faults + 1,
      code := if first then BitVec.ofNat 16 (causeCode c) else s.dev.code,
      bell := if first then s.bell.number else s.dev.bell,
      causes := s.dev.causes ++ new, quiesceAt := some (s.bell.edges + 1) } }
    let s := record evDeviceFatal 0 (datTop 0 (causeCode c)) s
    let s := raiseVec 0 2 s
    let s := if c = .fatalAer then s else emit (.aer 0 (causeCode c)) s
    let s := fatalTallies s
    let s := eachFin 32 fatalHolding s
    let s := { s with test := { s.test with slice := s.test.slice.map fun x => { x with abandon := true } } }
    if causes.contains .timebaseLost then
      eachFin 32 fatalQuiesce { s with dev := { s.dev with quiesceAt := none } }
    else s

/-- A request is refused with RECOVERY while DEVICE_FATAL is set (R927). -/
def recoveryRefusal (s : State) : Option Byte := if s.dev.fatal then some stRecovery else none

/-- A cause of one of the kinds is pending. -/
def causePending (s : State) (l : List FatalCause) : Bool := s.dev.causes.any fun c => l.contains c.c

end Sys2Proof.Machine
end

