-- ==== Sys2Proof/Machine/Fabric.lean ====
section
/-! DEFINITION. The fabric (03): Querns and calibration, the cadence budget, and the FABRIC actions. -/

namespace Sys2Proof.Machine

/-- Controllers of the Plot run: its Holding is RUNNING, or QUIESCED without a cut or forced stop (Table 06-2, R335,
R346). -/
def fabricRuns (s : State) (p : Fin 64) : Bool :=
  let h := s.plots[p].owner
  let x := s.holdings[h]
  h.val != 0 && (x.st == .running || x.st == .quiesced) && x.freeze != .cut && x.freeze != .forced

/-! Querns. -/

def modQuern (p : Fin 64) (n : Fin 16) (f : Quern → Quern) (s : State) : State :=
  modPlot p (fun x => { x with querns := upd x.querns n f }) s

/-- Z items, then one F item (R124). -/
def quernEmit (p : Fin 64) (n : Fin 16) (zs : List Word) (f : QFlags) (s : State) : State :=
  modQuern p n (fun q => { q with out := q.out ++ zs.map .z ++ [.f (qFlags f)] }) s

/-- A residue mismatch suppresses the result and faults the owner (R158). -/
def quernResidue (p : Fin 64) (n : Fin 16) (s : State) : State :=
  let h := s.plots[p].owner
  faultHolding h .quernResidue (record evQuernResidue h (datTop p.val n.val) s)

/-- An operation executes when the Plot's controllers run. -/
def quernOp (p : Fin 64) (f : State → State) (s : State) : State := if fabricRuns s p then f s else s

/-- A product leaves low word first (R125). -/
def prodItems (x : BitVec 96) : List Word := [x.extractLsb' 0 48, x.extractLsb' 48 48]

/-- ACC as it leaves (R126). -/
def accItems (acc : BitVec 104) : List Word :=
  [acc.extractLsb' 0 48, acc.extractLsb' 48 48, (acc.extractLsb' 96 8).signExtend 48]

/-- A product of one of the five product operations, as the Quern computed it, checked against its residue (R131). -/
def withProduct (p : Fin 64) (n : Fin 16) (ok : Bool) (f : State → State) (s : State) : State :=
  quernOp p (fun s => if ok then f s else quernResidue p n s) s

def quernMul (p : Fin 64) (n : Fin 16) (ok : Bool) (x : BitVec 96) (s : State) : State :=
  withProduct p n ok (quernEmit p n (prodItems x) { zero := x == 0 }) s

/-- ACC takes a signed amount (R127). -/
def quernAcc (p : Fin 64) (n : Fin 16) (ok : Bool) (x : Int) (v : BitVec 104 → Bool) (s : State) : State :=
  withProduct p n ok (fun s =>
    let acc := s.plots[p].querns[n].acc
    let acc' := acc + BitVec.ofInt 104 x
    quernEmit p n [] (accFlags acc' (v acc)) (modQuern p n (fun q => { q with acc := acc' }) s)) s

def execMulU (p : Fin 64) (n : Fin 16) (a b : Word) (upset : BitVec 96) (s : State) : Res :=
  let x := prodU a b ^^^ upset
  .next (quernMul p n (residueOkU a b x) x s)

def execMulS (p : Fin 64) (n : Fin 16) (a b : Word) (upset : BitVec 96) (s : State) : Res :=
  let x := prodS a b ^^^ upset
  .next (quernMul p n (residueOkS a b x) x s)

def execMacU (p : Fin 64) (n : Fin 16) (a b : Word) (upset : BitVec 96) (s : State) : Res :=
  let x := prodU a b ^^^ upset
  .next (quernAcc p n (residueOkU a b x) x.toNat (accCarry · x.toNat) s)

def execMacS (p : Fin 64) (n : Fin 16) (a b : Word) (upset : BitVec 96) (s : State) : Res :=
  let x := prodS a b ^^^ upset
  .next (quernAcc p n (residueOkS a b x) x.toInt (accOverflowS · x.toInt) s)

def execMsuS (p : Fin 64) (n : Fin 16) (a b : Word) (upset : BitVec 96) (s : State) : Res :=
  let x := prodS a b ^^^ upset
  .next (quernAcc p n (residueOkS a b x) (-x.toInt) (accOverflowS · (-x.toInt)) s)

/-- The flags of an operation that reads or clears ACC: ZERO of what it emits or leaves. -/
def zeroFlag (z : Bool) : QFlags := { zero := z }

def execAccRead (p : Fin 64) (n : Fin 16) (s : State) : Res :=
  .next (quernOp p (fun s =>
    let acc := s.plots[p].querns[n].acc
    quernEmit p n (accItems acc) (zeroFlag (acc == 0)) s) s)

def execAccClear (p : Fin 64) (n : Fin 16) (s : State) : Res :=
  .next (quernOp p (fun s => quernEmit p n [] (zeroFlag true) (modQuern p n (fun q => { q with acc := 0 }) s)) s)

def execAccReadClear (p : Fin 64) (n : Fin 16) (s : State) : Res :=
  .next (quernOp p (fun s =>
    let acc := s.plots[p].querns[n].acc
    quernEmit p n (accItems acc) (zeroFlag (acc == 0)) (modQuern p n (fun q => { q with acc := 0 }) s)) s)

def execAdd (p : Fin 64) (n : Fin 16) (a b : Word) (s : State) : Res :=
  .next (quernOp p (quernEmit p n [a + b] (addFlags a b)) s)

def execSub (p : Fin 64) (n : Fin 16) (a b : Word) (s : State) : Res :=
  .next (quernOp p (quernEmit p n [a - b] (subFlags a b)) s)

def execCmp (p : Fin 64) (n : Fin 16) (a b : Word) (s : State) : Res :=
  .next (quernOp p (quernEmit p n [] (cmpFlags a b)) s)

def execShl (p : Fin 64) (n : Fin 16) (a b : Word) (s : State) : Res :=
  .next (quernOp p (quernEmit p n [shlZ a b] (shiftFlags (shlZ a b) (shiftOut a (shAmt b) true false))) s)

def execShrL (p : Fin 64) (n : Fin 16) (a b : Word) (s : State) : Res :=
  .next (quernOp p (quernEmit p n [shrLZ a b] (shiftFlags (shrLZ a b) (shiftOut a (shAmt b) false false))) s)

def execShrA (p : Fin 64) (n : Fin 16) (a b : Word) (s : State) : Res :=
  .next (quernOp p (quernEmit p n [shrAZ a b]
    (shiftFlags (shrAZ a b) (shiftOut a (shAmt b) false (a.getLsbD 47)))) s)

def execGfmul (p : Fin 64) (n : Fin 16) (a b : Word) (s : State) : Res :=
  .next (quernOp p (fun s =>
    let z := gfmulZ s.plots[p].querns[n].gfpoly a b
    quernEmit p n [z] (zeroFlag (z == 0)) s) s)

/-- A reserved OP is consumed: the ILLEGAL flag alone (Table 03-7). -/
def execQuernReservedOp (p : Fin 64) (n : Fin 16) (s : State) : Res :=
  .next (quernOp p (quernEmit p n [] { illegal := true }) s)

/-! The cadence budget (R135 to R141). -/

/-- R136. -/
def budgetLoadOf (units cycle n : Nat) : Nat := 1000 * units * cycle / (16 * windowPs n)

def budgetData (h : Fin 32) (st : BudgetState) (load : Nat) : Word :=
  datTop h.val (budgetNum st * 2 ^ 16 + load % 2 ^ 16)

/-- BUDGET_LOAD moves to a new value: the events of a rise and of a fall (R138, R139). -/
def budgetMove (h : Fin 32) (load : Nat) (s : State) : State :=
  let x := s.holdings[h]
  let s := modHolding h (fun x => { x with budgetLoad := BitVec.ofNat 16 (min load 0xFFFF) }) s
  let move := fun (b : BudgetState) (e : Ev) (s : State) =>
    post e h (budgetData h b (min load 0xFFFF)) (modHolding h (fun x => { x with budget := b }) s)
  match x.budget with
  | .ok => if 1000 ≤ load then move .overBudget evCadenceOver s else if 900 ≤ load then move .warn evCadenceWarn s else s
  | .warn => if 1000 ≤ load then move .overBudget evCadenceOver s else if load < 880 then move .ok evCadenceOk s else s
  | .overBudget =>
    if load < 880 then move .ok evCadenceOk s else if load < 980 then move .warn evCadenceOk s else s

/-- CYCLE_PS is the slowest Plot's (R137); the load is evaluated unless the Holding has no units (R141). -/
def budgetEval (h : Fin 32) (s : State) : State :=
  if h.val = 0 then s else
  let cycle := ((ownedPlots s h).map fun p => s.plots[p].cyclePs.toNat).foldl max 0
  let s := modHolding h (fun x => { x with cyclePs := BitVec.ofNat 16 cycle }) s
  let u := s.holdings[h].budgetUnits.toNat
  if u = 0 then modHolding h (fun x => { x with budgetLoad := 0, budget := .ok }) s
  else budgetMove h (budgetLoadOf u cycle s.bell.period.toNat) s

/-- The units are set at load completion, as a rise from 0 (R136, R774). -/
def budgetSet (h : Fin 32) (units : BitVec 32) (s : State) : State :=
  budgetEval h (modHolding h (fun x => { x with budgetUnits := units, budgetLoad := 0, budget := .ok }) s)

/-! Calibration (R115 to R120, R154, R155, R160). -/

/-- A Plot is calibrated while its regulator is on, outside DOZING unless it wakes (R120). -/
def canCalibrate (s : State) (p : Fin 64) : Bool :=
  let x := s.plots[p]
  let h := s.holdings[x.owner]
  gleanerRuns s && x.regOn && !x.ramping && !(x.owner.val != 0 && h.st == .dozing && !h.waking)

/-- A pass starts; it is the one that a load or a wake waits for once the island has settled (R312, R314). -/
def startPass (x : Plot) : Plot :=
  { x with calRunning := true, passWait := if x.passWait = .start then .running else x.passWait }

/-- A pass starts (R116). -/
def execCalibrationPassStart (p : Fin 64) (s : State) : Res :=
  .next (if canCalibrate s p then modPlot p (fun x => { startPass x with calDue := false }) s else s)

/-- A pass moves the trim by at most 2 % of delay, four steps of 0.5 % (R118). -/
def trimMove (want : Int) : Int := if want < -4 then -4 else if 4 < want then 4 else want

/-- The two chains differ by more than 6 % (R155). -/
def chainsDiffer (a b : Nat) : Bool := decide (6 * min a b < 100 * (max a b - min a b))

def calUnfit (p : Fin 64) (e : Ev) (s : State) : State :=
  setUnfit p (record e s.plots[p].owner (datTop p.val 0) s)

/-- The last pass that a load or a wake of the Holding waits for has been completed: the load becomes READY at the first edge
allowed (R312, R774), the wake at the first edge 16 ticks later (R314). -/
def passesDone (h : Fin 32) (s : State) : State :=
  if h.val = 0 || !passesMade s h then s else
  let y := s.holdings[h]
  let s := if y.waking && y.wakeReady.isNone then
    modHolding h (fun y => { y with wakeReady := some s.bell.now }) s else s
  match s.load with
  | some l =>
    if l.waits && l.h == h then
      let e := max l.readyEdge (s.bell.edges + 1)
      { modHolding h (fun y => { y with pend := y.pend ++ [⟨.loadDone, e, bellAt s (e - s.bell.edges), none⟩] }) s with
        load := some { l with waits := false } }
    else s
  | none => s

/-- A pass ends with the two chains measured. -/
def passEnd (p : Fin 64) (c0 c1 : Nat) (s : State) : State :=
  let x := s.plots[p]
  let want := Config.trimWant s.fresh
  let next : Int := x.calTrim.toNat + trimMove want
  let atLimit : Bool := next < 0 || 255 < next
  let trim : Nat := if next < 0 then 0 else if 255 < next then 255 else next.toNat
  let s := modPlot p (fun x => { x with
    cyclePs := BitVec.ofNat 16 (max c0 c1), calTrim := BitVec.ofNat 8 trim, calCount := satAdd x.calCount 1,
    calibrated := true, calRunning := false, lastCalTemp := x.temp, limit := x.limit || atLimit,
    calDue := x.calDue || (!atLimit && want != trimMove want)
    passWait := if x.passWait = .running then .none else x.passWait }) (draw s)
  let s := if atLimit then calUnfit p evCalLimit s else s
  let s := if chainsDiffer c0 c1 then calUnfit p evCalFail s else s
  let h := s.plots[p].owner
  let s := budgetEval h s
  passesDone h s

def execCalibrationPassEnd (p : Fin 64) (chain0 chain1 : BitVec 16) (s : State) : Res :=
  .next (if s.plots[p].calRunning then passEnd p chain0.toNat chain1.toNat s else s)

/-- A channel of the croft whose input the line delays is at rest: none of its controllers presents or holds a datum. Lines
are numbered 2 · croft + input for crofts, then the ports of Querns, Bins and Commons, which rest between accesses. -/
def lineAtRest (s : State) (p : Fin 64) (line : Nat) : Bool :=
  !(s.plots[p].chans.any fun c => c.owner / 64 == line / 2 && line < 1024)

/-- A delay line takes the Plot's trim (R119); 256 marks a line that has taken one. -/
def execDelayTrimApply (p : Fin 64) (line : Nat) (s : State) : Res :=
  .next (if lineAtRest s p line then
    modPlot p (fun x => { x with lineTrim := memSet x.lineTrim line (256#9 + x.calTrim.setWidth 9) }) s else s)

/-! FABRIC actions (Table 03-10). -/

/-- FABRIC.CALIBRATE starts a pass in every powered Plot that is not dozing. -/
def execFabricCalibrate (rq : Req) (s : State) : Res :=
  .next (invokeReq rq 0x1200 1 true (fun _ _ => none) (fun _ s =>
    (eachFin 64 (fun p t => if canCalibrate t p then modPlot p startPass t else t) s,
      some (stOk, bellNow s))) s)

/-- UNFIT and LIMIT clear on an unowned Plot; one whose regulator is off is first brought to 800 mV, calibrated and, after a
fault in clearing, cleared (R157, R990, R1006). -/
def clearUnfit (p : Fin 64) (s : State) : State :=
  let x := s.plots[p]
  if x.owner.val ≠ 0 then s
  else if x.regOn then
    if x.restart then modPlot p (fun x => { x with limit := false }) s
    else modPlot p (fun x => { x with unfit := false, limit := false }) s
  else
    callForRestart p (modPlot p (fun x => { x with limit := false, clearing := true, restart := true }) s)

def execFabricUnfitClear (rq : Req) (s : State) : Res :=
  .next (invokeReq rq 0x1200 2 true (fun _ _ => none) (fun _ s =>
    (eachFin 64 clearUnfit s, some (stOk, bellNow s))) s)

end Sys2Proof.Machine
end

