-- ==== Sys2Proof/Machine/Controllers.lean ====
section
/-! DEFINITION. Handshake controllers (R94 to R111, R146, R335): a croft's cell or word stage takes the data offered on the
inputs it uses, holds the result, presents it and acknowledges. Configuration words as Tables 15-4, 03-11 and 03-12. -/

namespace Sys2Proof.Machine

/-- A configuration address: region, element index, word. -/
def cfgAddr (region idx w : Nat) : Nat := region * 2 ^ 20 + idx * 32 + w

/-- A configuration word as its check code delivers it. -/
def cfgWord (x : Plot) (region idx w : Nat) : Word := (secRead (memGet x.config (cfgAddr region idx w))).data

def cfgField (x : Plot) (c w lo len : Nat) : Nat := (cfgWord x 0 c w).toNat / 2 ^ lo % 2 ^ len

def crWord (x : Plot) (c : Nat) : Bool := cfgField x c 16 0 1 == 1
def crKind (x : Plot) (c : Nat) : Nat := cfgField x c 16 1 3
def crCarry (x : Plot) (c : Nat) : Bool := cfgField x c 16 4 1 == 1
def crTwoPhase (x : Plot) (c : Nat) : Bool := cfgField x c 16 5 1 == 1
def crReceivers (x : Plot) (c : Nat) : Nat := cfgField x c 16 6 2
def aSel (x : Plot) (c : Nat) : Nat := cfgField x c 19 0 6
def bSel (x : Plot) (c : Nat) : Nat := cfgField x c 19 6 6
def kSel (x : Plot) (c : Nat) : Nat := cfgField x c 19 12 7
def cinSel (x : Plot) (c : Nat) : Nat := cfgField x c 20 12 7

/-- The truth table of cell i of croft c. -/
def truthTable (x : Plot) (c i : Nat) : Nat := cfgField x c (i / 3) (16 * (i % 3)) 16

/-- DR_OUT of outgoing dual-rail track t towards side d. -/
def drOut (x : Plot) (c d t : Nat) : Nat :=
  let n := 24 * d + t
  cfgField x c (21 + n / 16) (3 * (n % 16)) 3

/-- IN_SRC of input j of cell i. -/
def inSrc (x : Plot) (c i j : Nat) : Bool :=
  let n := 4 * i + j
  cfgField x c (27 + n / 48) (n % 48) 1 == 1

/-- The croft `dist` steps from croft c on side d, none beyond the Plot's edge. -/
def croftAt (c d dist : Nat) : Option Nat :=
  let col := c % 16
  let row := c / 16
  if d = 0 then if row + dist < 32 then some (c + 16 * dist) else none
  else if d = 1 then if col + dist < 16 then some (c + dist) else none
  else if d = 2 then if dist ≤ row then some (c - 16 * dist) else none
  else if dist ≤ col then some (c - dist) else none

/-- The croft that drives a long track: the lowest index whose Z_LONG bit is set, in the column or row (R111). -/
def longDriver (x : Plot) (c k : Nat) : Option Nat :=
  let line := if k < 8 then (List.range 32).map fun r => 16 * r + c % 16
    else (List.range 16).map fun j => c / 16 * 16 + j
  line.find? fun c' => crWord x c' && cfgField x c' 20 k 1 == 1

/-- Where a word input select of croft c leads: a croft of the Plot and the track code by which it drives the input. -/
def wordDriver (x : Plot) (c sel : Nat) : Option (Nat × Nat) :=
  let drives := fun (o : Option Nat) (bit : Nat) =>
    o.bind fun c' => if crWord x c' && cfgField x c' 19 bit 1 == 1 then some (c', bit) else none
  if 1 ≤ sel ∧ sel ≤ 16 then
    let d := (sel - 1) / 4
    let t := (sel - 1) % 4
    drives (croftAt c d 1) (20 + 4 * ((d + 2) % 4) + t)
  else if 17 ≤ sel ∧ sel ≤ 24 then
    let d := (sel - 17) / 2
    let t := (sel - 17) % 2
    drives (croftAt c d 4) (36 + 2 * ((d + 2) % 4) + t)
  else if 25 ≤ sel ∧ sel ≤ 36 then (longDriver x c (sel - 25)).map fun c' => (c', 64 + sel - 25)
  else none

/-- A datum that an input is offered: its value, the channel that offers it (none when it comes from outside the crofts),
and whether that channel runs two-phase. -/
structure Offer where
  data : Word
  src : Option Nat
  two : Bool
deriving DecidableEq, Repr

/-- The channel of a key, when it is presented and the receiver has not taken it. -/
def chanOffer (x : Plot) (key me : Nat) (track : Option Nat) (two : Bool) : Option Offer :=
  (x.chans.find? fun ch => ch.owner == key && ch.shown && !ch.acked.contains me &&
    (match track with
      | some t => crKind x (key / 64) != 3 || Config.selectTrack t == ch.port
      | none => true)).map fun ch => ⟨ch.data, some key, two⟩

/-- The look-up tables of a croft on its inputs. -/
def lutWord (x : Plot) (c : Nat) (a b carry : Nat) (k : Bool) : Word :=
  BitVec.ofNat 48 (ofBits ((List.range 48).map fun i =>
    natBit (truthTable x c i) (8 * b2n k + 4 * b2n (natBit carry i) + 2 * b2n (natBit b i) + b2n (natBit a i))))

/-- The carry chain: bit i of the result is C[i], bit 48 the carry out (R100). -/
def carryChain (a b : Nat) (cin : Bool) : Nat :=
  ofBits (((List.range 48).foldl (fun (l, c) i =>
    let m := (natBit a i && natBit b i) || (natBit a i && c) || (natBit b i && c)
    (l ++ [m], m)) ([cin], cin)).1)

/-- What a word input of croft c is offered; TRANSPARENT crofts pass the datum on (Table 03-1). -/
def wordOffer (x : Plot) (ext : Option Word) (me : Nat) : Nat → Nat → Nat → Option Offer
  | 0, _, _ => none
  | fuel + 1, c, sel =>
    if sel = 0 then none else
    match wordDriver x c sel with
    | none => ext.map fun d => ⟨d, none, false⟩
    | some (c', t) =>
      if crKind x c' = 4 then
        (wordOffer x ext me fuel c' (aSel x c')).bind fun oa =>
          let b := if bSel x c' = 0 then some 0 else (wordOffer x ext me fuel c' (bSel x c')).map (·.data)
          b.map fun b => { oa with data := lutWord x c' oa.data.toNat b.toNat 0 false }
      else chanOffer x (64 * c') me (some t) (crTwoPhase x c')

/-- What arrives on dual-rail track t on side d of croft c: the neighbour's DR_OUT, followed through crofts that pass it on,
to a cell, a carry-out or the Plot's edge (R110, R111). -/
def bitOffer (x : Plot) (bits : List (Nat × Bool)) (me : Nat) : Nat → Nat → Nat → Nat → Option Offer
  | 0, _, _, _ => none
  | fuel + 1, c, d, t =>
    match croftAt c d 1 with
    | none => (bits.find? fun b => b.1 == 96 * c + 24 * d + t).map fun b => ⟨BitVec.ofNat 48 (b2n b.2), none, false⟩
    | some c' =>
      let out := (d + 2) % 4
      match drOut x c' out t with
      | 1 => bitOffer x bits me fuel c' ((out + 2) % 4) t
      | 2 => bitOffer x bits me fuel c' ((out + 1) % 4) t
      | 3 => bitOffer x bits me fuel c' ((out + 3) % 4) t
      | 4 => chanOffer x (64 * c' + t) me none false
      | 5 => chanOffer x (64 * c' + t + 24) me none false
      | 6 => chanOffer x (64 * c' + 48) me none false
      | _ => none

/-- The dual-rail source that K_SEL or CIN_SEL names. -/
def railOffer (x : Plot) (bits : List (Nat × Bool)) (ext : Option Bool) (me c sel : Nat) : Option Offer :=
  if sel = 0 ∨ 96 < sel then none
  else match bitOffer x bits me 64 c ((sel - 1) / 24) ((sel - 1) % 24) with
    | some o => some o
    | none => ext.map fun b => ⟨BitVec.ofNat 48 (b2n b), none, false⟩

/-- A receiver acknowledges: the channel loses one receiver, and is at rest when none is left. -/
def ackChan (me : Nat) (o : Offer) (x : Plot) : Plot :=
  match o.src with
  | none => x
  | some key =>
    let l := x.chans.map fun ch =>
      if ch.owner == key && ch.shown then { ch with left := ch.left - 1, acked := me :: ch.acked } else ch
    { x with chans := l.filter fun ch => ch.left != 0 }

/-- One datum accepted counts 1 in the cadence (R805). -/
def takeOffers (me : Nat) (l : List Offer) (x : Plot) : Plot :=
  { l.foldl (fun x o => ackChan me o x) x with cadence := x.cadence + l.length }

def offerBit (o : Option Offer) : Bool := o.any fun o => o.data.getLsbD 0

def offerNat (o : Option Offer) : Nat := (o.map (·.data.toNat)).getD 0

/-- Toggles the phase bits of a croft's ports: 0 A, 1 B, 2 K, 3 carry-in, 4 Z (R105, R108: two-phase channels only; the
places of the bits are the model's own, assumption 12). -/
def togglePhases (c : Nat) (l : List (Nat × Bool)) (x : Plot) : Plot :=
  let mask := ofBits ((List.range 5).map fun i => l.any fun e => e.1 == i && e.2)
  { x with phase := memSet x.phase c (memGet x.phase c ^^^ BitVec.ofNat 48 mask) }

/-- A WORD-mode controller holds z and presents it, or keeps it unpresented under a freeze gate. -/
def wordHold (c : Nat) (gate port : Bool) (z : Word) (cout : Option Bool) (x : Plot) : Plot :=
  let left := if crKind x c = 1 then crReceivers x c else 1
  let hasCout := cout.isSome && (List.range 96).any fun n => drOut x c (n / 24) (n % 24) == 6
  let more : List Channel := if hasCout then
    [⟨64 * c + 48, BitVec.ofNat 48 (b2n (cout.getD false)), 1, [], false, !gate⟩] else []
  { x with hold := memSet x.hold c z, chans := x.chans ++ ⟨64 * c, z, left, [], port, !gate⟩ :: more }

/-- Which of two contending inputs of a MERGE wins: the loser of the last contested decision, the arbiter's choice the first
time (R146). -/
def mergeGrantsA (x : Plot) (c : Nat) (free : Bool) : Bool :=
  let l := memGet x.mergeLoser c
  if l = 1 then true else if l = 2 then false else free

/-- A WORD-mode controller completes its input handshakes, when every input it uses is offered (R99 to R101). Answers the
Plot and whether the arbiter was asked. -/
def wordStage (c : Nat) (i : CtlIn) (gate free : Bool) (x : Plot) : Plot × Bool :=
  let me := 64 * c
  let oa := wordOffer x i.extA me 64 c (aSel x c)
  let ob := wordOffer x i.extB me 64 c (bSel x c)
  let ok := railOffer x i.bits i.extK me c (kSel x c)
  let oc := railOffer x i.bits i.extCin me c (cinSel x c)
  let useB := bSel x c != 0
  let useK := kSel x c != 0
  let kind := crKind x c
  if kind = 2 then
    match oa, ob with
    | some a, none => (wordHold c gate false (lutWord x c a.data.toNat 0 0 false) none (takeOffers me [a] x), false)
    | none, some b => (wordHold c gate false (lutWord x c 0 b.data.toNat 0 false) none (takeOffers me [b] x), false)
    | some a, some b =>
      let grantA := mergeGrantsA x c free
      let x' := { x with mergeLoser := memSet x.mergeLoser c (if grantA then 2 else 1) }
      let o := if grantA then a else b
      let z := if grantA then lutWord x c a.data.toNat 0 0 false else lutWord x c 0 b.data.toNat 0 false
      (wordHold c gate false z none (takeOffers me [o] x'), memGet x.mergeLoser c == 0)
    | none, none => (x, false)
  else if kind = 4 || oa.isNone || (useB && kind != 3 && ob.isNone) || ((useK || kind == 3) && ok.isNone)
      || (crCarry x c && oc.isNone) then (x, false)
  else
    let b := if useB && kind != 3 then offerNat ob else 0
    let k := offerBit ok
    let chain := if crCarry x c then carryChain (offerNat oa) b (offerBit oc) else 0
    let taken := oa.toList ++ (if useB && kind != 3 then ob.toList else []) ++
      (if useK || kind == 3 then ok.toList else []) ++ (if crCarry x c then oc.toList else [])
    let phases := [(0, oa.any (·.two)), (1, useB && ob.any (·.two)), (4, crTwoPhase x c)]
    let z := lutWord x c (offerNat oa) b chain k
    let cout := if crCarry x c then some (natBit chain 48) else none
    (togglePhases c phases (wordHold c gate (kind == 3 && k) z cout (takeOffers me taken x)), false)

/-- The truth table depends on input j (R98). -/
def dependsOn (t j : Nat) : Bool :=
  (List.range 16).any fun v => natBit t v != natBit t (if natBit v j then v - 2 ^ j else v + 2 ^ j)

/-- A BIT-mode cell completes its input handshakes, when every input it uses is valid (R98); a cell that uses none is
unconfigured and raises no REQ (R159). -/
def cellStage (c cell : Nat) (i : CtlIn) (gate : Bool) (x : Plot) : Plot :=
  let me := 64 * c + cell
  let t := truthTable x c cell
  let used := (List.range 4).filter (dependsOn t)
  let offer := fun j => if inSrc x c cell j then chanOffer x (64 * c + (cell + 1 + j) % 48) me none false
    else bitOffer x i.bits me 64 c j (cell % 24)
  if used.isEmpty || used.any fun j => (offer j).isNone then x else
  let idx := ofBits ((List.range 4).map fun j => used.contains j && offerBit (offer j))
  let z := natBit t idx
  let x := takeOffers me (used.filterMap offer) x
  let h := memGet x.hold c
  let bit : Word := 1#48 <<< cell
  { x with
    hold := memSet x.hold c (if z then h ||| bit else h &&& ~~~bit),
    chans := x.chans ++ [⟨me, BitVec.ofNat 48 (b2n z), 1, [], false, !gate⟩] }

/-- A receiver outside the crofts acknowledges the controller's output. -/
def extAck (me : Nat) (x : Plot) : Plot :=
  let mine := fun ch : Channel => (ch.owner == me || ch.owner == me + 48 && me % 64 == 0) && ch.shown
  let l := x.chans.map fun ch => if mine ch then { ch with left := ch.left - 1 } else ch
  { x with chans := l.filter fun ch => ch.left != 0 }

/-- One turn of a controller: it may first see its last output acknowledged from outside; a held value is presented once no
gate stands; otherwise it takes what its inputs offer. -/
def controllerTurn (c cell : Nat) (i : CtlIn) (gate free : Bool) (x : Plot) : Plot × Bool :=
  let me := if crWord x c then 64 * c else 64 * c + cell
  let x := if i.extAck then extAck me x else x
  match x.chans.find? fun ch => ch.owner == me with
  | some ch =>
    if ch.shown || gate then (x, false)
    else ({ x with chans := x.chans.map fun y => if y.owner / 64 == me / 64 &&
        (y.owner == me || y.owner == me + 48) then { y with shown := true } else y }, false)
  | none => if crWord x c then wordStage c i gate free x else (cellStage c cell i gate x, false)

/-- CONTROLLER_HANDSHAKE (R96): an unpowered or stopped controller does nothing. -/
def execControllerHandshake (p : Fin 64) (c : Fin 512) (cell : Fin 48) (i : CtlIn) (s : State) : Res :=
  .next (if !fabricRuns s p then s else
    let gate := gateStands s s.plots[p].owner
    let r := controllerTurn c.val cell.val i gate (Config.arbiter s.fresh) s.plots[p]
    let s' := modPlot p (fun _ => r.1) s
    if r.2 then draw s' else s')

/-- The phase word of a croft as a snapshot carries it: the port bits and, of what is held but not presented, in a WORD
croft bit 8 for Z, bit 9 for Z1, bits 10 and 11 for a carry-out and its value, in a BIT croft the bit of each cell
(assumption 12). -/
def phaseOut (x : Plot) (c : Nat) : Word :=
  let heldAt := fun k => x.chans.any fun ch => ch.owner == 64 * c + k && !ch.shown
  if crWord x c then
    let z1 := x.chans.any fun ch => ch.owner == 64 * c && !ch.shown && ch.port
    let cv := x.chans.any fun ch => ch.owner == 64 * c + 48 && !ch.shown && ch.data.getLsbD 0
    memGet x.phase c ||| BitVec.ofNat 48 (256 * ofBits [heldAt 0, z1, heldAt 48, cv])
  else BitVec.ofNat 48 (ofBits ((List.range 48).map heldAt))

/-- The same, restored. -/
def phaseIn (c : Nat) (v : Word) (x : Plot) : Plot :=
  if crWord x c then
    let x := { x with phase := memSet x.phase c (v &&& 31#48) }
    let cout := if v.getLsbD 10 then some (v.getLsbD 11) else none
    if v.getLsbD 8 then wordHold c true (v.getLsbD 9) (memGet x.hold c) cout x else x
  else
    let held := (List.range 48).filter fun k => v.getLsbD k
    { x with chans := x.chans ++ held.map fun k =>
        ⟨64 * c + k, BitVec.ofNat 48 (b2n ((memGet x.hold c).getLsbD k)), 1, [], false, false⟩ }

/-- Every channel of the Plot is at rest (R107, R336). -/
def plotAtRest (x : Plot) : Bool := x.chans.all fun ch => !ch.shown

end Sys2Proof.Machine
end

