-- ==== Sys2Proof/Machine/Granary.lean ====
section
/-! DEFINITION. Granary banks and Bins (04): Plot ports, the system port with its fence, write-back, scrubbing, the Granary
window, and the ports and scrub of Bins. -/

namespace Sys2Proof.Machine

/-- What the contents of a bank are kept against: 0, or what a loss of VGRAN left (R217). -/
def bankBase (b : Bank) (a : Nat) : Stored :=
  match b.lost with
  | none => 0
  | some n => Config.lostWord n a

def bankWord (b : Bank) (a : Nat) : Stored := memGet b.mem a ^^^ bankBase b a

def bankRead (s : State) (p : Fin 64) (a : Nat) : Found := secRead (bankWord s.banks[p] a)

def bankWrite (p : Fin 64) (a : Nat) (w : Stored) (s : State) : State :=
  modBank p (fun b => { b with mem := memSet b.mem a (w ^^^ bankBase b a) }) s

/-- CEs and UEs count in the Holding that owns the Plot (R187, Table 04-6). -/
def countHolding (p : Fin 64) (f : Found) (s : State) : State :=
  let h := s.plots[p].owner
  if h.val = 0 then s
  else modHolding h (fun x => { x with
    memCe := satAdd x.memCe (b2n f.ce), memUe := satAdd x.memUe (b2n f.ue) }) s

/-- What a read found is counted in the bank and its Holding (R187, R188). -/
def countFound (p : Fin 64) (f : Found) (s : State) : State :=
  let s := countHolding p f (modBank p (fun b => { b with
    ceCount := satAdd b.ceCount (b2n f.ce), ueCount := satAdd b.ueCount (b2n f.ue) }) s)
  if f.ce then limited evGranaryCe p.val 1 s else s

/-- At most one GRANARY_UE record per bank per bell (R188). -/
def recordUe (p : Fin 64) (a : Nat) (s : State) : State :=
  if s.banks[p].ueBell = some s.bell.edges then s
  else
    let e := s.bell.edges
    record evGranaryUe s.plots[p].owner (datTop p.val a) (modBank p (fun b => { b with ueBell := some e }) s)

/-- DATA of the memory events of a Bin: [39] set, Bin and row. -/
def binData (p : Fin 64) (b : Fin 24) (row : Nat) : Nat := p.val * 2 ^ 40 + b.val * 2 ^ 10 + row

def binFlagged (p : Fin 64) (b : Fin 24) (row : Nat) : Word := BitVec.ofNat 48 (binData p b row + 2 ^ 39)

/-- The UE policy of the owner (R185): under FAULT the Holding faults, under REPORT MEM_UE is posted. -/
def uePolicy (p : Fin 64) (data : Word) (s : State) : State :=
  let h := s.plots[p].owner
  if s.holdings[h].memUeReport then mailbox evMemUe h data s else faultHolding h .memUe s

/-! Plot ports (R171 to R175, R180 to R182). -/

/-- A Plot port is granted: the bank has power and no fence stands (R178, R217). -/
def portOpen (s : State) (p : Fin 64) : Bool := fabricRuns s p && s.pins.vgran && !s.banks[p].fence

/-- A line enters the write-back queue once (R181, R182). -/
def queueLine (p : Fin 64) (line : Nat) (s : State) : State :=
  let b := s.banks[p]
  if b.wbq.any fun e => e.1 == line then s
  else if 16 ≤ b.wbq.length then modBank p (fun b => { b with wbDropped := satAdd b.wbDropped 1 }) s
  else
    let t := s.bell.now
    modBank p (fun b => { b with wbq := b.wbq ++ [(line, t)] }) s

def addr18 (a : Word) : Nat := a.toNat % 2 ^ 18

def granaryPortRead (p : Fin 64) (a : Nat) (s : State) : State :=
  let f := bankRead s p a
  let s := emit (.portData p f.data) (countFound p f s)
  let s := if f.ce || f.ue then queueLine p (a / 4) s else s
  if f.ue then uePolicy p (datTop p.val a) (recordUe p a s) else s

def execGranaryPortRead (p : Fin 64) (_port : Bool) (addr : Word) (s : State) : Res :=
  .next (if portOpen s p then granaryPortRead p (addr18 addr) s else s)

def execGranaryPortWrite (p : Fin 64) (_port : Bool) (addr d : Word) (s : State) : Res :=
  .next (if portOpen s p then bankWrite p (addr18 addr) (secWord d) s else s)

/-! The window (R202 to R207). -/

/-- The window of Holding h serves a read or write (R202, R205, R206). -/
def windowServes (s : State) (h : Fin 32) (write : Bool) : Bool :=
  let x := s.holdings[h]
  h.val != 0 && x.window && s.pins.vgran &&
    match x.st with
    | .ready | .running | .quiesced | .dozing => true
    | .faulted => !write
    | .empty | .loading | .clearing => false

/-- An access that misses: reads return zero bytes, writes are discarded (R206). -/
def windowMiss (vf : Fin 33) (h : Fin 32) (write : Bool) (len : Nat) (s : State) : State :=
  let s := if h.val = 0 then s else limited evWindowMiss h.val 1 s
  if write then s else emit (.windowCpl vf (List.replicate len 0) false) s

/-- The part of a request that lies in the line of offset off. -/
def partLen (off len : Nat) : Nat := min len (32 - off % 32)

/-- A request is split at line boundaries; each part waits at its bank or misses. -/
def windowParts (vf : Fin 33) (write : Bool) : Nat → Nat → Nat → List Byte → State → State
  | 0, _, _, _, s => s
  | fuel + 1, off, len, bytes, s =>
    if len = 0 then s else
    let n := partLen off len
    let h := vfHolding s vf
    let s := match rectBank s.holdings[h].rect (off / 0x200000), windowServes s h write with
      | some p, true =>
        let k := s.host.winSeq
        let op : WinOp := ⟨vf, k, write, off % 0x200000, n, bytes.take n⟩
        { modBank p (fun b => { b with win := b.win ++ [op] }) s with host := { s.host with winSeq := k + 1 } }
      | _, _ => windowMiss vf h write n s
    windowParts vf write fuel (off + n) (len - n) (bytes.drop n) s

/-- A host request to the BAR2 of an enabled VF arrives while the link is up. -/
def windowArrives (vf : Fin 33) (s : State) : Bool := vf.val != 0 && s.host.rate.val != 0 && vfOn s vf

def execWindowRead (vf : Fin 33) (off : BitVec 27) (len : Nat) (s : State) : Res :=
  .next (if windowArrives vf s then windowParts vf false (len + 1) off.toNat len [] s else s)

def execWindowWrite (vf : Fin 33) (off : BitVec 27) (bytes : List Byte) (s : State) : Res :=
  .next (if windowArrives vf s then windowParts vf true (bytes.length + 1) off.toNat bytes.length bytes s else s)

/-- The bytes of a window word (R203). -/
def windowByte (d : Word) (k : Nat) : Byte := if k < 6 then d.extractLsb' (8 * k) 8 else 0

/-- The words that n bytes from byte offset off touch. -/
def wordsOf (off n : Nat) : List Nat := (List.range ((off % 8 + n + 7) / 8)).map (off / 8 + ·)

/-- A read part: data through the check code; a UE poisons the completion (R180, R186, R187). -/
def windowReadUnit (p : Fin 64) (o : WinOp) (s : State) : State :=
  let ws := wordsOf o.off o.len
  let ep := ws.any fun a => (bankRead s p a).ue
  let bytes := (List.range o.len).map fun i =>
    windowByte (bankRead s p ((o.off + i) / 8)).data ((o.off + i) % 8)
  let s := eachOf ws (fun a t =>
    let f := bankRead t p a
    let t := countFound p f t
    if f.ue then recordUe p a t else t) s
  emit (.windowCpl o.vf bytes ep) s

/-- The data bytes of word a that a write part carries: byte number and value. -/
def writtenBytes (o : WinOp) (a : Nat) : List (Nat × Byte) :=
  (o.bytes.zipIdx.filter fun b => (o.off + b.2) / 8 == a && (o.off + b.2) % 8 < 6).map fun b => ((o.off + b.2) % 8, b.1)

def putByte (d : Word) (k : Nat) (v : Byte) : Word :=
  (d &&& ~~~(0xFF#48 <<< (8 * k))) ||| (v.setWidth 48 <<< (8 * k))

/-- A write part: full words are written, partial words merged, unless what they merge with has a UE (R204). -/
def windowWriteUnit (p : Fin 64) (o : WinOp) (s : State) : State :=
  eachOf (wordsOf o.off o.len) (fun a t =>
    let l := writtenBytes o a
    if l.isEmpty then t else
    let f := bankRead t p a
    if l.length < 6 && f.ue then record evWindowUe t.plots[p].owner (datTop p.val a) t
    else bankWrite p a (secWord (l.foldl (fun d e => putByte d e.1 e.2) f.data)) t) s

def windowUnit (p : Fin 64) (o : WinOp) (s : State) : State :=
  let h := s.plots[p].owner
  if !windowServes s h o.isWrite then windowMiss o.vf h o.isWrite o.len s
  else if o.isWrite then windowWriteUnit p o s else windowReadUnit p o s

/-- Requests of one VF take effect in their order (R207): no earlier part waits at another bank. -/
def windowTurn (s : State) (o : WinOp) : Bool :=
  (List.finRange 64).all fun p => s.banks[p].win.all fun x => x.vf != o.vf || o.seq ≤ x.seq

/-! Scrub and write-back (R183 to R193). -/

/-- The row of a word within its sub-array, as REPAIR_CANDIDATE names it: sub-array [17:16], row [9:0]. -/
def rowOf (a : Nat) : Nat := a % 4 * 2 ^ 16 + a / 256 % 1024

def repairCandidate (p : Fin 64) (a : Nat) (s : State) : State :=
  record evRepairCandidate 0 (datTop p.val (rowOf a))
    { s with test := { s.test with cands := s.test.cands ++ [4 * p.val + a % 4] } }

/-- A word with a CE enters this pass's count of its row; the third names the row (R192). -/
def noteRow (p : Fin 64) (a : Nat) (s : State) : State :=
  let r := rowOf a
  let n := ((s.banks[p].ceRows.find? fun e => e.1 == r).map (·.2)).getD 0 + 1
  let s := modBank p (fun b => { b with ceRows := (r, n) :: b.ceRows.filter fun e => e.1 != r }) s
  if n = 3 then repairCandidate p a s else s

/-- Check-and-correct of one word (R184, R187, R190). -/
def correctWord (scrub : Bool) (p : Fin 64) (a : Nat) (s : State) : State :=
  let f := bankRead s p a
  let s := if scrub then countFound p f s else s
  let s := if scrub && f.ce then noteRow p a s else s
  let poisons := f.ue && !f.poisoned
  let s := if f.ce || poisons then bankWrite p a (secCorrect (bankWord s.banks[p] a)) s else s
  if !poisons then s else
  let s := modBank p (fun b => { b with poisonCount := satAdd b.poisonCount 1 }) s
  let s := record evGranaryPoison s.plots[p].owner (datTop p.val a) s
  if scrub then repairCandidate p a (mailbox evMemScrubUe s.plots[p].owner (datTop p.val a) s) else s

def correctLine (scrub : Bool) (p : Fin 64) (line : Nat) (s : State) : State :=
  eachOf (List.range 4) (fun i t => correctWord scrub p (4 * line + i) t) s

/-- A scrub line; a pass ends at the wrap (R189, R192). -/
def scrubUnit (p : Fin 64) (s : State) : State :=
  let line := s.banks[p].scrubLine
  let s := correctLine true p line.toNat s
  modBank p (fun b => { b with
    scrubLine := line + 1, scrubDue := b.scrubDue - 1, ceRows := if line = 0xFFFF then [] else b.ceRows }) s

/-- A scrub line falls due (R189, R191, R220). -/
def execScrubLineDue (p : Fin 64) (s : State) : Res :=
  .next (
    let b := s.banks[p]
    if !b.cleared || !s.pins.vgran || !gleanerRuns s || underTest s p || s.bell.edges < b.nextDue then s
    else
      let i := scrubInterval s.scrubS.toNat s.bell.period.toNat
      modBank p (fun b => { b with scrubDue := b.scrubDue + 1, nextDue := b.nextDue + i }) s)

/-! The system port and its fence (R176 to R179, R183). -/

/-- The derived map of a bank at the edge of tick t (R43). -/
def derivedMap (s : State) (p : Fin 64) (t : Nat) : Vector Byte 16 :=
  let x := s.plots[p]
  if x.forced then mapReset
  else if x.ownAt + 16 ≤ t then
    Vector.ofFn fun j => if j.val = 15 then 0xFE else BitVec.ofNat 8 x.owner.val
  else s.slots.granary[p]

/-- An action that forces the bank's map takes effect at the coming edge (R43, R351, R771). -/
def forcedNext (s : State) (p : Fin 64) : Bool :=
  let h := s.plots[p].owner
  h.val != 0 && s.holdings[h].pend.any fun t =>
    (t.kind == .snapshot || t.kind == .restore || t.kind == .load) && t.edge ≤ s.bell.edges + 1

/-- Distinct lines that the waiting system writes need, in order. -/
def sysLines (l : List SysOp) : Nat :=
  (l.foldl (fun (acc : Nat × Option Nat) o =>
    if acc.2 = some (o.addr / 4) then acc else (acc.1 + 1, some (o.addr / 4))) (0, none)).1

/-- Units that wait for the owner of the slot that starts at tick t (R178, R179, R183). -/
def unitsWaiting (s : State) (p : Fin 64) (j : Nat) (owner : Byte) (t : Nat) : Nat :=
  let b := s.banks[p]
  if j = 15 then (b.wbq.filter fun e => e.2 + 16 ≤ t).length + b.scrubDue
  else if owner = 0 then sysLines b.sys
  else b.win.length

/-- The length of the coming bell. -/
def nextLen (s : State) : Nat :=
  bellLength s
    ((((s.bell.pendPeriod.filter fun x => x.1 ≤ s.bell.edges + 1).getLast?).map (·.2.toNat)).getD s.bell.period.toNat)

/-- The fence point, 10 ticks before the next slot: the port decides how many units it will start there. -/
def execGranaryFence (p : Fin 64) (s : State) : Res :=
  .next (
    if noEdge s || !s.pins.vgran then s else
    let j := (s.bell.slot.val + 1) % 16
    let last := s.bell.slot.val = 15
    let n := if last then nextLen s else s.bell.len
    let t := if last then s.bell.edgeAt + s.bell.len else s.bell.edgeAt + slotStart s.bell.len j
    let map := if last then (if forcedNext s p then mapReset else derivedMap s p t) else s.slots.granary[p]
    let owner := (map.toList[j]?).getD 0
    let k := min (slotLen n j / 14) (unitsWaiting s p j owner t)
    modBank p (fun b => { b with unitsNext := k, fence := b.fence || k != 0 }) s)

/-- The oldest system writes that lie in one line are merged in one unit. -/
def sysUnit (p : Fin 64) (s : State) : State :=
  match s.banks[p].sys with
  | [] => s
  | o :: l =>
    let same := fun x : SysOp => x.addr / 4 == o.addr / 4
    let now := o :: l.takeWhile same
    let s := modBank p (fun b => { b with sys := l.dropWhile same }) s
    eachOf now (fun x t => bankWrite p x.addr (secWord x.w) t) s

/-- The unit that the port runs in the slot in progress, none when none is ready. -/
def systemUnit (p : Fin 64) (s : State) : Option State :=
  let b := s.banks[p]
  if s.bell.slot.val = 15 then
    match b.wbq with
    | (line, _) :: l => some (modBank p (fun b => { b with wbq := l }) (correctLine false p line s))
    | [] => if b.scrubDue ≠ 0 then some (scrubUnit p s) else none
  else if (s.slots.granary[p])[s.bell.slot] = 0 then if b.sys.isEmpty then none else some (sysUnit p s)
  else match b.win with
    | o :: l => if windowTurn s o then some (windowUnit p o (modBank p (fun b => { b with win := l }) s)) else none
    | [] => none

def execGranarySystemUnit (p : Fin 64) (s : State) : Res :=
  .next (
    if s.banks[p].slotUnits = 0 || !s.pins.vgran then s else
    match systemUnit p s with
    | none => s
    | some t => modBank p (fun b => { b with
        slotUnits := b.slotUnits - 1, fence := b.slotUnits != 1 || b.unitsNext != 0 }) t)

/-! Bins (R132 to R134, R147, R194 to R201). -/

def binKey (b : Fin 24) (row : Nat) : Nat := 1024 * b.val + row

def binModeOf (x : Plot) (b : Fin 24) : BitVec 2 := binMode x.bins[b].shape x.bins[b].check

/-- The row that an address selects and its part: first bit, width and 12-bit groups (R194). -/
def binPlace (shape : BitVec 2) (addr : Word) : Nat × Nat × Nat × List Nat :=
  let a := addr.toNat
  if shape = 0 then (a % 1024, 0, 48, [0, 1, 2, 3])
  else if shape = 1 then
    let k := a % 2
    (a / 2 % 1024, 24 * k, 24, [2 * k, 2 * k + 1])
  else
    let q := a % 4
    (a / 4 % 1024, 12 * q, 12, [q])

/-- An uncorrectable Bin read: BIN_UE in place of GRANARY_UE (R198). -/
def binUe (p : Fin 64) (b : Fin 24) (row : Nat) (s : State) : State :=
  uePolicy p (binFlagged p b row) (record evBinUe s.plots[p].owner (BitVec.ofNat 48 (binData p b row)) s)

def binReadAt (p : Fin 64) (b : Fin 24) (addr : Word) (s : State) : State :=
  let x := s.plots[p]
  let pl := binPlace x.bins[b].shape addr
  let f := binFound (binModeOf x b) (memGet x.binMem (binKey b pl.1)) pl.2.2.2
  let d : Word := BitVec.ofNat 48 (f.data.toNat / 2 ^ pl.2.1 % 2 ^ pl.2.2.1)
  let s := emit (.portData p d) (countHolding p f s)
  if f.ue then binUe p b pl.1 s else s

def execBinRead (p : Fin 64) (b : Fin 24) (_port : Bool) (addr : Word) (s : State) : Res :=
  .next (if fabricRuns s p then binReadAt p b addr s else s)

/-- A narrow write merges with the row's DATA; PARITY updates the parity of the groups written alone (R197). -/
def binMerge (mode : BitVec 2) (w : Stored) (lo len : Nat) (groups : List Nat) (d : Word) : Stored :=
  let mask : Word := BitVec.ofNat 48 ((2 ^ len - 1) * 2 ^ lo)
  let data := (secData w &&& ~~~mask) ||| ((d <<< lo) &&& mask)
  if mode = 0 then secWord data
  else if mode = 1 then
    let check := ofBits ((List.range 8).map fun j =>
      if groups.contains j then parity12 data j else w.getLsbD (48 + j))
    BitVec.ofNat 8 check ++ data
  else 0#8 ++ data

def binWriteAt (p : Fin 64) (b : Fin 24) (addr d : Word) (s : State) : State :=
  modPlot p (fun x =>
    let pl := binPlace x.bins[b].shape addr
    let k := binKey b pl.1
    let w := binMerge (binModeOf x b) (memGet x.binMem k) pl.2.1 pl.2.2.1 pl.2.2.2 d
    { x with binMem := memSet x.binMem k w }) s

def execBinWrite (p : Fin 64) (b : Fin 24) (_port : Bool) (addr d : Word) (s : State) : Res :=
  .next (if fabricRuns s p then binWriteAt p b addr d s else s)

/-- The Bin scrub runs in powered Plots, outside DOZING, clearing, snapshots and restores (R201, R351). -/
def binScrubbed (s : State) (p : Fin 64) : Bool :=
  let x := s.plots[p]
  gleanerRuns s && !underTest s p && x.regOn && !x.clearing && !x.forced && !(x.owner.val != 0 && s.holdings[x.owner].st == .dozing)

/-- One row of a Bin (R199, R200). -/
def binScrubAt (p : Fin 64) (b : Fin 24) (s : State) : State :=
  let x := s.plots[p]
  let mode := binModeOf x b
  let row := x.bins[b].scrubRow
  let k := binKey b row
  let f := binFound mode (memGet x.binMem k) [0, 1, 2, 3]
  let s := countHolding p f s
  let s := modPlot p (fun x => { x with
    binMem := if mode = 0 then memSet x.binMem k (secCorrect (memGet x.binMem k)) else x.binMem,
    bins := upd x.bins b fun y => { y with scrubRow := (y.scrubRow + 1) % 1024 } }) s
  if !f.ue then s else
  let e := if mode = 0 then evBinPoison else evBinParity
  let h := s.plots[p].owner
  mailbox evMemScrubUe h (binFlagged p b row) (record e h (BitVec.ofNat 48 (binData p b row)) s)

def execBinScrubRow (p : Fin 64) (b : Fin 24) (s : State) : Res :=
  .next (
    let m := binModeOf s.plots[p] b
    if binScrubbed s p && (m == 0 || m == 1) then binScrubAt p b s else s)

/-- GRANARY.CLEAR_RETRY: every unowned bank with CLEAR_FAIL is cleared again (R218). -/
def execGranaryClearRetry (rq : Req) (s : State) : Res :=
  .next (invokeReq rq 0x1300 3 true (fun _ _ => none) (fun _ s =>
    (eachFin 64 (fun p t =>
      if t.plots[p].owner.val = 0 && t.banks[p].clearFail then
        modPlot p (fun x => { x with clearing := true, clearRetry := false }) t
      else t) s, some (stOk, bellNow s))) s)

end Sys2Proof.Machine
end

