-- ==== Sys2Proof/Machine/QueueCommands.lean ====
section
/-! DEFINITION. The commands of queues (02, 05): staging, commit and release units, acceptance, close handshakes, binding,
flush, idle timeouts, late runs and ring errors of the Commons. -/

namespace Sys2Proof.Machine

/-- A Plot port's offer under a freeze gate: what cannot enter staging waits in the freeze register (R335). -/
def stageGated (q : Fin 256) (p : Fin 64) (port : Fin 8) (it : Item) (s : State) : State :=
  if takesItem s.queues[q] then stageItem q it s
  else if (s.plots[p].freezeRegs[port]).isNone then
    modPlot p (fun x => { x with freezeRegs := x.freezeRegs.set port (some it) }) s
  else s

/-- What a freeze register holds enters staging once a credit is free and no gate stands (R335). -/
def refill (q : Fin 256) (s : State) : State :=
  match endpoint s.queues[q].producer with
  | some (.plotPort p port) =>
    match s.plots[p].freezeRegs[port] with
    | some it =>
      if carries s.queues[q] && !gated s q && takesItem s.queues[q] then
        stageItem q it (modPlot p (fun x => { x with freezeRegs := x.freezeRegs.set port none }) s)
      else s
    | none => s
  | _ => s

/-- A producer offers an item (R247, Table 05-5). -/
def offerItem (q : Fin 256) (it : Item) (s : State) : State :=
  if !carries s.queues[q] then s else
  match endpoint s.queues[q].producer with
  | some (.plotPort p port) =>
    if !fabricRuns s p then s
    else if gated s q then stageGated q p port it s
    else if takesItem s.queues[q] then stageItem q it s
    else s
  | some (.laneRx _) => stageItem q it s
  | some _ => if takesItem s.queues[q] then stageItem q it s else s
  | none => s

def execStageItem (q : Fin 256) (it : Item) (s : State) : Res := .next (offerItem q it s)

/-- A commit unit of 1 to 16 staged items (R42, R46, R238, R239, R249). -/
def canCommit (s : State) (q : Fin 256) (n : Nat) : Bool :=
  let x := s.queues[q]
  carries x && 1 ≤ n && n ≤ 16 && n ≤ (stagedItems x).length && storeSlot s q

def execCommitUnit (q : Fin 256) (n : Nat) (s : State) : Res :=
  .next (if canCommit s q n then refill q (afterArbiter 2 (commitN q n s)) else s)

/-- A release unit of 1 to 16 committed items, against free credits of the consumer (R238, R250). -/
def canRelease (s : State) (q : Fin 256) (n : Nat) : Bool :=
  let x := s.queues[q]
  carries x && 1 ≤ n && n ≤ 16 && x.buf + n ≤ x.items.length && n ≤ x.consFree && storeSlot s q

def execReleaseUnit (q : Fin 256) (n : Nat) (wrong : List Nat) (s : State) : Res :=
  .next (if canRelease s q n then fillBuffer q n wrong s else s)

/-- The consumer port of the queue may accept: a design whose controllers run, under a gate only the item whose REQ was
raised (R335); a Reeve channel. Lanes, host DMA and units accept in their own commands. -/
def portAccepts (s : State) (q : Fin 256) : Bool :=
  match endpoint s.queues[q].consumer with
  | some (.plotPort p _) => fabricRuns s p && (!gated s q || s.queues[q].reqUp)
  | some (.reeve _) => true
  | _ => false

def acceptItem (q : Fin 256) (s : State) : State :=
  match offered s.queues[q] with
  | some it => if delivers s q && portAccepts s q then emit (.deliver q it) (takeItem q s) else s
  | none => s

def execItemAccept (q : Fin 256) (s : State) : Res := .next (acceptItem q s)

/-- A close handshake covers what has been committed before it, for the edge it is assigned to (R52, R54, R56, R80); a free
queue ignores it (R246). -/
def closeHandshake (q : Fin 256) (s : State) : State :=
  let x := s.queues[q]
  if !(carries x && x.locked && isDesign x.producer) then s
  else if edgesAway 2 s = 1 then
    afterArbiter 2 (modQueue q (fun x => { x with closeLen := some x.items.length }) s)
  else afterArbiter 2 (modQueue q (fun x => { x with closeNext := some x.items.length }) s)

def designRuns (s : State) (q : Fin 256) : Bool :=
  match endpoint s.queues[q].producer with
  | some (.plotPort p _) => fabricRuns s p
  | _ => false

def execCloseHandshake (q : Fin 256) (s : State) : Res :=
  .next (if designRuns s q then closeHandshake q s else s)

/-- QUEUE.LATE_RUN has reached 16 (R61). -/
def execLateRun (q : Fin 256) (s : State) : Res :=
  .next (
    let x := s.queues[q]
    if x.lateRun.toNat < 16 || x.runPosted then s
    else post evLateRun (queueOwner s q) (datTop q.val x.lateRun.toNat)
      (modQueue q (fun x => { x with runPosted := true }) s))

/-- The idle count has reached IDLE_BELLS (R264 to R266). -/
def execIdleTimeout (q : Fin 256) (s : State) : Res :=
  .next (
    let x := s.queues[q]
    if !carries x || x.idleBells = 0 || x.idle || x.idleCnt < x.idleBells.toNat then s else
    let s := modQueue q (fun x => { x with idle := true }) s
    let s := post evIdleTimeout (queueOwner s q) (datTop q.val (min x.idleCnt 0xFFFF)) s
    if x.idleFlush then flushQueue q s else s)

/-! Binding (R240 to R245). -/

/-- An endpoint is the owner's (R241, R296). -/
def endpointOwned (s : State) (owner : Fin 32) : Endpoint → Bool
  | .plotPort p _ => owner.val != 0 && s.plots[p].owner == owner
  | .laneRx l | .laneTx l => laneHolding s l == owner
  | .host f => if f.val = 0 then owner.val == 0 else owner.val != 0 && vfHolding s f == owner
  | .cvu u => cvuHolding s u == owner
  | .reeve _ => owner.val == 0

/-- The first condition of R241 that fails, for a queue about to be bound with these entries. -/
def bindRefusal (s : State) (q : Fin 256) (owner : Fin 32) (depthLog2 : Nat) (prod cons : BitVec 16) : Option Byte :=
  if s.queues[q].bound then some stBusy else
  match endpoint prod, endpoint cons with
  | some a, some b =>
    if !canProduce a || !canConsume b then some stDenied
    else if !endpointOwned s owner a || !endpointOwned s owner b then some stDenied
    else if (queueFrom s prod).isSome || (queueTo s cons).isSome then some stBusy
    else if owner.val != 0 &&
        s.holdings[owner].queueQuota.toNat < s.holdings[owner].itemsHeld.toNat + 2 ^ depthLog2 then some stQuota
    else if s.qstore.freePages < pagesFor depthLog2 then some stNoSlot
    else none
  | _, _ => some stDenied

def holdOf (b : BitVec 8) : Fin 32 := Fin.ofNat 32 b.toNat

def execQueueBind (rq : Req) (q : Fin 256) (s : State) : Res :=
  .next (invokeReq rq (qix q) 9 true
    (fun _ s =>
      let x := s.queues[q]
      bindRefusal s q (holdOf x.owner) x.depthLog2.toNat x.producer x.consumer)
    (fun _ s =>
      let e := max (effectEdge s) (s.queues[q].unbindEdge.getD 0)
      let b := bellAt s (e - s.bell.edges)
      (bindRing q (bindQueue q e none (afterArbiter 16 s)), some (stOk, b))) s)

/-- States in which a Holding's queue may be unbound (R245). -/
def unbindable (st : HState) : Bool :=
  match st with
  | .empty | .ready | .quiesced | .faulted | .clearing => true
  | .loading | .running | .dozing => false

def execQueueUnbind (rq : Req) (q : Fin 256) (s : State) : Res :=
  .next (invokeReq rq (qix q) 10 true
    (fun _ s =>
      if !s.queues[q].bound then some stNotReady
      else if (queueOwner s q).val ≠ 0 && !unbindable s.holdings[queueOwner s q].st then some stBusy
      else none)
    (fun _ s =>
      let e := max (effectEdge s) (s.queues[q].bindEdge.getD 0)
      let b := bellAt s (e - s.bell.edges)
      (unbindWhole q e (afterArbiter 16 s), some (stOk, b))) s)

/-- A snapshot or restore of the Holding has begun and not ended (R351). -/
def jobHolds (s : State) (h : Fin 32) : Bool :=
  s.snap.job.any (fun j => j.begun && j.h == h) || s.snap.restore.any fun j => j.begun && j.h == h

def execQueueFlush (rq : Req) (q : Fin 256) (s : State) : Res :=
  .next (invokeReq rq (qix q) 11 true
    (fun _ s =>
      if !s.queues[q].bound then some stNotReady
      else if (queueOwner s q).val ≠ 0 && jobHolds s (queueOwner s q) then some stBusy
      else none)
    (fun _ s => (flushQueue q s, some (stOk, bellNow s))) s)

/-! Ring errors (R278, R279). -/

/-- The item that last entered the consumer buffer, or the newest staged item, gets BAD. -/
def badItem (q : Fin 256) (toConsumer : Bool) (s : State) : State :=
  modQueue q (fun x =>
    if toConsumer then
      { x with items := x.items.zipIdx.map fun c =>
          if c.2 + 1 = x.buf then { c.1 with it := setBad c.1.it } else c.1 }
    else match x.staging.getLast? with
      | some (.item it) => { x with staging := x.staging.dropLast ++ [.item (setBad it)] }
      | _ => x) s

def execCommonsParity (stop : Byte) (q : Fin 256) (toConsumer : Bool) (s : State) : Res :=
  .next (record evCommonsParity 0 (datTop 0 stop.toNat) (badItem q toConsumer s))

/-- The stop discards the item; its credit is free again. -/
def routeDiscard (q : Fin 256) (s : State) : State :=
  modQueue q (fun x =>
    match x.staging.getLast? with
    | some (.item _) => { x with staging := x.staging.dropLast, prodFree := x.prodFree + 1 }
    | _ => x) s

def execCommonsRoute (stop : Byte) (q : Fin 256) (s : State) : Res :=
  .next (deviceFatal [.commonsRoute] (record evCommonsRoute 0 (datTop 0 stop.toNat) (routeDiscard q s)))

end Sys2Proof.Machine
end

