-- ==== Sys2Proof/Machine/Lanes.lean ====
section
/-! DEFINITION. Serial lanes and Limva Link (09): lane states, the 64b/66b coder and gearbox, raw lanes, PRBS, loop-backs,
and the frames, sequence numbers, credits and replays of Limva. -/

namespace Sys2Proof.Machine

def quadOf (l : Fin 48) : Fin 12 := ⟨l.val / 4, by omega⟩

/-- The PLL that the lane selects is locked. -/
def pllLocked (s : State) (l : Fin 48) : Bool :=
  if s.lanes[l].pllB then s.quads[quadOf l].bLocked else s.quads[quadOf l].aLocked

/-- The lane's rate in kb/s (R454, R455). -/
def laneRate (s : State) (l : Fin 48) : Nat :=
  let x := s.quads[quadOf l]
  x.refKhz.toNat * (if s.lanes[l].pllB then x.pllbM else x.pllaM).toNat

/-- The lane uses the 64b/66b coder (R462, R477). -/
def coded (x : Lane) : Bool := x.b66 || x.limvaMode

/-- Whole blocks of 66 bits that n ticks of 0.8 ns hold at the lane's rate. -/
def blocksIn (s : State) (l : Fin 48) (n : Nat) : Nat := n * 8 * laneRate s l / 660000000

/-- Three block times fit ⌊N/16⌋ ticks (R483). -/
def limvaFits (s : State) (l : Fin 48) : Bool := 3 ≤ blocksIn s l (s.bell.period.toNat / 16)

def laneDat (l : Fin 48) : Word := BitVec.ofNat 48 l.val

/-! Limva states (Table 09-7). -/

def replayItems (x : Lane) : Nat := (x.replay.map fun f => f.2.length).sum

/-- The replay buffer is discarded into LANE.LIMVA_LOST. -/
def dropReplay (l : Fin 48) (s : State) : State :=
  modLane l (fun x => { x with
    lost := satAdd x.lost (replayItems x), replay := [], replayFrom := none, replayCount := 0 }) s

/-- ACTIVE is left: LIMVA_DOWN record and event; the replay buffer is kept. -/
def leaveActive (l : Fin 48) (s : State) : State :=
  if s.lanes[l].limva != .active then s else
  post evLimvaDown (laneHolding s l) (laneDat l)
    (modLane l (fun x => { x with
      limva := .down, leftActive := some s.bell.edges, wasActive := true, replayFrom := none, replayCount := 0,
      nak := false, resync := none }) s)

/-- A lane that is UP in LIMVA mode, DOWN and fit enters INIT. -/
def limvaInit (l : Fin 48) (s : State) : State :=
  let x := s.lanes[l]
  if x.limvaMode && x.st == .up && x.limva == .down && limvaFits s l then
    modLane l (fun x => { x with limva := .init, seen := false }) s
  else s

/-- Limva goes DOWN with its replay buffer: LINE mode, or the lane OFF. -/
def limvaOff (l : Fin 48) (s : State) : State :=
  let s := dropReplay l (leaveActive l s)
  modLane l (fun x => { x with limva := .down, leftActive := none }) s

/-- The LIMVA_UNFIT record of a lane that is UP (R483); one that no longer fits leaves ACTIVE or INIT. -/
def limvaUnfit (l : Fin 48) (s : State) : State :=
  let x := s.lanes[l]
  if x.limvaMode && x.st == .up && !limvaFits s l then
    let s := modLane l (fun x => { x with limva := .down }) (leaveActive l s)
    record evLimvaUnfit (laneHolding s l) (laneDat l) s
  else s

/-- At a change of bell period. -/
def limvaPeriod (s : State) : State := eachFin 48 limvaUnfit s

/-! Lane states (Table 09-2). -/

/-- The lane goes to OFF. -/
def laneOff (l : Fin 48) (s : State) : State :=
  if s.lanes[l].st == .off then limvaOff l s else
  modLane l (fun x => { x with st := .off, blockLocked := false, prbsLocked := false, part := [], shWindow := [] })
    (limvaOff l s)

/-- ENABLE TRUE and the selected PLL locked take an OFF lane to TRAINING; either failing takes it to OFF, and an accepted
shut-down keeps it there (R831). -/
def laneEval (l : Fin 48) (s : State) : State :=
  let x := s.lanes[l]
  if x.enable && pllLocked s l && !s.test.accepted then
    if x.st == .off then modLane l (fun x => { x with st := .training, shWindow := [], part := [] }) s else s
  else laneOff l s

/-- An UP lane goes to TRAINING; the group that was cut short counts with its four items (R466). -/
def laneLost (l : Fin 48) (cut : Bool) (s : State) : State :=
  let cut := cut || s.lanes[l].part != []
  let s := leaveActive l s
  let s := modLane l (fun x => { x with
    st := .training, blockLocked := false, part := [], shWindow := [], downCount := satAdd x.downCount 1,
    rxDiscarded := if cut && coded x && !x.limvaMode then satAdd x.rxDiscarded 4 else x.rxDiscarded }) s
  post evLaneDown (laneHolding s l) (laneDat l) s

def execLaneEnableWrite (rq : Req) (l : Fin 48) (v : Byte) (s : State) : Res :=
  .next (writeReq rq (lix l) 0x01 true (v.toNat ≤ 1) (fun _ => none)
    (fun s => (laneEval l (modLane l (fun x => { x with enable := v != 0 }) s), bellNow s)) s)

def laneUp (l : Fin 48) (s : State) : State :=
  if s.lanes[l].st != .training then s else
  let s := modLane l (fun x => { x with st := .up, blockLocked := coded x, shWindow := [], part := [] }) s
  let s := post evLaneUp (laneHolding s l) (laneDat l) s
  limvaInit l (limvaUnfit l s)

def execLaneUp (l : Fin 48) (s : State) : Res := .next (laneUp l s)

/-- Training restarts (Table 09-2). -/
def execTrainingRestart (l : Fin 48) (s : State) : Res :=
  .next (if s.lanes[l].st == .training then modLane l (fun x => { x with trainings := x.trainings + 1 }) s else s)

def execLaneDown (l : Fin 48) (cut : Bool) (s : State) : Res :=
  .next (if s.lanes[l].st == .up then laneLost l cut s else s)

/-- A lane leaves a Holding (R500). -/
def laneLeaves (l : Fin 48) (s : State) : State := modLane l (fun _ => Lane.reset) (laneOff l s)

/-! PLLs (R453, R454, R498, R499). -/

/-- The four lanes of a quad that select the PLL. -/
def pllLanes (s : State) (n : Fin 12) (b : Bool) : List (Fin 48) :=
  (List.finRange 48).filter fun l => quadOf l == n && s.lanes[l].pllB == b

/-- A PLL's lock bit clears, or its reference is lost: the record, its lanes OFF, the faults of their Holdings (R498). -/
def pllLost (n : Fin 12) (b : Bool) (s : State) : State :=
  let s := modQuad n (fun x => if b then { x with bLocked := false } else { x with aLocked := false }) s
  let s := record evQuadPllUnlock 0 (BitVec.ofNat 48 (256 * n.val + b2n b)) s
  let ls := pllLanes s n b
  let hs := ((ls.filter fun l => s.lanes[l].enable).map (laneHolding s)).dedup
  let s := eachOf ls laneOff s
  eachOf hs (fun h t => faultHolding h .lane t) s

def execQuadPllUnlock (n : Fin 12) (pll : PllSel) (s : State) : Res :=
  .next (
    let x := s.quads[n]
    match pll with
    | .a => if x.aLocked then pllLost n false s else s
    | .b => if x.bLocked then pllLost n true s else s
    | .ref =>
      if !x.refOk then s else
      let s := modQuad n (fun x => { x with refOk := false }) s
      let s := if x.aLocked || !x.bLocked then pllLost n false s else s
      if x.bLocked then pllLost n true s else s)

/-- A PLL locks: its multiplier is not 0, its reference and the supplies of the lanes are good. -/
def canLock (s : State) (n : Fin 12) (b : Bool) : Bool :=
  let x := s.quads[n]
  (if b then x.pllbM else x.pllaM) != 0 && x.refOk && s.pins.vsd && s.pins.vsdt

def execPllLock (n : Fin 12) (pll : PllSel) (s : State) : Res :=
  .next (
    match pll with
    | .ref => modQuad n (fun x => { x with refOk := true }) s
    | .a =>
      if canLock s n false then
        eachOf (pllLanes s n false) laneEval (modQuad n (fun x => { x with aLocked := true }) s)
      else s
    | .b =>
      if canLock s n true then
        eachOf (pllLanes s n true) laneEval (modQuad n (fun x => { x with bLocked := true }) s)
      else s)

/-! The scrambler 1 + x^39 + x^58, bit 0 first (R457, R462). -/

def scrambleBit (sent : Bool) (r : BitVec 58 × List Bool) (b : Bool) : BitVec 58 × List Bool :=
  let o := xor b (xor (r.1.getLsbD 38) (r.1.getLsbD 57))
  ((r.1 <<< 1) ||| BitVec.ofNat 58 (b2n (if sent then o else b)), o :: r.2)

def wordBits (n v : Nat) : List Bool := (List.range n).map (natBit v)

/-- The scrambled payload and the scrambler's next state; the descrambler feeds the received bits back. -/
def scrambleWith (sent : Bool) (r : BitVec 58) (p : BitVec 64) : BitVec 58 × BitVec 64 :=
  let x := (wordBits 64 p.toNat).foldl (scrambleBit sent) (r, [])
  (x.1, BitVec.ofNat 64 (ofBits x.2.reverse))

/-- Blocks are descrambled in order. -/
def descramble (r : BitVec 58) : List Block → BitVec 58 × List Block
  | [] => (r, [])
  | b :: bs =>
    let x := scrambleWith false r b.payload
    let y := descramble x.1 bs
    (y.1, { b with payload := x.2 } :: y.2)

/-- R460. -/
def invertBlock (on : Bool) (b : Block) : Block := if on then { sh := ~~~ b.sh, payload := ~~~ b.payload } else b

/-- The bits of a block in line order: its header's first bit, its second, its payload from bit 0. -/
def blockBits (b : Block) : List Bool := b.sh.getLsbD 1 :: b.sh.getLsbD 0 :: wordBits 64 b.payload.toNat

def validSh (sh : BitVec 2) : Bool := sh == 0b01#2 || sh == 0b10#2

/-! The PRBS checker (R473, Table 09-3). -/

/-- The two exponents of a pattern's polynomial. -/
def prbsTaps (code : Nat) : Nat × Nat :=
  match code % 8 with
  | 1 => (7, 6)
  | 2 => (9, 5)
  | 3 => (15, 14)
  | 4 => (23, 18)
  | 5 => (31, 28)
  | _ => (0, 0)

/-- One received bit: it loads the register while that is not full, is compared with the register's next bit, and
while locked is counted. -/
def prbsBit (x : Lane) (b0 : Bool) : Lane :=
  let t := prbsTaps x.prbsChk.toNat
  let b := xor b0 (x.prbsChk.getLsbD 7)
  if x.prbsReg.length < t.1 then { x with prbsReg := b :: x.prbsReg, prbsMatch := 0 } else
  let want := xor ((x.prbsReg[t.1 - 1]?).getD false) ((x.prbsReg[t.2 - 1]?).getD false)
  let reg := want :: x.prbsReg.take (t.1 - 1)
  let bad := b != want
  if x.prbsLocked then
    let w := (bad :: x.prbsWindow).take 64
    let x := { x with
      prbsReg := reg, prbsWindow := w, prbsBits := satAdd x.prbsBits 1,
      prbsErrors := satAdd x.prbsErrors (b2n bad) }
    if 32 ≤ (w.filter id).length then
      { x with prbsLocked := false, prbsReg := [], prbsMatch := 0, prbsWindow := [] }
    else x
  else if bad then { x with prbsReg := [b], prbsMatch := 0 }
  else if x.prbsMatch + 1 = 64 then
    { x with prbsReg := reg, prbsMatch := 0, prbsLocked := true, prbsWindow := [] }
  else { x with prbsReg := reg, prbsMatch := x.prbsMatch + 1 }

def checking (x : Lane) : Bool := x.prbsChk.toNat % 8 != 0

def prbsFeed (l : Fin 48) (bits : List Bool) (s : State) : State :=
  modLane l (fun x => if checking x then bits.foldl prbsBit x else x) s

/-- A pattern code of Table 09-3, bits [6:3] 0. -/
def prbsOk (v : Byte) : Bool := v.toNat % 128 ≤ 5

def execPrbsGenWrite (rq : Req) (l : Fin 48) (v : Byte) (s : State) : Res :=
  .next (writeReq rq (lix l) 0x09 true (prbsOk v) (fun _ => none)
    (fun s => (modLane l (fun x => { x with prbsGen := v }) s, bellNow s)) s)

/-- R474. A change of pattern loads the checker anew. -/
def execPrbsChkWrite (rq : Req) (l : Fin 48) (v : Byte) (s : State) : Res :=
  .next (writeReq rq (lix l) 0x0A true (prbsOk v) (fun _ => none)
    (fun s => (modLane l (fun x =>
      let z := v.toNat % 8 != 0
      { x with
        prbsChk := v, prbsBits := if z then 0 else x.prbsBits, prbsErrors := if z then 0 else x.prbsErrors,
        prbsLocked := false, prbsReg := [], prbsMatch := 0, prbsWindow := [] }) s, bellNow s)) s)

/-- Received bits reach the checker, which locks when it has seen 64 in a row that match. -/
def execPrbsLock (l : Fin 48) (bits : List Bool) (s : State) : Res :=
  .next (if s.lanes[l].st == .off then s else prbsFeed l bits s)

/-- Received bits reach the checker, which loses its lock at 32 mismatches of 64. -/
def execPrbsLockLoss (l : Fin 48) (bits : List Bool) (s : State) : Res :=
  .next (if s.lanes[l].st == .off then s else prbsFeed l bits s)

/-! Receive (R463 to R466, R470, R471). -/

/-- The item mechanism of the receive attachment: an item of the lane enters its queue, or is discarded and counted. -/
def laneReceive (l : Fin 48) (it : Item) (s : State) : State :=
  match queueFrom s (laneRxCode l) with
  | some q => if carries s.queues[q] then stageItem q it s
      else modLane l (fun x => { x with rxDiscarded := satAdd x.rxDiscarded 1 }) s
  | none => modLane l (fun x => { x with
      rxDiscarded := satAdd x.rxDiscarded 1, creditOut := if x.limvaMode then x.creditOut + 1 else x.creditOut }) s

/-- An item that the gearbox produces: the receive tap sees it first (R537). -/
def gearboxItem (l : Fin 48) (it : Item) (s : State) : State := laneReceive l it (showTap 2 l.val (.item it) s)

def invalids (w : List Bool) : Nat := (w.filter id).length

/-- One sync header: counted while locked; 16 invalid of 64 lose the lock; 64 valid in a row gain it. -/
def headerStep (x : Lane) (sh : BitVec 2) : Lane :=
  if x.blockLocked then
    let w := ((!validSh sh) :: x.shWindow).take 64
    { x with
      shWindow := if 16 ≤ invalids w then [] else w, blockLocked := invalids w < 16,
      shErrors := if validSh sh then x.shErrors else satAdd x.shErrors 1 }
  else if !validSh sh then { x with shWindow := [] }
  else if x.shWindow.length = 63 then { x with shWindow := [], blockLocked := true }
  else { x with shWindow := false :: x.shWindow }

/-- The four items of a group (R464, R465). -/
def groupItems (bs : List Block) : List Item :=
  let p := ofLe (bs.map fun b => leBytes 8 b.payload.toNat).flatten
  (List.range 4).map fun j =>
    let sh := ((bs[j]?).map (·.sh)).getD 0b01#2
    mkItem (j == 0) (j == 3) (sh == 0b10#2) (!validSh sh) (BitVec.ofNat 48 (p / 2 ^ (48 * j)))

/-- A group reaches the gearbox. A loss of block lock within it takes the lane down and discards it. -/
def receiveGroup (l : Fin 48) (bs : List Block) (s : State) : State :=
  let x := s.lanes[l]
  if x.st != .up then s
  else if checking x then prbsFeed l (bs.map blockBits).flatten s
  else if !coded x then s
  else
    let locked := x.blockLocked
    let d := descramble x.rxScr bs
    let s := modLane l (fun x => { (bs.map (·.sh)).foldl headerStep x with rxScr := d.1 }) s
    if !locked then s
    else if !s.lanes[l].blockLocked then laneLost l true s
    else if x.limvaMode then s
    else eachOf (groupItems d.2) (gearboxItem l) s

/-- Blocks that a loop-back returns, group by group. -/
def loopBlocks (l : Fin 48) (bs : List Block) (s : State) : State :=
  let all := s.lanes[l].part ++ bs
  if all.length < 3 then modLane l (fun x => { x with part := all }) s
  else receiveGroup l (all.take 3) (modLane l (fun x => { x with part := all.drop 3 }) s)

/-- The receive pins are ignored under FABRIC, NEAR_PCS and NEAR_PMA (Table 09-4). -/
def pinsReach (x : Lane) : Bool := x.loopback == 0 || x.loopback == 4

def txBlock (l : Fin 48) (b : Block) (s : State) : State :=
  let b := invertBlock (s.lanes[l].polarity.getLsbD 0) b
  emit (.laneBlock l b.sh b.payload) s

def farEcho (l : Fin 48) (bs : List Block) (s : State) : State :=
  if s.lanes[l].loopback == 4 then eachOf bs (txBlock l) s else s

def execRxGroup (l : Fin 48) (b0 b1 b2 : Block) (s : State) : Res :=
  .next (
    let x := s.lanes[l]
    let bs := [b0, b1, b2].map (invertBlock (x.polarity.getLsbD 1))
    if x.st == .up && pinsReach x then receiveGroup l bs (farEcho l bs s) else s)

/-- A word of a raw lane: one item with LAST set (R470). -/
def receiveRaw (l : Fin 48) (w : Word) (s : State) : State :=
  let x := s.lanes[l]
  if x.st != .up || coded x then s
  else if checking x then prbsFeed l (wordBits 48 w.toNat) s
  else gearboxItem l (mkItem true true false false w) s

def txRaw (l : Fin 48) (w : Word) (s : State) : State :=
  emit (.laneRaw l (if s.lanes[l].polarity.getLsbD 0 then ~~~ w else w)) s

def execRawRxWord (l : Fin 48) (w : Word) (s : State) : Res :=
  .next (
    let x := s.lanes[l]
    let w := if x.polarity.getLsbD 1 then ~~~ w else w
    if x.st == .up && pinsReach x && !coded x then
      receiveRaw l w (if x.loopback == 4 then txRaw l w s else s)
    else s)

/-! Transmit (R461, R467 to R472, R475, R496). -/

/-- The queue that the lane's transmit endpoint consumes, when its items may be taken. -/
def txQueue (s : State) (l : Fin 48) : Option (Fin 256) :=
  (queueTo s (laneTxCode l)).filter fun q => delivers s q

/-- Items of the first packet, when it lies released in the queue. -/
def packetLen (x : Queue) : Nat := ((x.items.take x.vis).findIdx fun c => itLast c.it) + 1

/-- The transmit attachment takes the item offered: the transmit tap sees it (R537). -/
def laneTake (l : Fin 48) (q : Fin 256) (s : State) : State :=
  match offered s.queues[q] with
  | some it => takeItem q (showTap 3 l.val (.item it) s)
  | none => s

def takeItems (l : Fin 48) (q : Fin 256) (n : Nat) (s : State) : State :=
  eachOf (List.range n) (fun _ t => laneTake l q t) s

/-- What cannot be a group is discarded and counted, until a packet of four stands at the head or nothing does (R468). -/
def discardOdd (l : Fin 48) (q : Fin 256) : Nat → State → State
  | 0, s => s
  | n + 1, s =>
    match offered s.queues[q] with
    | none => s
    | some it =>
      if it.getLsbD 51 && packetLen s.queues[q] = 4 then s
      else discardOdd l q n
        (modLane l (fun x => { x with txDiscarded := satAdd x.txDiscarded 1 }) (laneTake l q s))

/-- The four items of a whole group that is ready. -/
def readyGroup (x : Queue) : Option (List Item) :=
  match offered x with
  | some it =>
    if it.getLsbD 51 && packetLen x = 4 && 4 ≤ min x.buf x.vis then some ((x.items.take 4).map (·.it)) else none
  | none => none

/-- The three blocks of a group (R464, R467). -/
def groupBlocks (its : List Item) : List Block :=
  let p := ofBits ((its.map fun it => wordBits 48 (itData it).toNat).flatten)
  (List.range 3).map fun j =>
    let it := (its[j]?).getD 0
    { sh := if itMark it then 0b10#2 else if itBad it then 0b00#2 else 0b01#2,
      payload := BitVec.ofNat 64 (p / 2 ^ (64 * j)) }

/-- Blocks leave the coder scrambled; NEAR_PCS and NEAR_PMA return them to the receiver as well. -/
def sendBlock (l : Fin 48) (b : Block) (s : State) : State :=
  let x := scrambleWith true s.lanes[l].txScr b.payload
  let s := modLane l (fun y => { y with txScr := x.1 }) s
  let b := { b with payload := x.2 }
  let s := txBlock l b s
  if s.lanes[l].loopback == 2 || s.lanes[l].loopback == 3 then loopBlocks l [b] s else s

def fillBlock (s : State) (l : Fin 48) : Block := { sh := 0b10#2, payload := s.lanes[l].txFill }

/-- One block boundary of a coded lane: a group, or one fill block (R467 to R469). -/
def txCoded (l : Fin 48) (s : State) : State :=
  match txQueue s l with
  | none => sendBlock l (fillBlock s l) s
  | some q =>
    let s := discardOdd l q 64 s
    match readyGroup s.queues[q] with
    | some its => eachOf (groupBlocks its) (sendBlock l) (takeItems l q 4 s)
    | none => sendBlock l (fillBlock s l) s

def sendRaw (l : Fin 48) (w : Word) (s : State) : State :=
  let s := txRaw l w s
  if s.lanes[l].loopback == 2 || s.lanes[l].loopback == 3 then receiveRaw l w s else s

/-- Markers at the head of a raw lane's queue are discarded and counted (R468, R470). -/
def dropMarkers (l : Fin 48) (q : Fin 256) : Nat → State → State
  | 0, s => s
  | n + 1, s =>
    match offered s.queues[q] with
    | some it =>
      if isMarker it then
        dropMarkers l q n (modLane l (fun x => { x with txDiscarded := satAdd x.txDiscarded 1 }) (laneTake l q s))
      else s
    | none => s

def rawFill (s : State) (l : Fin 48) : Word := s.lanes[l].txFill.setWidth 48

/-- One word of a raw lane (R470). -/
def txRawWord (l : Fin 48) (s : State) : State :=
  match txQueue s l with
  | none => sendRaw l (rawFill s l) s
  | some q =>
    let s := dropMarkers l q 64 s
    match offered s.queues[q] with
    | some it => sendRaw l (itData it) (laneTake l q s)
    | none => sendRaw l (rawFill s l) s

/-- FABRIC: what the transmit attachment takes enters the receive attachment; the pins carry fill. -/
def txFabric (l : Fin 48) (s : State) : State :=
  let s := if s.lanes[l].st == .off then s
    else if coded s.lanes[l] then txBlock l (fillBlock s l) s else txRaw l (rawFill s l) s
  match txQueue s l with
  | none => s
  | some q =>
    match offered s.queues[q] with
    | some it => laneReceive l it (laneTake l q s)
    | none => s

/-- The transmit attachment accepts items: no PRBS pattern and no FAR loop-back (R472, R475, R496). -/
def txAccepts (x : Lane) : Bool := x.prbsGen.toNat % 8 == 0 && x.loopback != 4

def execTxGroup (l : Fin 48) (s : State) : Res :=
  .next (
    let x := s.lanes[l]
    if !txAccepts x then s
    else if x.loopback == 1 then txFabric l s
    else if x.st == .off || x.limvaMode then s
    else if x.b66 then txCoded l s
    else txRawWord l s)

/-! Loop-backs and modes. -/

/-- NEAR_PMA and FAR: a change to or from them retrains (R476). -/
def retrains (v : Byte) : Bool := v == 3 || v == 4

def execLoopbackWrite (rq : Req) (l : Fin 48) (v : Byte) (s : State) : Res :=
  .next (writeReq rq (lix l) 0x08 true (v.toNat ≤ 4) (fun _ => none)
    (fun s =>
      let x := s.lanes[l]
      let t := modLane l (fun x => { x with loopback := v }) s
      (if x.loopback != v && (retrains v || retrains x.loopback) && x.st == .up then laneLost l false t
        else modLane l (fun x => { x with part := [] }) t, bellNow s)) s)

/-- The lane is an endpoint of a bound queue (R495). -/
def laneBoundEnd (s : State) (l : Fin 48) : Bool :=
  (queueFrom s (laneRxCode l)).isSome || (queueTo s (laneTxCode l)).isSome

/-- A RUNNING unit taps the lane (R546). -/
def laneTapped (s : State) (l : Fin 48) : Bool :=
  s.cvus.any fun x => tapSees x (tapCode 2 l.val) || tapSees x (tapCode 3 l.val)

def execLaneModeWrite (rq : Req) (l : Fin 48) (v : Byte) (s : State) : Res :=
  .next (writeReq rq (lix l) 0x03 true (v.toNat ≤ 1)
    (fun s => if laneBoundEnd s l || (v != 0 && laneTapped s l) then some stBusy else none)
    (fun s =>
      let s := modLane l (fun x => { x with limvaMode := v != 0, part := [] }) s
      (if v = 0 then limvaOff l s else limvaInit l s, bellNow s)) s)

/-! Limva frames (R478, R479, Tables 09-5 and 09-6). -/

def kindData : Nat := 0
def kindBell : Nat := 1
def kindInit : Nat := 2
def kindResync : Nat := 3

/-- Header fields. -/
def hdCredit (f : Frame) : BitVec 16 := f.header.extractLsb' 42 16
def hdNak (f : Frame) : Bool := f.header.getLsbD 41
def hdAck (f : Frame) : BitVec 12 := f.header.extractLsb' 29 12
def hdSeq (f : Frame) : BitVec 12 := f.header.extractLsb' 17 12
def hdCount (f : Frame) : Nat := (f.header.extractLsb' 12 5).toNat
def hdKind (f : Frame) : Nat := (f.header.extractLsb' 8 4).toNat

/-- The CRC-32C over the header and body payloads. -/
def frameCrc (header : BitVec 64) (body : List (BitVec 64)) : BitVec 32 :=
  (crc crcP1 ((header :: body).map fun p => leBytes 8 p.toNat).flatten).setWidth 32

def mkFrame (header : BitVec 64) (body : List (BitVec 64)) : Frame :=
  { header, body, trailer := 0#24 ++ (frameCrc header body ++ 0x4D#8) }

def crcGood (f : Frame) : Bool := f.trailer.extractLsb' 8 32 == frameCrc f.header f.body

/-- The frame has the form of its kind. -/
def formGood (f : Frame) : Bool :=
  f.header.extractLsb' 0 8 == 0x4C#8 && f.trailer.extractLsb' 0 8 == 0x4D#8 &&
    (if hdKind f = kindData then hdCount f == f.body.length && hdCount f ≤ 16 else f.body.length == 1)

def bodyItem (p : BitVec 64) : Item := p.setWidth 52

def bodyWord (f : Frame) : BitVec 64 := (f.body[0]?).getD 0

/-- The header that a lane sends: its CREDIT, NAK and ACK. -/
def frameHeader (x : Lane) (seq : BitVec 12) (count kind : Nat) : BitVec 64 :=
  0#6 ++ (x.creditOut ++ (BitVec.ofBool x.nak ++ ((x.expect - 1) ++ (seq ++ (BitVec.ofNat 5 count ++
    (BitVec.ofNat 4 kind ++ 0x4C#8))))))

/-- A frame leaves; a NAK is set in one header only. -/
def sendFrame (l : Fin 48) (seq : BitVec 12) (count kind : Nat) (body : List (BitVec 64)) (s : State) : State :=
  let h := frameHeader s.lanes[l] seq count kind
  emit (.limva l (mkFrame h body)) (modLane l (fun x => { x with nak := false }) s)

/-- The lane's framer reaches the pins: UP, no FABRIC or FAR loop-back, no PRBS pattern. -/
def framerRuns (x : Lane) : Bool := x.limvaMode && x.st == .up && txAccepts x && x.loopback != 1

/-- Replays, in blocks of the slot: the frames from the named one on that still fit (R486). The rest waits for the owner's
next slot. -/
def replayFrames (l : Fin 48) : List (BitVec 12 × List Item) → Nat → State → State × Nat
  | [], n, s => (modLane l (fun x => { x with replayFrom := none }) s, n)
  | f :: fs, n, s =>
    if n < f.2.length + 2 then (modLane l (fun x => { x with replayFrom := some f.1 }) s, n)
    else replayFrames l fs (n - (f.2.length + 2))
      (modLane l (fun x => { x with replays := satAdd x.replays 1 })
        (sendFrame l f.1 f.2.length kindData (f.2.map (·.setWidth 64)) s))

/-- Items that the peer's credits and the replay buffer allow (R487, R493). -/
def limvaRoom (x : Lane) : Nat := min (2048 - (x.sentItems - x.creditIn).toNat) (2048 - replayItems x)

/-- Items released to the lane. -/
def limvaReady (s : State) (l : Fin 48) : Nat :=
  match txQueue s l with
  | some q => min s.queues[q].buf s.queues[q].vis
  | none => 0

/-- One DATA frame of n new items. -/
def newFrame (l : Fin 48) (n : Nat) (s : State) : State :=
  match txQueue s l with
  | some q =>
    if n = 0 then sendFrame l s.lanes[l].seq 0 kindData [] s else
    let its := (s.queues[q].items.take n).map (·.it)
    let seq := s.lanes[l].seq
    let s := sendFrame l seq n kindData (its.map (·.setWidth 64)) (takeItems l q n s)
    modLane l (fun x => { x with
      seq := x.seq + 1, sentItems := x.sentItems + BitVec.ofNat 16 n, replay := x.replay ++ [(seq, its)] }) s
  | none => sendFrame l s.lanes[l].seq 0 kindData [] s

/-- Frames back to back while items and the slot last (R480). -/
def newFrames (l : Fin 48) : Nat → Nat → State → State
  | 0, _, s => s
  | fuel + 1, n, s =>
    let k := min (min 16 (n - 2)) (min (limvaReady s l) (limvaRoom s.lanes[l]))
    if n < 3 || k = 0 then s else newFrames l fuel (n - (k + 2)) (newFrame l k s)

/-- New frames of a slot of which n blocks are left and in which none has been sent: at least one DATA frame (R481). -/
def firstFrames (l : Fin 48) (n : Nat) (s : State) : State :=
  if n < 2 then s
  else if min (n - 2) (min (limvaReady s l) (limvaRoom s.lanes[l])) = 0 then newFrame l 0 s
  else newFrames l 64 n s

/-- A slot of the lane's owner: replays first, then new frames (R480, R481, R486). -/
def limvaSlot (l : Fin 48) (s : State) : State :=
  let x := s.lanes[l]
  if x.limva != .active || !framerRuns x || x.resync.isSome then s else
  let n := blocksIn s l (slotLen s.bell.len s.bell.slot.val)
  match x.replayFrom with
  | some f =>
    let r := replayFrames l (x.replay.dropWhile fun y => y.1 != f) n s
    if r.2 ≠ n then (if r.1.lanes[l].replayFrom.isSome then r.1 else newFrames l 64 r.2 r.1)
    else if r.1.lanes[l].replayFrom.isSome then (if n < 2 then s else newFrame l 0 s)
    else firstFrames l n r.1
  | none => firstFrames l n s

/-- The one frame of slot 15 (R482). -/
def limvaSlot15 (l : Fin 48) (s : State) : State :=
  let x := s.lanes[l]
  if !framerRuns x || blocksIn s l (slotLen s.bell.len 15) < 3 then s else
  match x.limva with
  | .down => s
  | .init =>
    let seen := BitVec.ofBool x.seen
    sendFrame l x.seq 0 kindInit [(0x01#8 ++ (0#1 ++ (seen ++ (BitVec.ofNat 6 l.val ++ Config.serial))))] s
  | .active =>
    match x.resync with
    | some n => modLane l (fun x => { x with resync := none })
        (sendFrame l x.seq 0 kindResync [n.setWidth 64] s)
    | none => sendFrame l x.seq 0 kindBell [s.bell.number.setWidth 64] s

/-- A slot begins at the Limva framers: every ACTIVE lane of the slot's owner (R47, R480). -/
def limvaBoundary (s : State) : State :=
  if s.bell.slot.val = 15 then eachFin 48 limvaSlot15 s
  else eachFin 48 (fun l t =>
    let m : Fin 18 := ⟨6 + (quadOf l).val, by omega⟩
    let o := ((t.slots.maps[m])[t.bell.slot]).toNat
    let h := laneHolding t l
    if o == h.val && (h.val == 0 || t.holdings[h].st == .running) then limvaSlot l t else t) s

/-- The peer's ACK frees the frames that it covers. -/
def ackFrames (ack : BitVec 12) (x : Lane) : Lane :=
  let r := x.replay.dropWhile fun f => (ack - f.1).toNat < 2048
  if r.length = x.replay.length then x
  else { x with replay := r, replayCount := 0 }

/-- A NAK asks for a replay of every frame after ACK (R486). -/
def takeNak (on : Bool) (x : Lane) : Lane :=
  match x.replay with
  | f :: _ => if on && x.replayFrom.isNone then { x with replayFrom := some f.1, replayCount := x.replayCount + 1 } else x
  | [] => x

/-- What every frame with a good trailer tells an ACTIVE lane: CREDIT, ACK and NAK. -/
def heard (f : Frame) (s : State) (x : Lane) : Lane :=
  takeNak (hdNak f) (ackFrames (hdAck f) { x with creditIn := hdCredit f, lastValid := s.bell.edges })

/-- The SEQ lies ahead of the expected one (R485). -/
def seqAhead (x : Lane) (f : Frame) : Bool :=
  let d := (hdSeq f - x.expect).toNat
  d != 0 && d < 2048

/-- A frame of kind k on a lane that takes it: the trailer is checked (R479, R485). -/
def takeFrame (l : Fin 48) (f : Frame) (st : LimvaSt) (k : Nat) (run : State → State) (s : State) : State :=
  let x := s.lanes[l]
  if !(x.limvaMode && x.st == .up && pinsReach x && x.limva == st) then s
  else if !crcGood f then
    modLane l (fun x => { x with crcErrors := satAdd x.crcErrors 1, nak := x.limva == .active }) s
  else if !formGood f || hdKind f != k then s
  else run s

def dataFrame (l : Fin 48) (f : Frame) (s : State) : State :=
  let s := modLane l (heard f s) s
  let x := s.lanes[l]
  if seqAhead x f then modLane l (fun x => { x with nak := true }) s
  else if hdSeq f != x.expect || hdCount f = 0 then s
  else eachOf (f.body.map bodyItem) (laneReceive l) (modLane l (fun x => { x with expect := x.expect + 1 }) s)

def execLimvaDataFrame (l : Fin 48) (f : Frame) (s : State) : Res :=
  .next (takeFrame l f .active kindData (dataFrame l f) s)

def bellFrame (l : Fin 48) (f : Frame) (s : State) : State :=
  let s := modLane l (heard f s) s
  if seqAhead s.lanes[l] f then modLane l (fun x => { x with nak := true }) s else
  let n := (bodyWord f).setWidth 48
  modLane l (fun x => { x with peerBell := n, bellDelta := n - s.bell.number }) s

def execLimvaBellFrame (l : Fin 48) (f : Frame) (s : State) : Res :=
  .next (takeFrame l f .active kindBell (bellFrame l f) s)

/-- ACTIVE by resume: SEQ and replay buffer kept, replay from the peer's ACK + 1. -/
def resume (l : Fin 48) (f : Frame) (s : State) : State :=
  let s := modLane l (fun x =>
    let x := heard f s x
    { x with limva := .active, leftActive := none, nak := false, replayFrom := (x.replay.head?).map (·.1) }) s
  record evLimvaUp (laneHolding s l) (laneDat l) s

/-- ACTIVE by a fresh start: SEQ 0, the replay buffer lost, RESYNC before any DATA. -/
def freshStart (l : Fin 48) (f : Frame) (s : State) : State :=
  let n := replayItems s.lanes[l]
  let s := modLane l (fun x => { x with
    limva := .active, leftActive := none, nak := false, seq := 0, expect := 0, sentItems := hdCredit f,
    creditIn := hdCredit f, lastValid := s.bell.edges, resync := some (BitVec.ofNat 40 (min n (2 ^ 40 - 1))) })
    (dropReplay l s)
  record evLimvaUp (laneHolding s l) (BitVec.ofNat 48 (256 + l.val)) s

def initFrame (l : Fin 48) (f : Frame) (s : State) : State :=
  let b := bodyWord f
  if b.extractLsb' 56 8 != 1#8 then s else
  let x := s.lanes[l]
  let peer := (b.extractLsb' 0 54).setWidth 64
  let same := x.peer == peer && x.leftActive.any fun e => s.bell.edges - e ≤ 1024
  let s := modLane l (fun x => { x with peer, seen := true }) s
  if !b.getLsbD 54 then s
  else if same then resume l f s
  else freshStart l f s

def execLimvaInitFrame (l : Fin 48) (f : Frame) (s : State) : Res :=
  .next (takeFrame l f .init kindInit (initFrame l f) s)

/-- RESYNC: GAP and RECOVERY markers follow the items staged before (R489). -/
def resyncFrame (l : Fin 48) (f : Frame) (s : State) : State :=
  let s := modLane l (heard f s) s
  let n := (bodyWord f).toNat % 2 ^ 40
  match queueFrom s (laneRxCode l) with
  | some q =>
    if carries s.queues[q] then
      commitN q 0 (modQueue q (fun x => { x with staging := x.staging ++ [.mark n s.lanes[l].wasActive] }) s)
    else s
  | none => s

def execLimvaResyncFrame (l : Fin 48) (f : Frame) (s : State) : Res :=
  .next (takeFrame l f .active kindResync (resyncFrame l f) s)

/-- Eight replays of one SEQ, or 64 bells without a valid frame (Table 09-7). -/
def execLimvaDown (l : Fin 48) (s : State) : Res :=
  .next (
    let x := s.lanes[l]
    if x.limva == .active && (8 ≤ x.replayCount || 64 ≤ s.bell.edges - x.lastValid) then leaveActive l s else s)

/-- At an edge: a lane UP in LIMVA mode that is DOWN and fit enters INIT. -/
def limvaEdge (s : State) : State := eachFin 48 limvaInit s

/-! Writes of the lane and quad entries that have no row of their own (R492, R494, R495). -/

/-- The taps of R458, two's complement. -/
def ffeOk (v : Nat) : Bool :=
  let b := fun k => (BitVec.ofNat 8 (v / 2 ^ k)).toInt
  let tap := fun x : Int => -32 ≤ x && x ≤ 31
  tap (b 24) && tap (b 16) && tap (b 0) && 0 ≤ b 8 && b 8 ≤ 63 &&
    (b 24).natAbs + (b 16).natAbs + (b 8).natAbs + (b 0).natAbs ≤ 63

/-- A multiplier and a reference whose products R454 allows. -/
def multOk (khz m : Nat) : Bool :=
  m == 0 || (8 ≤ m && m ≤ 512 && 1250000 ≤ khz * m && khz * m ≤ 56250000)

/-- R453, with the products that its multipliers give. -/
def refOkFor (x : Quad) (v : Nat) : Bool :=
  100000 ≤ v && v ≤ 170000 && multOk v x.pllaM.toNat && multOk v x.pllbM.toNat

/-- A lane entry's written value is in range. -/
def laneValOk (sub v : Nat) : Bool :=
  match sub with
  | 0x02 | 0x04 | 0x07 => v ≤ 1
  | 0x05 => v ≤ 3
  | 0x06 => ffeOk v
  | _ => true

def laneWrite (l : Fin 48) (sub v : Nat) (s : State) : State :=
  match sub with
  | 0x02 => laneEval l (modLane l (fun x => { x with pllB := v != 0 }) s)
  | 0x04 => modLane l (fun x => { x with b66 := v != 0, part := [] }) s
  | 0x05 => modLane l (fun x => { x with polarity := BitVec.ofNat 8 v }) s
  | 0x06 => modLane l (fun x => { x with txFfe := BitVec.ofNat 32 v }) s
  | 0x07 => modLane l (fun x => { x with frozen := v != 0 }) s
  | 0x0D => modLane l (fun x => { x with txFill := BitVec.ofNat 64 v }) s
  | _ => s

def quadLanesOff (s : State) (n : Fin 12) : Bool :=
  (List.finRange 48).all fun l => quadOf l != n || s.lanes[l].st == .off

/-- R494. -/
def quadBusy (s : State) (n : Fin 12) (sub : Nat) : Bool :=
  if sub = 1 then !quadLanesOff s n
  else (pllLanes s n (sub == 3)).any fun l => s.lanes[l].st != .off

end Sys2Proof.Machine
end

