-- ==== Sys2Proof/Machine/Units.lean ====
section
/-! DEFINITION. Check-value units and the HS transfers of boundary gates (10). -/

namespace Sys2Proof.Machine

/-! Computation (R520 to R533). -/

def cvuCrc (x : Cvu) : Crc := crcOf x.poly.toNat

/-- Check items: two for P2, one otherwise. -/
def cvuK (x : Cvu) : Nat := if x.poly = 2 then 2 else 1

/-- The bytes that an item feeds (R522). -/
def cvuBytes (x : Cvu) (it : Item) : List Byte :=
  let n := if x.width = 0 then 1 else if x.width = 1 then 3 else 6
  let b := leBytes n (itData it).toNat
  if x.order = 0 then b else b.reverse

/-- One item is fed; the first SKIP_BYTES bytes of the packet or frame are not (R523). -/
def cvuFeed (x : Cvu) (it : Item) : Cvu :=
  let b := cvuBytes x it
  let k := min b.length (x.skip.toNat - x.skipped)
  { x with reg := (b.drop k).foldl (crcByte (cvuCrc x)) x.reg, skipped := x.skipped + k }

def cvuValue (x : Cvu) : BitVec 64 := crcFinal (cvuCrc x) x.reg

/-- A computation begins. -/
def cvuBegin (x : Cvu) : Cvu :=
  { x with reg := crcInit (cvuCrc x), saved := crcInit (cvuCrc x), skipped := 0, count := 0, held := [], isOpen := true }

/-- A final value is stored (R526). -/
def cvuFinal (x : Cvu) : Cvu := { x with result := cvuValue x, packets := satAdd x.packets 1, isOpen := false }

/-- The items that carry R (R527), the last of them with LAST. -/
def checkItems (x : Cvu) (r : BitVec 64) : List Item :=
  if x.poly = 2 then
    [mkItem false false false false (r.setWidth 48), mkItem false true false false ((r >>> 48).setWidth 48)]
  else [mkItem false true false false (r.setWidth 48)]

/-- The R field that check items hold (R531). -/
def checkField (x : Cvu) (l : List Item) : Nat :=
  let d := fun i : Nat => (((l[i]?).map itData).getD 0).toNat
  if x.poly = 2 then d 0 + d 1 % 2 ^ 16 * 2 ^ 48 else d 0 % 2 ^ (cvuCrc x).width

def cvuMismatch (x : Cvu) : Cvu := { x with mismatches := satAdd x.mismatches 1, bellMiss := x.bellMiss + 1 }

/-- A compare with CVU.EXPECT (R528). -/
def cvuCompare (x : Cvu) : Cvu :=
  if x.expect.toNat % 2 ^ (cvuCrc x).width = x.result.toNat then x else cvuMismatch x

def cvuSnoops (x : Cvu) : Bool := x.mode == 3 || x.mode == 4

/-- The item that rewinds a partial output packet (R544). -/
def cutItem : Item := mkItem false true false true 0

/-- An open computation is abandoned (R544, R545, R549): the item that APPEND and STRIP commit for it. -/
def cvuAbandon (x : Cvu) : Cvu × List Item :=
  if x.isOpen then
    ({ x with isOpen := false, held := [], count := 0, discarded := satAdd x.discarded 1 },
      if x.mode = 5 || x.mode = 6 then [cutItem] else [])
  else (x, [])

/-- What a final value gives: a compare, a result packet, or nothing more under RUNNING. -/
def cvuDone (x : Cvu) : Cvu × List Item :=
  let x := cvuFinal x
  if x.mode = 1 || x.mode = 3 then (cvuCompare x, [])
  else (x, checkItems x x.result)

/-- STRIP: an item of an open packet (R531 to R533). -/
def cvuStrip (x : Cvu) (it : Item) : Cvu × List Item :=
  let k := cvuK x
  let l := x.held ++ [it]
  if !itLast it then
    if l.length ≤ k then ({ x with held := l }, [])
    else
      let a := (l[0]?).getD 0
      ({ cvuFeed x a with held := l.drop 1 }, [a])
  else if l.length ≤ k then ({ x with held := [], isOpen := false, runts := satAdd x.runts 1 }, [])
  else
    let a := (l[0]?).getD 0
    let x := cvuFinal { cvuFeed x a with held := [] }
    if checkField x (l.drop 1) = x.result.toNat then (x, [setLast true a])
    else (cvuMismatch x, [setBad (setLast true a)])

/-- An item of a packet, under PACKET (R525, R530, R540). -/
def cvuPacket (x : Cvu) (it : Item) : Cvu × List Item :=
  if x.dropping then ({ x with dropping := !itLast it }, [])
  else if !x.isOpen && !it.getLsbD 51 then
    if cvuSnoops x then (x, [])
    else ({ x with dropping := !itLast it, discarded := satAdd x.discarded 1 }, [])
  else
    let x := if it.getLsbD 51 then cvuBegin x else x
    if x.mode = 6 then cvuStrip x it
    else
      let x := cvuFeed x it
      if x.mode = 5 then
        if itLast it then
          let x := cvuFinal x
          (x, setLast false it :: checkItems x x.result)
        else (x, [it])
      else if itLast it then cvuDone x
      else (x, [])

/-- An item under COUNT or RUNNING (R525). -/
def cvuStream (x : Cvu) (it : Item) : Cvu × List Item :=
  let x := { cvuFeed x it with count := x.count + 1 }
  if x.boundary = 2 then ({ x with result := cvuValue x }, [])
  else if x.count < x.frameItems.toNat then (x, [])
  else
    let r := cvuDone x
    (cvuBegin r.1, r.2)

/-- One item reaches the unit: its next state and what it commits (R523, R534, R544). -/
def cvuStep (x : Cvu) (it : Item) : Cvu × List Item :=
  if isMarker it then
    if cvuSnoops x then (x, [])
    else
      let r := cvuAbandon { x with dropping := false }
      (r.1, if x.mode = 5 || x.mode = 6 then r.2 ++ [it] else r.2)
  else if x.boundary = 0 then cvuPacket x it
  else cvuStream x it

/-- The open packet left the tapped queue (R536). -/
def cvuRewound (x : Cvu) : Cvu :=
  if x.isOpen then { x with isOpen := false, reg := x.saved, discarded := satAdd x.discarded 1 } else x

/-! The unit and its queues. -/

/-- The unit's output queue takes n items; with none to give it need not. -/
def outputTakes (s : State) (u : Fin 32) (n : Nat) : Bool :=
  n == 0 || (queueFrom s (cvuCode u)).any fun q =>
    carries s.queues[q] && (s.queues[q].discarding || s.queues[q].arrLosing || n ≤ s.queues[q].prodFree)

def commitOut (u : Fin 32) (its : List Item) (s : State) : State :=
  match queueFrom s (cvuCode u) with
  | some q => eachOf its (stageItem q) s
  | none => s

/-- The unit takes its new state; mismatches are counted for the record of R529. -/
def cvuTake (u : Fin 32) (r : Cvu × List Item) (s : State) : State :=
  let n := r.1.bellMiss - s.cvus[u].bellMiss
  let s := commitOut u r.2 (modCvu u (fun _ => r.1) s)
  if n = 0 then s else limited evCvuMismatch u.val n s

/-- The unit's input queue, when it offers an item. -/
def unitOffer (s : State) (u : Fin 32) : Option (Fin 256 × Item) :=
  match queueTo s (cvuCode u) with
  | some q => if delivers s q then (offered s.queues[q]).map fun it => (q, it) else none
  | none => none

def cvuItem (u : Fin 32) (s : State) : State :=
  let x := s.cvus[u]
  if x.st != .running then s
  else if cvuSnoops x then
    match x.taps with
    | .rewind :: l => modCvu u (fun _ => cvuRewound { x with taps := l }) s
    | .item it :: l =>
      let r := cvuStep { x with taps := l } it
      if outputTakes s u r.2.length then cvuTake u r s else s
    | [] => s
  else
    match unitOffer s u with
    | some (q, it) =>
      let r := cvuStep x it
      if outputTakes s u r.2.length then cvuTake u r (takeItem q s) else s
    | none => s

def execCvuItem (u : Fin 32) (s : State) : Res := .next (cvuItem u s)

/-! START and STOP (R535, R539, R545). -/

/-- Table 10-6. -/
def modeAllowed (x : Cvu) : Bool :=
  let kind := x.snoop.toNat / 2 ^ 14
  match x.mode.toNat with
  | 1 | 2 | 5 | 6 => x.boundary == 0
  | 3 => (kind == 1 && x.boundary == 0) || (2 ≤ kind && x.boundary == 1)
  | 4 => (kind == 1 && x.boundary == 0) || (2 ≤ kind && 1 ≤ x.boundary.toNat)
  | _ => false

def needsInput (x : Cvu) : Bool := x.mode == 1 || x.mode == 2 || x.mode == 5 || x.mode == 6

def needsOutput (x : Cvu) : Bool := x.mode == 2 || x.mode == 5 || x.mode == 6 || (x.mode == 4 && x.boundary != 2)

/-- The tap's queue or lane belongs to the unit's owner. -/
def tapOwned (s : State) (u : Fin 32) : Bool :=
  let c := s.cvus[u].snoop.toNat
  if c / 2 ^ 14 = 1 then queueOwner s (Fin.ofNat 256 c) == cvuHolding s u
  else laneHolding s (Fin.ofNat 48 (c % 64)) == cvuHolding s u

/-- The first condition of R539 that fails; a unit in FAULT stays there until CVU.STOP (R549). -/
def cvuRefusal (s : State) (u : Fin 32) : Option Byte :=
  let x := s.cvus[u]
  if x.st == .fault || !modeAllowed x then some stNotReady
  else if needsInput x && (queueTo s (cvuCode u)).isNone then some stNotReady
  else if needsOutput x && (queueFrom s (cvuCode u)).isNone then some stNotReady
  else if !cvuSnoops x then none
  else if !tapOwned s u then some stDenied
  else if (List.finRange 32).any fun v => v != u && tapSees s.cvus[v] x.snoop then some stBusy
  else none

/-- A unit starts. -/
def cvuStarted (x : Cvu) : Cvu :=
  let y := { cvuBegin x with st := .running, dropping := false, taps := [], isOpen := x.boundary == 1 }
  if x.boundary = 2 then { y with result := cvuValue y } else y

def execCvuStart (rq : Req) (u : Fin 32) (s : State) : Res :=
  .next (invokeReq rq (cix u) 0x0A true (fun _ s => cvuRefusal s u)
    (fun _ s => (modCvu u cvuStarted s, some (stOk, bellNow s))) s)

/-- What is open when the unit stops: under COUNT a frame that has taken an item. -/
def openAtStop (x : Cvu) : Bool := x.isOpen && (x.boundary != 1 || x.count != 0)

/-- STOP (R545, R554). -/
def cvuStop (u : Fin 32) (s : State) : State :=
  let x := s.cvus[u]
  if x.st == .running then
    let r := cvuAbandon { x with isOpen := openAtStop x }
    let s := modCvu u (fun _ => { r.1 with st := .idle, dropping := false, taps := [] }) s
    if outputTakes s u r.2.length then commitOut u r.2 s else s
  else modCvu u (fun x => { x with st := .idle }) s

def execCvuStop (rq : Req) (u : Fin 32) (s : State) : Res :=
  .next (invokeReq rq (cix u) 0x0B true (fun _ _ => none)
    (fun _ s => (cvuStop u s, some (stOk, bellNow s))) s)

/-- R549. -/
def execCvuFault (u : Fin 32) (s : State) : Res :=
  .next (
    let x := s.cvus[u]
    if x.st != .running then s else
    let r := cvuAbandon { x with isOpen := openAtStop x }
    let s := modCvu u (fun _ => { r.1 with st := .fault, taps := [] }) s
    let h := cvuHolding s u
    faultHolding h .cvu (record evCvuFault h (BitVec.ofNat 48 u.val) s))

/-- A unit leaves a Holding (R555). -/
def unitLeaves (u : Fin 32) (s : State) : State := modCvu u (fun _ => Cvu.reset) (cvuStop u s)

/-- At an edge: the event of the mismatches found in the bell that ended (R529). -/
def cvuEdge (u : Fin 32) (s : State) : State :=
  let n := s.cvus[u].bellMiss
  if n = 0 then s else
  mailbox evCvuMismatch (cvuHolding s u) (datTop u.val (min n (2 ^ 32 - 1)))
    (modCvu u (fun x => { x with bellMiss := 0 }) s)

/-! Writes of the unit entries (R535, R542). -/

def snoopOk (v : Nat) : Bool :=
  let kind := v / 2 ^ 14
  v / 256 % 64 == 0 && (kind < 2 || v % 256 < 48)

def cvuValOk (sub v : Nat) : Bool :=
  match sub with
  | 0x01 => v ≤ 3
  | 0x02 => v ≤ 6
  | 0x03 => v ≤ 2
  | 0x04 => v ≤ 1
  | 0x05 => v ≤ 2
  | 0x06 => 1 ≤ v && v ≤ 65536
  | 0x07 => snoopOk v
  | _ => true

def cvuWrite (u : Fin 32) (sub v : Nat) (s : State) : State :=
  modCvu u (fun x =>
    match sub with
    | 0x01 => { x with poly := BitVec.ofNat 8 v }
    | 0x02 => { x with mode := BitVec.ofNat 8 v }
    | 0x03 => { x with width := BitVec.ofNat 8 v }
    | 0x04 => { x with order := BitVec.ofNat 8 v }
    | 0x05 => { x with boundary := BitVec.ofNat 8 v }
    | 0x06 => { x with frameItems := BitVec.ofNat 32 v }
    | 0x07 => { x with snoop := BitVec.ofNat 16 v }
    | 0x08 => { x with expect := BitVec.ofNat 64 v }
    | 0x11 => { x with skip := BitVec.ofNat 8 v }
    | _ => x) s

/-! HS transfers (R510, R550, R551). -/

/-- The Plot's island supply is good. -/
def islandGood (x : Plot) : Bool := x.regOn && !x.undervolt && !x.overcur

/-- A configuration write into a Plot lands with its check bits (R792); a value for a queue or a unit is the one that its
entry already shows. -/
def execHsTransfer (t : HsTarget) (s : State) : Res :=
  .next (
    match t with
    | .plotCfg p addr v =>
      if islandGood s.plots[p] then
        modPlot p (fun x => { x with config := memSet x.config addr.toNat (secWord v) }) s
      else s
    | .queueReg _ => s
    | .cvuReg _ => s)

def execGateHsTimeout (crossing : BitVec 16) (plot : Option (Fin 64)) (s : State) : Res :=
  .next (
    let s := { s with gates := { s.gates with hsTimeouts := satAdd s.gates.hsTimeouts 1 } }
    match plot with
    | some p => setUnfit p (record evGateHsTimeout 0 (datTop p.val crossing.toNat) s)
    | none => deviceFatal [.hsTimeout] (record evGateHsTimeout 0 (datTop 0 crossing.toNat) s))

end Sys2Proof.Machine
end

