-- ==== Sys2Proof/Machine/Serial.lean ====
section
/-! DEFINITION. The Serial Select Ports (11): SSP1 as master, CHAIN stage and CMD slave, and the flash window of SSP0. -/

namespace Sys2Proof.Machine

/-! SSP1 as master (R563 to R567, R600, R604). -/

def xferLength (s : State) : Nat := s.ssp.xferCtrl.toNat % 2 ^ 17

/-- The first n bits of a buffer; the rest of its last byte is 0. -/
def firstBits (n : Nat) (b : List Byte) : List Byte :=
  let whole := bytesAt b 0 (n / 8)
  if n % 8 = 0 then whole
  else whole ++ [((b[n / 8]?).getD 0) &&& BitVec.ofNat 8 (256 - 2 ^ (8 - n % 8))]

def execSsp1Xfer (rq : Req) (s : State) : Res :=
  .next (invokeReq rq 0x6200 0x19 true
    (fun _ s => if s.ssp.slave || s.ssp.xferBusy || chainOwned s then some stBusy else none)
    (fun _ s =>
      let s := modSsp (fun x => { x with xferBusy := true, xferRq := some rq }) s
      (emit (.sspSend true (firstBits (xferLength s) s.ssp.xferTx)) s, none)) s)

/-- The transfer of SSP1 ends: the receive buffer holds the first n bits received. -/
def xferEnd (n : Nat) (rx : List Byte) (st : Byte) (s : State) : State :=
  let rq := s.ssp.xferRq
  invokeDone rq st (bellNow s)
    (modSsp (fun x => { x with xferBusy := false, xferRq := none, xferRx := firstBits n rx }) s)

/-- LENGTH clocks have run and the select is released. -/
def execSspTransferEnd (inst : Bool) (rx : List Byte) (s : State) : Res :=
  .next (if inst && s.ssp.xferBusy then xferEnd (xferLength s) rx stOk s else s)

/-- RDY stays low past its limit (R604); under CHAIN the engine ignores RDY (R566). -/
def execSspRdyTimeout (inst : Bool) (bitsDone : Nat) (rx : List Byte) (s : State) : Res :=
  .next (
    if inst then
      if !s.ssp.xferBusy || s.ssp.chain then s else
      let s := modSsp (fun x => { x with errors := satAdd x.errors 1 }) s
      let s := record evSspRdyTimeout 0 1 s
      xferEnd (min bitsDone (xferLength s)) rx stSspTimeout s
    else record evSspRdyTimeout 0 0 (modSsp (fun x => { x with flashErrors := satAdd x.flashErrors 1 }) s))

/-! SSP1 as a CHAIN stage (R568 to R571). -/

/-- Bits of bytes, most significant first. -/
def bitsOf (b : List Byte) : List Bool := (b.map fun x => (List.range 8).map fun i => x.getLsbD (7 - i)).flatten

/-- Bytes of bits, most significant first. -/
def bytesOf (l : List Bool) : List Byte :=
  (List.range (l.length / 8)).map fun i => BitVec.ofNat 8 (ofBits ((l.drop (8 * i)).take 8).reverse)

def chainB (s : State) : Nat := s.ssp.chainBits.toNat

def isChainSlave (s : State) : Bool := s.ssp.slave && s.ssp.chain

/-! SSP1 as a CMD slave (R572 to R584, R607, R610). -/

/-- The slave answers once VREEVE and VAUX18 are good (R610). -/
def isCmdSlave (s : State) : Bool := s.ssp.slave && !s.ssp.chain && s.pins.vreeve && s.pins.vaux18

/-- Table 11-5. -/
def sspStatus (s : State) : Byte :=
  BitVec.ofNat 8 (ofBits [s.ssp.respReady, !s.ssp.notices.isEmpty, s.ssp.reqBusy, s.pins.corePowerGood,
    s.dev.fatal || bootHalted s, s.ssp.refused, s.ssp.badLength])

/-- Block 0x00 (Table 11-4). -/
def controlBlock (s : State) : List Byte :=
  [sspStatus s, 0] ++ beBytes 2 s.ssp.respLen ++ beBytes 2 ((s.ssp.notices.head?).map (·.length) |>.getD 0) ++ [0, 0] ++
    beBytes 6 s.bell.number.toNat ++ [0, 0] ++ [0, 0] ++ [0] ++ List.replicate 5 0 ++ beBytes 4 0x14896A3D ++
    beBytes 2 0x4896 ++ [0x56] ++ List.replicate 33 0

/-- The bytes of a block (Table 11-3); its size. -/
def sspBlock (s : State) (block : Nat) : List Byte :=
  match block with
  | 0 => controlBlock s
  | 2 => padTo 2048 (if s.ssp.respReady then s.ssp.response else [])
  | 3 => padTo 2048 ((s.ssp.notices.head?).getD [])
  | _ => List.replicate 2048 0

def blockSize (block : Nat) : Nat := if block = 0 then 64 else 2048

def reservedBlock (block : BitVec 7) : Bool := 4 ≤ block.toNat

def sspError (s : State) : State := modSsp (fun x => { x with errors := satAdd x.errors 1 }) s

/-- A CMD read: STATUS, two zero bytes, then n bytes from the address, which wraps at the block's size (R573, R574). -/
def execSsp1CmdRead (block : BitVec 7) (addr : BitVec 16) (n : Nat) (s : State) : Res :=
  .next (
    if !isCmdSlave s then s else
    let b := sspBlock s block.toNat
    let m := blockSize block.toNat
    let data := (List.range n).map fun i => (b[(addr.toNat + i) % m]?).getD 0
    let s := emit (.sspSend true ([sspStatus s, 0, 0] ++ data)) s
    if reservedBlock block then sspError s else s)

/-- A SUBMIT of the given length (R579, R580); in BOOT_HALT every one is refused (R747). -/
def sspSubmit (len : Nat) (s : State) : State :=
  let refused := s.ssp.reqBusy || s.ssp.respReady || bootHalted s
  let bad := len = 0 || 2048 < len
  if refused || bad then
    modSsp (fun x => { x with refused := x.refused || refused, badLength := x.badLength || bad }) s
  else modSsp (fun x => { x with reqBusy := true, requests := x.requests ++ [padTo len x.request] }) s

def sspAckResponse (s : State) : State := modSsp (fun x => { x with respReady := false, respLen := 0 }) s

def sspAckNotice (s : State) : State := modSsp (fun x => { x with notices := x.notices.drop 1 }) s

/-- One byte written to block 0x00. -/
def controlWrite (a : Nat) (b : Byte) (s : State) : State :=
  if a = 0 then
    modSsp (fun x => { x with badLength := x.badLength && !b.getLsbD 6, refused := x.refused && !b.getLsbD 5 }) s
  else if a = 0x10 then modSsp (fun x => { x with submitHi := some b }) s
  else if a = 0x11 then
    match s.ssp.submitHi with
    | some hi => sspSubmit (hi.toNat * 256 + b.toNat) (modSsp (fun x => { x with submitHi := none }) s)
    | none => s
  else if a = 0x12 then
    let s := if b.getLsbD 0 then sspAckResponse s else s
    if b.getLsbD 1 then sspAckNotice s else s
  else s

/-- One byte written to a block (R576). -/
def blockWrite (block a : Nat) (b : Byte) (s : State) : State :=
  if block = 0 then controlWrite a b s
  else if block = 1 then modSsp (fun x => { x with request := bytesPut (padTo 2048 x.request) a [b] }) s
  else s

/-- A CMD write; `cut` when the select is released within a byte. -/
def execSsp1CmdWrite (block : BitVec 7) (addr : BitVec 16) (bytes : List Byte) (cut : Bool) (s : State) : Res :=
  .next (
    if !isCmdSlave s then s else
    let s := modSsp (fun x => { x with submitHi := none }) s
    let m := blockSize block.toNat
    let s := eachOf bytes.zipIdx (fun x t => blockWrite block.toNat ((addr.toNat + x.2) % m) x.1 t) s
    let s := modSsp (fun x => { x with submitHi := none }) s
    let s := if reservedBlock block then sspError s else s
    if cut then sspError s else s)

def execSsp1Submit (len : BitVec 16) (s : State) : Res :=
  .next (if isCmdSlave s then sspSubmit len.toNat s else s)

def execSsp1AckResponse (s : State) : Res := .next (if isCmdSlave s then sspAckResponse s else s)

def execSsp1AckNotice (s : State) : Res := .next (if isCmdSlave s then sspAckNotice s else s)

/-- The select is released within a header. -/
def execSsp1Frame (s : State) : Res := .next (if isCmdSlave s then limited evSsp1Frame 0 1 (sspError s) else s)

/-! The flash window (R587 to R593, R598, R605). -/

/-- R587: the 32-byte aligned block that holds the address. -/
def execFlashWindowRead (addr : BitVec 26) (s : State) : Res :=
  .next (flashPush (.read (addr.toNat / 32 * 32)) s)

/-- The first byte of a slot (Table 14-9). -/
def slotBase (b : Bool) : Nat := if b then 0x1100000 else 0x100000

def overlaps (a n lo hi : Nat) : Bool := decide (a < hi) && decide (lo < a + n)

/-- Bytes that no window program or erase may touch (R703, R708): the booted slot once its stage 1 has been verified, and
the reserved and unused ranges. -/
def flashProtected (s : State) (a n : Nat) : Bool :=
  let base := slotBase s.boot.bootedB
  (s.boot.phase != .atReset && overlaps a n base (base + 0x1000000)) ||
    overlaps a n 0x2000 0x100000 || overlaps a n 0x2900000 0x4000000

/-- A window operation on a protected range is refused. -/
def guarded (a n : Nat) (o : FlashOp) (s : State) : State :=
  if flashProtected s a n then record evFlashRejected 0 (BitVec.ofNat 48 a) s else flashPush o s

/-- R588. -/
def execFlashWindowWrite (addr : BitVec 26) (bytes : List Byte) (s : State) : Res :=
  .next (
    if bytes.isEmpty then s else guarded addr.toNat bytes.length (.program addr.toNat bytes .window) s)

/-- R589: an erase aligned to its size. -/
def execFlashErase (addr : BitVec 26) (big : Bool) (s : State) : Res :=
  .next (
    let n := if big then 65536 else 4096
    if addr.toNat % n = 0 then guarded addr.toNat n (.erase addr.toNat n) s else s)

/-- The operation in progress fails. -/
def failOp (o : FlashOp) (e : Ev) (s : State) : State :=
  let s := record e 0 (datTop 0 (flashOpAddr o)) s
  let s := modSsp (fun x => { x with flashErrors := satAdd x.flashErrors 1, op := none }) s
  flashStart (wakeStore (flashFailed o s))

/-- A page has been programmed and read back: the next page follows, or what waited for the whole. -/
def pageDone (a : Nat) (b : List Byte) (k : FlashCont) (s : State) : State :=
  let n := pageLen a b
  let s := modSsp (fun x => { x with
    flash := flashProgram x.flash a (b.take n), programs := satAdd x.programs 1, op := none }) s
  if n < b.length then
    flashStart (modSsp (fun x => { x with ops := .program (a + n) (b.drop n) k :: x.ops }) s)
  else flashStart (wakeStore (flashDone k s))

/-- A status byte that shows the operation ended (R590 to R593). -/
def opEnded (o : FlashOp) (rejected : Bool) (readBack : List Byte) (s : State) : State :=
  if rejected then failOp o evFlashRejected s else
  match o with
  | .program a b k =>
    let n := pageLen a b
    let got := padTo n readBack
    let s := emit (.flashCmd ([if a < 0x1000000 then 0x03 else 0x13] ++ flashAddr a)) s
    if got = b.take n then pageDone a b k s
    else failOp o evFlashVerify (modSsp (fun x => { x with flash := flashSet x.flash a got }) s)
  | .erase a n =>
    flashStart (modSsp (fun x => { x with
      flash := flashWipe x.flash a n, erases := satAdd x.erases 1, op := none }) s)
  | .read _ => s

/-- A status poll: the flash's status byte and, when the operation has ended, what a read-back of the page reads. -/
def execFlashStatusPoll (status : Byte) (readBack : List Byte) (s : State) : Res :=
  .next (
    match s.ssp.op with
    | some o =>
      let s := emit (.flashCmd [0x05]) s
      if status.getLsbD 0 then s else opEnded o (status.getLsbD 1) readBack s
    | none =>
      if !s.ssp.writeBusy then s else
      let s := emit (.flashCmd [0x05]) s
      if status.getLsbD 0 then s
      else flashStart (modSsp (fun x => { x with writeBusy := false, flashReady := true }) s))

/-- Polling has run past the limits of R597. -/
def execFlashTimeout (s : State) : Res :=
  .next (
    match s.ssp.op with
    | none => s
    | some o => failOp o evFlashTimeout (modSsp (fun x => { x with writeBusy := true, flashReady := false }) s))

/-! Writes of the SSP entries (R594, R599, R601). -/

/-- In range (Table 11-7); for the XFER buffers and CHAIN_TX, see their lengths. -/
def sspValOk (sub v : Nat) : Bool :=
  match sub with
  | 0x01 => v % 2 == 0 && 8 ≤ v && v ≤ 4000
  | 0x10 | 0x11 => v ≤ 1
  | 0x12 => v % 2 == 0 && 16 ≤ v && v ≤ 4000
  | 0x13 => v ≤ 15
  | 0x14 => v % 8 == 0 && 8 ≤ v && v ≤ 4096
  | 0x15 => 1 ≤ v
  | 0x16 =>
    let n := v % 2 ^ 17
    1 ≤ n && n ≤ 65536
  | _ => true

def sspBusy (s : State) (sub : Nat) : Bool :=
  0x10 ≤ sub && sub ≤ 0x14 && (s.ssp.xferBusy || s.ssp.selected || chainOwned s)

/-- The volatile SSP entries: reserved bits of XFER_CTRL read 0. -/
def sspWrite (sub off : Nat) (v : Val) (s : State) : State :=
  match sub with
  | 0x16 => modSsp (fun x => { x with xferCtrl := BitVec.ofNat 32 (valNum v) &&& 0x0301FFFF }) s
  | 0x17 => modSsp (fun x => { x with xferTx := bytesPut (padTo 8192 x.xferTx) off (valBytesOf v) }) s
  | 0x1E => modSsp (fun x => { x with chainTx := bytesPut (padTo 512 x.chainTx) off (valBytesOf v) }) s
  | _ => s

end Sys2Proof.Machine
end

