-- ==== Sys2Proof/Machine/Holdings.lean ====
section
/-! DEFINITION. Holdings (06): placement, masks and quotas, the actions and their edges, doze and wake, islands and
regulators, Hedge checks, and the end of clearing. -/

namespace Sys2Proof.Machine

/-! What an action is judged against (R321, R374). -/

structure Judged where
  st : HState
  fr : FreezeState
  sn : SnapState
deriving DecidableEq, Repr

/-- The state that one pending action will produce at its edge. -/
def judgeTrans (pre : HState) (j : Judged) (t : Trans) : Judged :=
  match t.kind with
  | .start | .resume => { j with st := .running, fr := .none }
  | .quiesce => { j with st := .quiesced }
  | .forceStop => { j with st := .quiesced, fr := .forced }
  | .freeze => { j with fr := .attempt }
  | .snapshot => { j with sn := .snapshotting }
  | .restore => { j with sn := .restoring }
  | .load => { j with st := .loading }
  | .loadDone => { j with st := .ready }
  | .doze => { j with st := .dozing }
  | .wake => { j with st := pre }
  | .reset => { st := .ready, fr := .none, sn := .idle }
  | .clear => { j with st := .clearing }

def judged (s : State) (h : Fin 32) : Judged :=
  let x := s.holdings[h]
  x.pend.foldl (judgeTrans x.preDoze) ⟨x.st, x.freeze, x.snap⟩

/-- The edge at which an action takes effect: the one that R77 gives, or the earlier action's. -/
def actionEdge (s : State) (h : Fin 32) : Nat := (s.holdings[h].pend.map (·.edge)).foldl max (effectEdge s)

def addTrans (h : Fin 32) (k : TransKind) (rq : Option Req) (s : State) : State × BellNo :=
  let e := actionEdge s h
  let b := bellAt s (e - s.bell.edges)
  (modHolding h (fun x => { x with pend := x.pend ++ [⟨k, e, b, rq⟩] }) (afterArbiter 16 s), b)

/-- An action that takes effect at an edge; the response names the bell (R288). -/
def edgeAction (h : Fin 32) (k : TransKind) (s : State) : State × Option (Byte × BellNo) :=
  let r := addTrans h k none s
  (r.1, some (stOk, r.2))

/-- An action that takes effect at once, or right after the earlier action's edge; its own effect answers it. -/
def onceAction (h : Fin 32) (k : TransKind) (rq : Req) (now : Option Req → State → State) (s : State) :
    State × Option (Byte × BellNo) :=
  if s.holdings[h].pend.isEmpty then (now (some rq) s, none)
  else ((addTrans h k (some rq) s).1, none)

/-! Placement and binding (R283 to R286, R295 to R301). -/

/-- The sum of TALLY_QUOTA over the placed Holdings, with Holding h placed at quota q. -/
def tallySum (s : State) (h : Fin 32) (q : Nat) : Nat :=
  ((List.finRange 32).map fun g =>
    if g = h then q else if s.holdings[g].rect = 0 then 0 else s.holdings[g].tallyQuota.toNat).sum

/-- The first check of R285 and R286 that fails. -/
def rectRefusal (s : State) (h : Fin 32) (v : BitVec 32) : Option Byte :=
  if (judged s h).st != .empty || s.test.accepted then some stBusy
  else if v = 0 then none
  else
    let ps := rectPlots v
    if ps.any fun p => s.plots[p].owner.val != 0 && s.plots[p].owner != h then some stBusy
    else if ps.any fun p => s.plots[p].clearing then some stNotReady
    else if ps.any fun p => s.plots[p].unfit || s.banks[p].clearFail then some stNoSlot
    else if 7680 < tallySum s h s.holdings[h].tallyQuota.toNat then some stQuota
    else none

/-- A Plot changes hands; a change of owner moves its derived map under R43. -/
def setOwner (p : Fin 64) (h : Fin 32) (s : State) : State :=
  if s.plots[p].owner = h then s else modPlot p (fun x => { x with owner := h, ownAt := s.bell.now }) s

/-- The Holding's Plots are those of the rectangle. -/
def assignRect (h : Fin 32) (v : BitVec 32) (s : State) : State :=
  let s := modHolding h (fun x => { x with rect := v }) s
  let s := eachOf (ownedPlots s h) (fun p t => if v ≠ 0 && inRect v p then t else setOwner p 0 t) s
  refreshHedges (if v = 0 then s else eachOf (rectPlots v) (setOwner · h) s)

def execHoldingRectWrite (rq : Req) (h : Fin 32) (v : BitVec 32) (s : State) : Res :=
  .next (writeReq rq (hix h 0x10) 1 true (rectValid v) (fun s => rectRefusal s h v)
    (fun s => (assignRect h v s, bellNow s)) s)

def maskIx : MaskKind → Nat
  | .vf => 1
  | .lane => 2
  | .cvu => 3

def maskOf (x : Holding) : MaskKind → Nat
  | .vf => x.vfMask.toNat
  | .lane => x.laneMask.toNat
  | .cvu => x.cvuMask.toNat

/-- The endpoint codes of the resource that bit i stands for. -/
def maskCodes (k : MaskKind) (i : Nat) : List (BitVec 16) :=
  match k with
  | .vf => [hostCode (Fin.ofNat 33 (i + 1))]
  | .lane => [laneRxCode (Fin.ofNat 48 i), laneTxCode (Fin.ofNat 48 i)]
  | .cvu => [cvuCode (Fin.ofNat 32 i)]

/-- Bound queues that have one of the codes at an end. -/
def queuesAt (s : State) (codes : List (BitVec 16)) : List (Fin 256) :=
  (List.finRange 256).filter fun q =>
    s.queues[q].bound && (codes.contains s.queues[q].producer || codes.contains s.queues[q].consumer)

/-- Bits that a write sets and clears, of `width` bits. -/
def bitsSet (width old v : Nat) : List Nat := (List.range width).filter fun i => natBit v i && !natBit old i
def bitsCleared (width old v : Nat) : List Nat := (List.range width).filter fun i => !natBit v i && natBit old i

/-- R297, R546. -/
def maskRefusal (s : State) (h : Fin 32) (k : MaskKind) (v : Nat) : Option Byte :=
  let st := (judged s h).st
  let old := maskOf s.holdings[h] k
  let set := bitsSet 48 old v
  let cleared := bitsCleared 48 old v
  let ok := (st == .empty || st == .ready || st == .quiesced) &&
    !(set.any fun i => (List.finRange 32).any fun g => g != h && g.val != 0 && natBit (maskOf s.holdings[g] k) i) &&
    !(set.any fun i => (queuesAt s (maskCodes k i)).any fun q => queueOwner s q == 0) &&
    !(cleared.any fun i => !(queuesAt s (maskCodes k i)).isEmpty) &&
    !(k == .vf && decide (4 < ((List.range 32).filter (natBit v)).length)) &&
    !(k == .cvu && cleared.any fun i => s.cvus[Fin.ofNat 32 i].st == .running) &&
    !(k == .lane && cleared.any fun i => laneTapped s (Fin.ofNat 48 i))
  if ok then none else some stBusy

/-- The mailbox of a VF that is bound (R433). -/
def freshMailbox (n : Fn) : Fn := { n with mbxProd := 0, mbxCons := 0, mbxLost := 0, mbx := [] }

/-- The mask as written; a VF that is bound starts with an empty mailbox (R433); lanes and units that leave return to their defaults (R500, R555). -/
def setMask (h : Fin 32) (k : MaskKind) (v : Nat) (s : State) : State :=
  let gone := bitsCleared 48 (maskOf s.holdings[h] k) v
  match k with
  | .vf =>
    let bound := bitsSet 32 s.holdings[h].vfMask.toNat v
    modHolding h (fun x => { x with vfMask := BitVec.ofNat 32 v })
      (eachOf bound (fun i => modFn (Fin.ofNat 33 (i + 1)) freshMailbox) s)
  | .lane =>
    modHolding h (fun x => { x with laneMask := BitVec.ofNat 48 v }) (eachOf gone (fun i => laneLeaves (Fin.ofNat 48 i)) s)
  | .cvu =>
    modHolding h (fun x => { x with cvuMask := BitVec.ofNat 32 v }) (eachOf gone (fun i => unitLeaves (Fin.ofNat 32 i)) s)

/-- A value that the mask's width holds. -/
def maskFits (k : MaskKind) (v : BitVec 48) : Bool := k == .lane || v.toNat < 2 ^ 32

def execHoldingMaskWrite (rq : Req) (h : Fin 32) (k : MaskKind) (v : BitVec 48) (s : State) : Res :=
  .next (writeReq rq (hix h 0x20) (maskIx k) true (maskFits k v) (fun s => maskRefusal s h k v.toNat)
    (fun s => (setMask h k v.toNat s, bellNow s)) s)

def execTallyQuotaWrite (rq : Req) (h : Fin 32) (v : BitVec 16) (s : State) : Res :=
  .next (writeReq rq (hix h 0x20) 4 true (v.toNat ≤ 4096)
    (fun s => if s.holdings[h].rect ≠ 0 && decide (7680 < tallySum s h v.toNat) then some stQuota else none)
    (fun s => (modHolding h (fun x => { x with tallyQuota := v }) s, bellNow s)) s)

def execQueueQuotaWrite (rq : Req) (h : Fin 32) (v : BitVec 32) (s : State) : Res :=
  .next (writeReq rq (hix h 0x20) 5 true (v.toNat ≤ 524288 && v.toNat % 64 == 0)
    (fun s => if v.toNat < s.holdings[h].itemsHeld.toNat then some stQuota else none)
    (fun s => (modHolding h (fun x => { x with queueQuota := v }) s, bellNow s)) s)

/-! Hedge checks (R306, R327). -/

/-- A SEALED Hedge that is not at rest or not sealed. -/
def breached (x : Hedge) : Bool := !x.isOpen && !(x.sealHolds && x.atRest)

/-- A check of one Hedge: a breach is sealed again, counted, recorded for both owners, and faults them. -/
def checkHedge (e : Fin 112) (s : State) : State :=
  if !breached s.hedges[e] then s else
  let s := modHedge e (fun x => { x with sealHolds := true, atRest := true }) s
  let s := { s with breaches := satAdd s.breaches 1 }
  let a : Fin 32 := s.plots[(hedgePlots e).1].owner
  let b : Fin 32 := s.plots[(hedgePlots e).2].owner
  let hs : List (Fin 32) := if a = b then [a] else [a, b]
  let s := eachOf hs (fun h t => record evHedgeBreach h (BitVec.ofNat 48 e.val) t) s
  eachOf hs (fun h t => faultHolding h .hedgeBreach t) s

def execHedgeCheck (e : Fin 112) (s : State) : Res := .next (if gleanerRuns s then checkHedge e s else s)

/-- Every SEALED Hedge, once more before a START. -/
def checkHedges (s : State) : State := eachFin 112 checkHedge s

/-! Actions at an edge (R288 to R290). -/

/-- The span that Holding h is a share of on this device, by its place in the manifest in force (R897). -/
def spanOf (s : State) (h : Fin 32) : Option Nat :=
  match memberOf s.village.inForce with
  | none => none
  | some me =>
    (spansOf s.village.inForce).findIdx? fun x => x.1 == h.val && natBit x.2 me

/-- START and RESUME of a share wait for the village (R901). -/
def shareBusy (s : State) (h : Fin 32) : Bool :=
  match spanOf s h with
  | none => false
  | some j => s.village.st != .member || s.village.resync || s.village.disagree.getLsbD j

def vfCount (x : Holding) : Nat := ((List.range 32).filter fun i => x.vfMask.getLsbD i).length

/-- R289, R371, after the state and the recovery have been judged. -/
def startRefusal (s : State) (h : Fin 32) : Option Byte :=
  let j := judged s h
  if j.st != .ready then some stBusy
  else if s.dev.fatal then some stRecovery
  else if s.test.accepted || shareBusy s h then some stBusy
  else
    let n := vfCount s.holdings[h]
    if n = 0 ∨ 4 < n then some stDenied
    else if !s.bell.locked || (ownedPlots s h).any fun p => !s.plots[p].calibrated then some stNotReady
    else if j.sn == .restoring || j.sn == .restoreFailed then some stNotReady
    else none

def execHoldingStart (rq : Req) (h : Fin 32) (s : State) : Res :=
  .next (invokeReq rq (hix h 0x10) 5 true (fun _ s => startRefusal s h)
    (fun _ s =>
      let s := checkHedges s
      if (judged s h).st == .ready then edgeAction h .start s else (s, some (stBusy, bellNow s))) s)

def execHoldingQuiesce (rq : Req) (h : Fin 32) (s : State) : Res :=
  .next (invokeReq rq (hix h 0x10) 6 true
    (fun _ s => if (judged s h).st != .running then some stBusy else none)
    (fun _ s => edgeAction h .quiesce s) s)

def execHoldingResume (rq : Req) (h : Fin 32) (s : State) : Res :=
  .next (invokeReq rq (hix h 0x10) 7 true
    (fun _ s =>
      let j := judged s h
      if j.st != .quiesced || j.fr == .forced || j.sn == .moved then some stBusy
      else if s.dev.fatal then some stRecovery
      else if s.test.accepted || shareBusy s h then some stBusy
      else none)
    (fun _ s => edgeAction h .resume s) s)

/-- At its edge the Holding runs: the gate of a cut is lifted, its controllers are released, its queues released. -/
def becomeRunning (h : Fin 32) (s : State) : State :=
  let s := modHolding h (fun x => { x with
    freeze := if x.freeze = .cut then .none else x.freeze, cutEdge := none, started := true }) s
  let s := setState h .running s
  let marked := (ownedQueues s h).any fun q => s.queues[q].recMark
  let s := eachOf (ownedQueues s h) queueRuns s
  if marked then record evRecoveryDone h (datTop h.val 0) s else s

/-- QUIESCE, and what becomes of a RUNNING Holding at the edge after a DEVICE_FATAL fault. -/
def becomeQuiesced (h : Fin 32) (s : State) : State :=
  if s.holdings[h].st == .running then setState h .quiesced s else s

/-- FORCE_STOP at its edge (R346). -/
def forceStopped (h : Fin 32) (s : State) : State :=
  let s := becomeQuiesced h s
  record evForcedStop h (datTop h.val 0) (modHolding h (fun x => { x with freeze := .forced }) s)

/-! Doze and wake (R313, R314, R344, R1007). -/

def bellDat (h : Fin 32) (b : BellNo) : Word := datTop h.val (bellHigh b)

/-- The cut is held: the islands ramp to 500 mV, DOZE_ENTER carries the bell, the Holding is DOZING. -/
def beginDoze (h : Fin 32) (s : State) : State :=
  let s := modHolding h (fun x => { x with preDoze := x.st, dozing := true }) s
  let s := record evDozeEnter h (bellDat h s.bell.number) s
  rampHolding h 500 (setState h .dozing s)

/-- The ramp of a doze has ended in every Plot: the action completes. -/
def dozeDone (h : Fin 32) (s : State) : State :=
  let x := s.holdings[h]
  if x.dozing && (ownedPlots s h).all fun p => !s.plots[p].ramping then
    invokeDone x.dozeRq stOk x.stateBell (modHolding h (fun x => { x with dozing := false, dozeRq := none }) s)
  else s

/-- DOZE as it acts: with the cut held at once, with an attempt in progress by it, else by an attempt of its own. -/
def dozeNow (h : Fin 32) (rq : Option Req) (s : State) : State :=
  let s := modHolding h (fun x => { x with dozeRq := rq }) s
  match s.holdings[h].freeze with
  | .cut => dozeDone h (beginDoze h s)
  | .none => (addTrans h .freeze none s).1
  | .attempt | .forced => s

def dozeAllowed (j : Judged) (x : Holding) : Bool :=
  (j.st == .running || j.st == .quiesced) && j.fr != .forced && j.sn != .moved && x.dozeRq.isNone

def execHoldingDoze (rq : Req) (h : Fin 32) (s : State) : Res :=
  .next (invokeReq rq (hix h 0x10) 8 true
    (fun _ s => if dozeAllowed (judged s h) s.holdings[h] then none else some stBusy)
    (fun _ s => onceAction h .doze rq (dozeNow h) s) s)

/-- WAKE as it acts: the islands ramp to VOLTAGE_MV; each Plot then completes a pass. A doze that still ramps ends. -/
def wakeNow (h : Fin 32) (rq : Option Req) (s : State) : State :=
  let x := s.holdings[h]
  let s := modHolding h (fun x => { x with
    dozing := false, dozeRq := none, waking := true, wakeReady := none, wakeRq := rq }) s
  let s := if x.dozing then invokeDone x.dozeRq stOk x.stateBell s else s
  rampAwaited h x.voltage.toNat s

def wakeAllowed (j : Judged) (x : Holding) : Bool := j.st == .dozing && !x.waking

def execHoldingWake (rq : Req) (h : Fin 32) (s : State) : Res :=
  .next (invokeReq rq (hix h 0x10) 9 true
    (fun _ s =>
      if !wakeAllowed (judged s h) s.holdings[h] then some stBusy
      else if s.dev.fatal then some stRecovery
      else if s.test.accepted then some stBusy
      else none)
    (fun _ s => onceAction h .wake rq (wakeNow h) s) s)

/-- At the first edge at least 16 ticks after the last pass the state before DOZE returns (R314, R343). -/
def wakeEdge (h : Fin 32) (s : State) : State :=
  let x := s.holdings[h]
  if !(x.waking && x.wakeReady.any fun t => t + 16 ≤ s.bell.now) then s else
  let s := modHolding h (fun x => { x with waking := false, wakeReady := none, wakeRq := none }) s
  let s := record evDozeExit h (bellDat h s.bell.number) s
  let s := if x.preDoze == .running then becomeRunning h s else setState h x.preDoze s
  invokeDone x.wakeRq stOk (bellNow s) s

/-! Holding reset and clear (R162, R281, R291, R326, R332, R382, R554, R930). -/

def resetCause (c : FaultCause) : Bool := c == .quernResidue || c == .memUe || c == .lane || c == .cvu

/-- The initial hold values of the configuration (word 18 of a croft). -/
def initialHold (x : Plot) : Mem 48 :=
  (x.config.filter fun e => e.1 / 2 ^ 20 == 0 && e.1 % 32 == 18).foldl
    (fun m e => memSet m (e.1 % 2 ^ 20 / 32) (secRead e.2).data) []

/-- R162. -/
def resetPlot (x : Plot) : Plot :=
  { x with
    hold := initialHold x, phase := [], chans := [], mergeLoser := [],
    freezeRegs := Vector.replicate 8 none, querns := x.querns.map fun q => { q with acc := 0, out := [] } }

def resetAllowed (j : Judged) (x : Holding) : Bool :=
  match j.st with
  | .running | .quiesced => j.sn != .moved
  | .faulted => resetCause x.cause && j.sn != .moved
  | _ => false

/-- A Holding reset. -/
def resetHolding (h : Fin 32) (s : State) : State :=
  let s := cutJobs h (cutFreezes h s)
  let s := modHolding h (fun x => { x with
    freeze := .none, cutEdge := none, snap := .idle, cause := .none, started := false, waking := false }) s
  let s := setState h .ready s
  let s := eachOf (ownedPlots s h) (fun p t => modPlot p resetPlot t) s
  let s := eachOf (ownedQueues s h) (fun q t => modQueue q (fun x => { x with recMark := true }) (flushQueue q t)) s
  eachFin 32 (fun u t => if cvuHolding t u = h then cvuStop u t else t) s

/-- RESET as it acts, judged against the state that stands. -/
def resetNow (h : Fin 32) (rq : Option Req) (s : State) : State :=
  let x := s.holdings[h]
  if resetAllowed ⟨x.st, x.freeze, x.snap⟩ x then
    let s := resetHolding h s
    invokeDone rq stOk (bellNow s) s
  else busyAnswer rq s

def execHoldingReset (rq : Req) (h : Fin 32) (s : State) : Res :=
  .next (invokeReq rq (hix h 0x10) 0x0A true
    (fun _ s => if resetAllowed (judged s h) s.holdings[h] then none else some stBusy)
    (fun _ s => onceAction h .reset rq (resetNow h) s) s)

def clearAllowed (st : HState) : Bool :=
  match st with
  | .empty | .loading | .ready | .quiesced | .dozing | .faulted => true
  | .running | .clearing => false

/-- The Holding enters CLEARING, its credential epoch rises and its sessions close (R635). -/
def clearHolding (h : Fin 32) (s : State) : State :=
  if s.holdings[h].st == .loading then failLoad stAborted true s else enterClearing h s

def clearNow (h : Fin 32) (rq : Option Req) (s : State) : State :=
  if clearAllowed s.holdings[h].st then
    let s := clearHolding h s
    invokeDone rq stOk (bellNow s) s
  else busyAnswer rq s

def execHoldingClear (rq : Req) (h : Fin 32) (s : State) : Res :=
  .next (invokeReq rq (hix h 0x10) 0x0B true
    (fun _ s => if clearAllowed (judged s h).st then none else some stBusy)
    (fun _ s => onceAction h .clear rq (clearNow h) s) s)

/-! The end of clearing (R159, R218, R219, R293). -/

/-- A cleared Plot. -/
def blankPlot (x : Plot) : Plot :=
  { x with
    config := [], hold := [], phase := [], chans := [], mergeLoser := [],
    querns := Vector.replicate 16 Quern.reset, bins := x.bins.map fun b => { b with shape := 0, check := 0 },
    binMem := [], freezeRegs := Vector.replicate 8 none, cadence := 0, scrubWord := 0, clearing := false,
    clearRetry := false, unfit := x.unfit && !x.restart, restart := false }

/-- What clearing returns to its default when it completes. -/
def blankHolding (x : Holding) : Holding :=
  { x with
    rect := 0, vfMask := 0, laneMask := 0, cvuMask := 0, voltage := 800, cause := .none, digest := 0,
    budgetUnits := 0, budgetLoad := 0, budget := .ok, cyclePs := 0, freeze := .none, cutEdge := none, snap := .idle,
    started := false, waking := false, dozing := false, clearUnbind := none, seq := 0 }

/-- Clearing of every Plot is complete and the queues are unbound: EMPTY is posted, then everything is released. -/
def clearComplete (h : Fin 32) (s : State) : State :=
  let x := s.holdings[h]
  if h.val = 0 || x.st != .clearing || x.clearUnbind.isSome || (ownedPlots s h).any fun p => s.plots[p].clearing then s
  else
    let s := setState h .empty s
    let s := setMask h .cvu 0 (setMask h .lane 0 s)
    let s := eachOf (ownedPlots s h) (setOwner · 0) s
    refreshHedges (modHolding h blankHolding s)

def plotCleared (p : Fin 64) (s : State) : State :=
  let s := modPlot p blankPlot s
  let s := modBank p (fun b => { b with
    mem := [], lost := none, wbq := [], cleared := true, ceRows := [],
    nextDue := if b.cleared then b.nextDue else s.bell.edges + 1 }) s
  clearComplete s.plots[p].owner s

/-- Clearing of a Plot has ended; `ok` when every row of its bank has been verified against zero. -/
def execPlotClearDone (p : Fin 64) (ok : Bool) (s : State) : Res :=
  .next (
    let x := s.plots[p]
    if !x.clearing || x.tripWait || !s.pins.vgran then s
    else if ok then
      plotCleared p (modBank p (fun b => { b with clearFail := b.clearFail && !x.clearRetry && x.owner.val != 0 }) s)
    else
      let s := modBank p (fun b => { b with clearFail := true }) s
      if x.clearRetry then plotCleared p s
      else record evClearFail 0 (datTop p.val 0) (modPlot p (fun x => { x with clearRetry := true }) s))

/-! Regulators and islands (R308 to R311, R325, R328, R329, R1006). -/

/-- OVERCURRENT 2, UNDERVOLT 4, as REG_STATUS shows it. -/
def regStatus (x : Plot) : Nat := ofBits [x.ramping, x.overcur, x.undervolt]

/-- A regulator fault turns the regulator off. -/
def regulatorFault (p : Fin 64) (overCur : Bool) (s : State) : State :=
  let h := s.plots[p].owner
  let s := modPlot p (fun x => if overCur then { x with overcur := true } else { x with undervolt := true }) s
  let s := record evRegFault h (datTop p.val (regStatus s.plots[p])) s
  let s := stopRegulator p s
  let s := if h.val = 0 || s.plots[p].clearing then
    modPlot p (fun x => { x with unfit := true }) s else s
  faultHolding h .regFault s

/-- UNDERVOLT is found outside a ramp only. -/
def execRegFault (p : Fin 64) (overCur : Bool) (s : State) : Res :=
  .next (
    let x := s.plots[p]
    if !x.regOn || (!overCur && x.ramping) then s else regulatorFault p overCur s)

/-- A new target acts by the state of the Holding (R311). -/
def applyVoltage (h : Fin 32) (s : State) : State :=
  let x := s.holdings[h]
  let ramp := rampHolding h x.voltage.toNat s
  match x.st with
  | .loading | .ready | .running | .quiesced | .faulted => ramp
  | .dozing => if x.waking then ramp else s
  | .empty | .clearing => s

/-- R309. -/
def voltageOk (x : Holding) (v : Nat) : Bool := v % 5 == 0 && x.vmin.toNat ≤ v && v ≤ x.vmax.toNat

def execHoldingVoltageMvWrite (rq : Req) (h : Fin 32) (v : BitVec 16) (s : State) : Res :=
  .next (writeReq rq (hix h 0x50) 1 true (voltageOk s.holdings[h] v.toNat)
    (fun s => if s.holdings[h].st == .clearing then some stBusy else none)
    (fun s => (applyVoltage h (modHolding h (fun x => { x with voltage := v }) s), bellNow s)) s)

/-- A write to VMIN_MV or VMAX_MV: the new range lies within R308's and keeps VOLTAGE_MV. -/
def rangeOk (x : Holding) (lo hi : Nat) : Bool :=
  600 ≤ lo && hi ≤ 900 && lo % 5 == 0 && hi % 5 == 0 && lo ≤ x.voltage.toNat && x.voltage.toNat ≤ hi

/-- A ramp ends; the island has not settled yet. -/
def execRampEnd (p : Fin 64) (s : State) : Res :=
  .next (
    if !s.plots[p].ramping then s else
    dozeDone s.plots[p].owner (modPlot p (fun x => { x with ramping := false, settling := true }) s))

/-- The island has settled within ±10 mV, as measured; a pass is due (R116). A DOZING Holding is not calibrated (R120). -/
def execIslandSettled (p : Fin 64) (mv : BitVec 16) (s : State) : Res :=
  .next (
    let x := s.plots[p]
    let inRange := x.target ≤ mv.toNat + 10 && mv.toNat ≤ x.target + 10
    if !x.settling || !inRange then s else
    modPlot p (fun x => { x with
      settling := false, voltMv := mv, calDue := true
      passWait := if x.passWait = .settle then .start else x.passWait }) s)

end Sys2Proof.Machine
end

