-- ==== Sys2Proof/Machine/Freeze.lean ====
section
/-! DEFINITION. Freeze, forced stop, snapshot and restore (07). -/

namespace Sys2Proof.Machine

/-! Freeze (R334 to R345). -/

def freezable (j : Judged) : Bool := (j.st == .running || j.st == .quiesced) && j.fr == .none

/-- HOLDING.FREEZE: the response waits for the end of the attempt (R339). -/
def execHoldingFreeze (rq : Req) (h : Fin 32) (s : State) : Res :=
  .next (invokeReq rq (hix h 0x60) 1 true
    (fun _ s => if freezable (judged s h) then none else some stBusy)
    (fun _ s => ((addTrans h .freeze none (modHolding h (fun x => { x with freezeRq := some rq }) s)).1, none)) s)

/-- A consumer port of the Holding has raised REQ: an item stands behind the open gate (R335). -/
def raisedReq (s : State) (q : Fin 256) : Bool :=
  isDesign s.queues[q].consumer && delivers s q && (offered s.queues[q]).isSome

/-- Edge f: the gate is set (R335). -/
def beginFreeze (h : Fin 32) (s : State) : State :=
  if !freezable ⟨s.holdings[h].st, s.holdings[h].freeze, s.holdings[h].snap⟩ then s else
  let s := eachOf (ownedQueues s h) (fun q t => modQueue q (fun x => { x with reqUp := raisedReq t q }) t) s
  modHolding h (fun x => { x with freeze := .attempt, freezeEdge := s.bell.edges, cutEdge := none }) s

/-- Every channel of the Holding is at rest (R107, R336): those of its Plots, and no item stands with REQ raised. -/
def holdingAtRest (s : State) (h : Fin 32) : Bool :=
  (ownedPlots s h).all (fun p => plotAtRest s.plots[p]) && (ownedQueues s h).all fun q => !s.queues[q].reqUp

/-- The edge from which a cut reached now is held: the first at least 16 ticks away (R337). -/
def cutEdgeOf (s : State) : Nat := s.bell.edges + if noEdge s || 16 ≤ toEdge s then 1 else 2

/-- The cut is reached; from edge e it is held, when e is no later than f+4. -/
def execFreezeCut (h : Fin 32) (s : State) : Res :=
  .next (
    let x := s.holdings[h]
    let e := cutEdgeOf s
    if x.freeze == .attempt && x.cutEdge.isNone && holdingAtRest s h && decide (e ≤ x.freezeEdge + 4) then
      modHolding h (fun x => { x with cutEdge := some e }) s
    else s)

/-- Edge e: the cut is held and the responses that waited for it are sent (R337, R344). A FREEZE makes a RUNNING Holding
QUIESCED; a DOZE's own attempt takes it from RUNNING to DOZING (R313). -/
def cutHeld (h : Fin 32) (s : State) : State :=
  let x := s.holdings[h]
  let s := modHolding h (fun x => { x with freeze := .cut, cutBell := s.bell.number, freezeRq := none }) s
  let s := if x.freezeRq.isSome then becomeQuiesced h s else s
  let s := post evFreezeCut h (datTop h.val 0) s
  let s := invokeDone x.freezeRq stOk (bellNow s) s
  if x.dozeRq.isSome then dozeDone h (beginDoze h s) else s

/-- At an edge: whether the cut of the Holding is held from it. -/
def freezeEdgeWork (h : Fin 32) (s : State) : State :=
  let x := s.holdings[h]
  if x.freeze == .attempt && x.cutEdge.any (· ≤ s.bell.edges) then cutHeld h s else s

/-- The attempt ends without a cut (R338, R339, R344). -/
def freezeGivenUp (h : Fin 32) (s : State) : State :=
  let x := s.holdings[h]
  let s := modHolding h (fun x => { x with freeze := .none, freezeRq := none, dozeRq := none }) s
  let s := post evFreezeTimeout h (datTop h.val 0) s
  invokeDone x.dozeRq stFreezeTimeout (bellNow s) (invokeDone x.freezeRq stFreezeTimeout (bellNow s) s)

def execFreezeTimeout (h : Fin 32) (s : State) : Res :=
  .next (
    let x := s.holdings[h]
    if x.freeze == .attempt && !gateStands s h then freezeGivenUp h s else s)

/-- HOLDING.FORCE_STOP (R346). -/
def execHoldingForceStop (rq : Req) (h : Fin 32) (s : State) : Res :=
  .next (invokeReq rq (hix h 0x60) 2 true
    (fun _ s => if freezable (judged s h) then none else some stBusy)
    (fun _ s => edgeAction h .forceStop s) s)

/-! Snapshot (R349 to R363). -/

/-- A queue entry names a bound, system-owned queue of depth 2^14 or more with the service code at its end. -/
def serviceQueue (s : State) (name : BitVec 16) (code : BitVec 16) (consumer : Bool) : Bool :=
  if 256 ≤ name.toNat then false else
  let x := s.queues[Fin.ofNat 256 name.toNat]
  x.bound && x.owner == 0 && 14 ≤ x.depthLog2.toNat && (if consumer then x.consumer else x.producer) == code

/-- A cause after which queues cannot be read out is pending (R927). -/
def snapshotRecovery (s : State) : Bool :=
  s.dev.fatal && causePending s [.slotAudit, .creditAudit, .commonsRoute]

/-- The first condition of R349 that fails (R362, R372, R866, R927). -/
def snapshotRefusal (s : State) (h : Fin 32) (keyOk : Bool) : Option Byte :=
  let j := judged s h
  if j.st != .quiesced || !(j.fr == .cut || j.fr == .forced) || j.sn == .moved then some stBusy
  else if snapshotRecovery s then some stRecovery
  else if !serviceQueue s s.snap.outQueue (reeveCode 7) false then some stNotReady
  else if !keyOk then some stNotReady
  else if s.holdings[h].window then some stBusy
  else if talliesOf s h ≠ 0 then some stBusy
  else if s.snap.job.isSome || s.test.slice.any (!·.done) then some stBusy
  else if !(s.slots.maps[(5 : Fin 18)]).toList.contains 0x00 then some stNoSlot
  else none

def newJob (h : Fin 32) (rq : Req) : SnapJob :=
  { h, rq := some rq, begun := false, queues := [], next := 0, id := 0, draw := 0, consistent := false,
    lastProgress := 0 }

/-- An accepted snapshot: it begins at an edge, or first waits for the DRBG (R350). -/
def startSnapshot (h : Fin 32) (rq : Req) (s : State) : State :=
  let s := { s with snap := { s.snap with job := some (newJob h rq) } }
  if s.boot.seeded then (addTrans h .snapshot none s).1
  else { s with boot := { s.boot with waiting := s.boot.waiting ++ [.snapshot h] } }

/-- HOLDING.SNAPSHOT; `keyOk` says that SNAP.TARGET_KEY holds a valid point. -/
def execHoldingSnapshot (rq : Req) (h : Fin 32) (keyOk : Bool) (s : State) : Res :=
  .next (invokeReq rq (hix h 0x60) 4 true (fun _ s => snapshotRefusal s h keyOk)
    (fun _ s => (startSnapshot h rq s, none)) s)

/-- Granary maps of the Holding's banks go to the system (R351, R771). -/
def force (h : Fin 32) (s : State) : State :=
  eachOf (ownedPlots s h) (fun p t => modPlot p (fun x => { x with forced := true }) t) s

/-! The stream (Tables 07-2 and 07-3). -/

def itemBytes (it : Item) : List Byte := [(itTags it).setWidth 8, 0] ++ beBytes 6 (itData it).toNat

/-- Staged items of a Plot port; those of hard blocks are not carried (R360). -/
def carriedStaged (x : Queue) : List Item :=
  if isDesign x.producer then x.staging.filterMap fun e => match e with | .item it => some it | _ => none else []

/-- The body of a QUEUE section (R359). -/
def queueBody (x : Queue) : List Byte :=
  let cells := x.items ++ x.openPk
  let st := carriedStaged x
  [x.depthLog2, BitVec.ofNat 8 (b2n x.locked), BitVec.ofNat 8 (b2n x.mark),
    BitVec.ofNat 8 (ofBits [!x.openPk.isEmpty, x.items.any (·.res)])] ++
    beBytes 4 cells.length ++ beBytes 4 st.length ++ (cells.map fun c => itemBytes c.it).flatten ++
    (st.map itemBytes).flatten

/-- The declared queues of a Holding, by declaration index. -/
def declaredQueues (s : State) (h : Fin 32) : List (Fin 256) :=
  (List.range 256).filterMap fun d => (ownedQueues s h).find? fun q => s.queues[q].decl == some d

/-- Edge s: the Holding's queues are captured and its maps are forced (R350 to R352). A Holding that has left the cut while
the snapshot waited for entropy ends it with BUSY (assumption 15). -/
def beginSnapshot (h : Fin 32) (s : State) : State :=
  match s.snap.job with
  | none => s
  | some j =>
    if j.h != h || j.begun then s else
    let x := s.holdings[h]
    if x.st != .quiesced || !(x.freeze == .cut || x.freeze == .forced) then
      invokeDone j.rq stBusy (bellNow s) { s with snap := { s.snap with job := none } }
    else
      let queues := (declaredQueues s h).map fun q => ((s.queues[q].decl.getD 0), queueBody s.queues[q])
      let k := s.boot.draws
      let s := drbgDraw (drbgDraw (drbgDraw s))
      let s := { s with snap := { s.snap with job := some { j with
        begun := true, queues, id := Config.drawId k, draw := k, consistent := x.freeze == .cut,
        lastProgress := s.bell.edges } } }
      force h (modHolding h (fun x => { x with snap := .snapshotting }) s)

/-- A section: its type, Plot offset, index and body. -/
structure Section where
  ty : Nat
  px : Nat
  py : Nat
  ix : Nat
  body : List Byte
deriving DecidableEq, Repr

/-- R358. -/
def sectionHeader (x : Section) : List Byte :=
  beBytes 2 x.ty ++ [BitVec.ofNat 8 x.px, BitVec.ofNat 8 x.py] ++ beBytes 2 x.ix ++ [0, 0] ++ beBytes 4 x.body.length

def wordBytes (w : Word) : List Byte := beBytes 6 w.toNat

def wordsBytes (l : List Word) : List Byte := (l.map wordBytes).flatten

/-- DATA of a Bin row as a snapshot reads it. -/
def binRead (x : Plot) (b : Fin 24) (row : Nat) : Found :=
  binFound (binModeOf x b) (memGet x.binMem (binKey b row)) [0, 1, 2, 3]

def portWords (x : Plot) : List Word :=
  (x.freezeRegs.toList.map fun r => match r with
    | some it => [16#48 ||| (itTags it).setWidth 48, itData it]
    | none => [0, 0]).flatten

def binsBody (x : Plot) : List Byte :=
  ((List.finRange 24).map fun b => wordsBytes ((List.range 1024).map fun r => (binRead x b r).data)).flatten

def granaryBody (b : Bank) : List Byte :=
  wordsBytes ((List.range 262144).map fun a => (secRead (bankWord b a)).data)

/-- Words that read as uncorrectable (R354): the Granary's by address, the Bins' by Bin and row. -/
def poisonBody (x : Plot) (b : Bank) : List Byte :=
  let g := (b.mem.filter fun e => (secRead e.2).ue).map fun e => beBytes 4 (e.1 % 2 ^ 18)
  let n := ((List.finRange 24).map fun i => ((List.range 1024).filter fun r => (binRead x i r).ue).map fun r =>
    beBytes 4 (2 ^ 31 + i.val * 1024 + r)).flatten
  (g ++ n).flatten

/-- The sections of one type, Plot by Plot (assumption 16). -/
def plotSections (s : State) (h : Fin 32) (ty : Nat) (body : Fin 64 → List Byte) : List Section :=
  let r := s.holdings[h].rect
  (ownedPlots s h).map fun p => ⟨ty, p.val % 8 - rectX r, p.val / 8 - rectY r, 0, body p⟩

/-- Every section but the directory, in stream order (Table 07-3). -/
def snapSections (s : State) (j : SnapJob) : List Section :=
  let of := plotSections s j.h
  of 1 (fun p => wordsBytes ((List.range 512).map (memGet s.plots[p].hold))) ++
  of 2 (fun p => wordsBytes ((List.range 512).map (phaseOut s.plots[p]))) ++
  of 3 (fun p => wordsBytes (s.plots[p].querns.toList.map fun q => accItems q.acc).flatten) ++
  of 4 (fun p => binsBody s.plots[p]) ++
  of 5 (fun p => granaryBody s.banks[p]) ++
  of 6 (fun p => wordsBytes (portWords s.plots[p])) ++
  (of 7 (fun p => poisonBody s.plots[p] s.banks[p])).filter (fun x => !x.body.isEmpty) ++
  j.queues.map fun q => ⟨8, 0, 0, q.1, q.2⟩

/-- The plaintext body, zero-padded to a multiple of 6 bytes (R356). -/
def snapPlain (s : State) (j : SnapJob) : List Byte :=
  let l := snapSections s j
  let dir := (l.map sectionHeader).flatten
  let b := (sectionHeader ⟨0, 0, 0, 0, dir⟩ ++ dir) ++ (l.map fun x => sectionHeader x ++ x.body).flatten
  padTo ((b.length + 5) / 6 * 6) b

def recordLen : Nat := 64512

def recordCount (n : Nat) : Nat := (n + recordLen - 1) / recordLen

/-- TOTAL_LENGTH for n bytes of plaintext. -/
def totalLength (n : Nat) : Nat := 256 + n + 16 * recordCount n

/-- Table 07-2. -/
def snapHeader (s : State) (j : SnapJob) (n : Nat) : List Byte :=
  let x := s.holdings[j.h]
  let cut := if j.consistent then x.cutBell else Config.noCutBell s.fresh
  padTo 256 (beBytes 4 0x5647534E ++ [0x01, 0x56] ++ beBytes 2 0x4896 ++
    [0x0B, BitVec.ofNat 8 (ofBits [j.consistent, x.snapMove]), BitVec.ofNat 8 (rectW x.rect),
      BitVec.ofNat 8 (rectH x.rect)] ++
    beBytes 6 cut.toNat ++ beBytes 2 (recordCount n) ++ beBytes 4 (totalLength n) ++ beBytes 48 x.digest.toNat ++
    beBytes 16 j.id.toNat ++ (beBytes 48 (Config.sha384 s.snap.targetKey).toNat).take 16 ++
    beBytes 8 (Config.drawId (j.draw + 1)).toNat ++ List.replicate 8 0 ++ padTo 97 (Config.ephPub (j.draw + 2)))

/-- Record i: ciphertext and tag over its plaintext, the header and whether it is the last (R355, R356). -/
def sealRecord (s : State) (j : SnapJob) (plain : List Byte) (i : Nat) : List Byte :=
  let n := plain.length
  let p := (plain.drop (recordLen * i)).take recordLen
  padTo (p.length + 16) (Config.sealBytes (2 ^ 32 + j.draw) i
    (snapHeader s j n ++ [BitVec.ofNat 8 (b2n (i + 1 == recordCount n))] ++ s.snap.targetKey ++ p))

/-- A packet of items of 6 bytes each, the last one padded with zeros (R357). -/
def packetOf (b : List Byte) : List Item :=
  let n := (b.length + 5) / 6
  (List.range n).map fun i => mkItem (i == 0) (i + 1 == n) false false (BitVec.ofNat 48 (ofBe (bytesAt b (6 * i) 6)))

/-- SNAP.OUT_QUEUE has room for n more items, committed whole. -/
def packetRoom (x : Queue) (n : Nat) : Bool :=
  carries x && x.heldGap == 0 && x.openPk.isEmpty && !x.losing && x.staging.isEmpty &&
    ordinaryItems x + n + (if x.items.any (·.res) then 1 else 0) ≤ depth x - 1

def commitPacket (q : Fin 256) (l : List Item) (s : State) : State :=
  eachOf l (fun it t => commitItem (commitEdge t) q it t) s

/-- The reads of a snapshot count what they find in the banks (R187). -/
def countSnapshotReads (h : Fin 32) (s : State) : State :=
  eachOf (ownedPlots s h) (fun p t => eachOf t.banks[p].mem (fun e t => countFound p (secRead e.2) t) t) s

/-- The last record has been committed (R361). -/
def snapshotDone (j : SnapJob) (total : Nat) (s : State) : State :=
  let s := modHolding j.h (fun x => { x with snapBytes := BitVec.ofNat 32 total }) s
  let s := record evSnapshotDone j.h (datTop j.h.val (total % 2 ^ 32)) s
  endSnapshot (if s.holdings[j.h].snapMove then .moved else .snapshotDone) stOk s

/-- The next packet of the stream: the header, then each record. -/
def snapshotStep (j : SnapJob) (s : State) : State :=
  let q : Fin 256 := Fin.ofNat 256 s.snap.outQueue.toNat
  let plain := snapPlain s j
  let b := if j.next = 0 then snapHeader s j plain.length else sealRecord s j plain (j.next - 1)
  let items := packetOf b
  if !packetRoom s.queues[q] items.length then s else
  let s := if j.next = 0 then countSnapshotReads j.h s else s
  let s := { s with snap := { s.snap with job := some { j with next := j.next + 1, lastProgress := s.bell.edges } } }
  let s := commitPacket q items s
  if j.next = recordCount plain.length then snapshotDone j (totalLength plain.length) s else s

def execSnapshotRecord (s : State) : Res :=
  .next (
    match s.snap.job with
    | none => s
    | some j =>
      if j.begun && serviceQueue s s.snap.outQueue (reeveCode 7) false then snapshotStep j s else s)

/-! Restore (R364 to R371). -/

/-- The first condition of R364 that fails (R372, R927). -/
def restoreRefusal (s : State) (h : Fin 32) : Option Byte :=
  let j := judged s h
  if j.st != .ready || j.fr != .none || !(j.sn == .idle || j.sn == .failed || j.sn == .restoreFailed) then some stBusy
  else if s.dev.fatal then some stRecovery
  else if s.test.accepted then some stBusy
  else if !serviceQueue s s.snap.inQueue (reeveCode 6) true then some stNotReady
  else if s.snap.restore.isSome then some stBusy
  else none

def newRestore (h : Fin 32) (rq : Req) : RestoreJob :=
  { h, rq := some rq, begun := false, hdr := none, taken := 0, stream := [], losses := [], carried := [],
    lastProgress := 0 }

def execHoldingRestore (rq : Req) (h : Fin 32) (s : State) : Res :=
  .next (invokeReq rq (hix h 0x60) 6 true (fun _ s => restoreRefusal s h)
    (fun _ s => ((addTrans h .restore none { s with snap := { s.snap with restore := some (newRestore h rq) } }).1,
      none)) s)

/-- The edge at which a restore begins: its losses pend from here (R351, R368). -/
def beginRestore (h : Fin 32) (s : State) : State :=
  match s.snap.restore with
  | none => s
  | some j =>
    if j.h != h || j.begun then s else
    let s := { s with snap := { s.snap with restore := some { j with begun := true, lastProgress := s.bell.edges } } }
    force h (modHolding h (fun x => { x with snap := .restoring }) s)

/-- Table 07-4, the header's rows. -/
def headerRefusal (s : State) (h : Fin 32) (x : SnapHdr) : Option Byte :=
  let g := s.holdings[h]
  if x.magic != 0x5647534E || x.format != 1 || x.family != 0x56 || x.deviceCode != 0x4896 then some stMismatch
  else if x.snapClass != 0x0B || x.w.toNat != rectW g.rect || x.ht.toNat != rectH g.rect || x.digest != g.digest ||
      !x.keyOk || (x.move && inReplay s x.snapId) then some stSnapMismatch
  else if !x.consistent then some stSnapUnusable
  else none

/-- The section at the front of the stream, once it is there whole. -/
def frontSection (b : List Byte) : Option (Section × List Byte) :=
  let n := ofBe (bytesAt b 8 4)
  if b.length < 12 + n then none
  else some (⟨ofBe (bytesAt b 0 2), ofBe (bytesAt b 2 1), ofBe (bytesAt b 3 1), ofBe (bytesAt b 4 2),
    bytesAt b 12 n⟩, b.drop (12 + n))

/-- A QUEUE header of the directory names a declared queue that can hold what it carries. -/
def queueFits (s : State) (h : Fin 32) (hdr : List Byte) : Bool :=
  ofBe (bytesAt hdr 0 2) != 8 ||
    match (declaredQueues s h).find? fun q => s.queues[q].decl == some (ofBe (bytesAt hdr 4 2)) with
    | some q => (ofBe (bytesAt hdr 8 4) - 12) / 8 + 2 ≤ depth s.queues[q]
    | none => false

/-- The last row of Table 07-4, from the directory in record 0. -/
def directoryOk (s : State) (h : Fin 32) (plain : List Byte) : Bool :=
  match frontSection plain with
  | some (dir, _) => (List.range (dir.body.length / 12)).all fun i => queueFits s h (bytesAt dir.body (12 * i) 12)
  | none => false

/-- The restore starts to write: every item in the Holding's queues is discarded as a pending loss (R368). -/
def discardQueues (h : Fin 32) (s : State) : State :=
  eachOf (ownedQueues s h) (fun q t =>
    let x := t.queues[q]
    let wasOpen := arrivalOpen x
    let t := countDrop q (flushTotal x) (emptyQueue q t)
    addLossPending q (flushTotal x + lossesHeld x)
      (modQueue q (fun x => { x with discarding := false, arrLosing := wasOpen }) t)) s

def sectionWord (b : List Byte) (i : Nat) : Word := BitVec.ofNat 48 (ofBe (bytesAt b (6 * i) 6))

/-- A poisoned Bin row: the inverse of the check bits of its mode. -/
def poisonRow (mode : BitVec 2) (w : Stored) : Stored :=
  if mode = 2 then w else binRow mode (secData w) ^^^ 0xFF000000000000#56

def applyPoison (p : Fin 64) (e : Nat) (s : State) : State :=
  if e < 2 ^ 31 then bankWrite p (e % 2 ^ 18) (poisonWord (secData (bankWord s.banks[p] (e % 2 ^ 18)))) s
  else
    let b : Fin 24 := Fin.ofNat 24 (e / 1024 % 32)
    let k := binKey b (e % 1024)
    modPlot p (fun x => { x with binMem := memSet x.binMem k (poisonRow (binModeOf x b) (memGet x.binMem k)) }) s

def restoreBins (body : List Byte) (x : Plot) : Plot :=
  (List.finRange 24).foldl (fun x b => (List.range 1024).foldl (fun x r =>
    { x with binMem := memSet x.binMem (binKey b r) (binRow (binModeOf x b) (sectionWord body (binKey b r))) }) x) x

def restorePorts (body : List Byte) (x : Plot) : Plot :=
  { x with freezeRegs := Vector.ofFn fun n : Fin 8 =>
      let w := sectionWord body (2 * n.val)
      if w.getLsbD 4 then some ((w.extractLsb' 0 4) ++ sectionWord body (2 * n.val + 1)) else none }

def restoreAccs (body : List Byte) (x : Plot) : Plot :=
  { x with querns := Vector.ofFn fun n : Fin 16 =>
      let w := fun i => sectionWord body (3 * n.val + i)
      { x.querns[n] with acc := (w 2).extractLsb' 0 8 ++ (w 1 ++ w 0) } }

/-- One section is applied; every check bit is recomputed (R367). -/
def applySection (h : Fin 32) (x : Section) (s : State) : State :=
  let r := s.holdings[h].rect
  let p : Fin 64 := Fin.ofNat 64 (8 * (rectY r + x.py) + rectX r + x.px)
  let b := x.body
  match x.ty with
  | 1 => modPlot p (fun y => { y with
      chans := [], hold := (List.range 512).foldl (fun m c => memSet m c (sectionWord b c)) y.hold }) s
  | 2 => modPlot p (fun y => (List.range 512).foldl (fun y c => phaseIn c (sectionWord b c) y) y) s
  | 3 => modPlot p (restoreAccs b) s
  | 4 => modPlot p (restoreBins b) s
  | 5 => eachOf (List.range 262144) (fun a t => bankWrite p a (secWord (sectionWord b a)) t) s
  | 6 => modPlot p (restorePorts b) s
  | 7 => eachOf (List.range (b.length / 4)) (fun i t => applyPoison p (ofBe (bytesAt b (4 * i) 4)) t) s
  | 8 => match s.snap.restore with
    | some j => { s with snap := { s.snap with restore := some { j with carried := j.carried ++ [(x.ix, b)] } } }
    | none => s
  | _ => s

/-- Applies the whole sections at the front of the stream and keeps the rest. -/
def applyStream (h : Fin 32) : Nat → List Byte → State → State × List Byte
  | 0, b, s => (s, b)
  | fuel + 1, b, s =>
    match frontSection b with
    | some (x, rest) => if b.length < 12 then (s, b) else applyStream h fuel rest (applySection h x s)
    | none => (s, b)

def itemAt (b : List Byte) (k : Nat) : Item :=
  (BitVec.ofNat 4 (ofBe (bytesAt b k 1))) ++ BitVec.ofNat 48 (ofBe (bytesAt b (k + 2) 6))

/-- The items after the last LAST. -/
def openTail (l : List QCell) : Nat := (l.reverse.takeWhile fun c => !itLast c.it).length

/-- The carried items of one queue are committed; a GAP marker that held the reserve holds it again (R369). -/
def commitCarried (q : Fin 256) (b : List Byte) (s : State) : State :=
  let ic := ofBe (bytesAt b 4 4)
  let sc := ofBe (bytesAt b 8 4)
  let inRes := natBit (ofBe (bytesAt b 3 1)) 1
  let cb := commitEdge s
  let cells : List QCell := (List.range ic).map fun i =>
    let it := itemAt b (12 + 8 * i)
    let gap := isMarker it && markCode it == mkGap
    ⟨it, cb, gap, gap && inRes && i + 1 == ic⟩
  let k := openTail cells
  let s := afterAppend q (modQueue q (fun x => { x with
    items := x.items ++ cells.take (ic - k), openPk := cells.drop (ic - k) }) s)
  eachOf (List.range sc) (fun i t => commitItem cb q (itemAt b (12 + 8 * (ic + i))) t) s

/-- R369, one declared queue. -/
def restoreQueue (j : RestoreJob) (q : Fin 256) (s : State) : State :=
  let s := match j.carried.find? fun c => s.queues[q].decl == some c.1 with
    | some c => commitCarried q c.2 s
    | none => s
  let s := commitMarker q mkRecovery (s.bell.number.toNat % 2 ^ 32) s
  gapCount q (((j.losses.find? fun l => l.1 == q.val).map (·.2)).getD 0) s

/-- The last record has been applied (R369, R370). -/
def restoreDone (s : State) : State :=
  match s.snap.restore with
  | none => s
  | some j =>
    let qs := declaredQueues s j.h
    let s := { s with snap := { s.snap with restore := some { j with
      begun := false, losses := j.losses.filter fun l => !qs.any fun q => q.val == l.1 } } }
    let s := eachOf qs (restoreQueue j) s
    let s := modHolding j.h (fun x => { x with freeze := .cut, cutEdge := none }) s
    let s := record evRestoreDone j.h (datTop j.h.val 0) s
    let s := match j.hdr with
      | some x => if x.move then replayAppend x.snapId s else s
      | none => s
    endRestore .restored stOk s

/-- The stream ends the restore (R379, R380). -/
def restoreFails (code : Byte) (s : State) : State :=
  match s.snap.restore with
  | none => s
  | some j =>
    endRestore (if j.taken = 0 then .failed else .restoreFailed) code
      (record evRestoreFail j.h (datS j.h.val code 0) s)

/-- A record whose tag verifies is applied (R366). -/
def applyRecord (j : RestoreJob) (x : SnapHdr) (plain : List Byte) (s : State) : State :=
  let s := if j.taken = 0 then discardQueues j.h s else s
  let b := j.stream ++ plain
  let r := applyStream j.h b.length b s
  match r.1.snap.restore with
  | none => r.1
  | some k =>
    let s := { r.1 with snap := { r.1.snap with restore := some { k with taken := k.taken + 1, stream := r.2 } } }
    if k.taken + 1 = x.records.toNat then restoreDone s else s

/-- The next part of the stream (R365, R366, R380). -/
def restorePart (j : RestoreJob) (part : SnapPart) (s : State) : State :=
  match part, j.hdr with
  | .header x, none =>
    match headerRefusal s j.h x with
    | some e => endRestore .failed e s
    | none => { s with snap := { s.snap with restore := some { j with hdr := some x } } }
  | .header _, some _ => if j.taken = 0 then endRestore .failed stSnapAuth s else restoreFails stSnapAuth s
  | .record _ _, none => endRestore .failed stMismatch s
  | .record ok plain, some x =>
    if !ok then (if j.taken = 0 then endRestore .failed stSnapAuth s else restoreFails stSnapAuth s)
    else if j.taken = 0 && !directoryOk s j.h plain then endRestore .failed stNoSlot s
    else applyRecord j x plain s
  | .marker c, _ => if c.toNat = mkGap || c.toNat = mkFlush then restoreFails stSnapTruncated s else s

/-- Items of the first packet of a queue, when all of it is released. -/
def frontPacket (x : Queue) : Option (List Item) :=
  let l := x.items.map (·.it)
  let n := (l.takeWhile fun it => !itLast it).length + 1
  if n ≤ x.vis && n ≤ l.length then some (l.take n) else none

/-- The Reeve takes the first n items of a queue whole. -/
def takePacket (q : Fin 256) (n : Nat) (s : State) : State :=
  eachOf (List.range n) (fun _ t =>
    let t := if t.queues[q].buf = 0 then modQueue q (fun x => { x with buf := 1, consFree := x.consFree - 1 }) t else t
    takeItem q t) s

/-- The part that the operand shows is the front packet of SNAP.IN_QUEUE: a marker, or not. -/
def partMatches (part : SnapPart) (l : List Item) : Bool :=
  match part, l with
  | .marker c, [it] => isMarker it && markCode it == c.toNat
  | .marker _, _ => false
  | _, [it] => !isMarker it
  | _, _ => true

def execRestoreRecord (part : SnapPart) (s : State) : Res :=
  .next (
    match s.snap.restore with
    | none => s
    | some j =>
      let q : Fin 256 := Fin.ofNat 256 s.snap.inQueue.toNat
      match frontPacket s.queues[q] with
      | some l =>
        if j.begun && serviceQueue s s.snap.inQueue (reeveCode 6) true && partMatches part l then
          let j := { j with lastProgress := s.bell.edges }
          restorePart j part (takePacket q l.length { s with snap := { s.snap with restore := some j } })
        else s
      | none => s)

/-- 65,536 bells without progress (R379). -/
def stalled (s : State) (last : Nat) : Bool := last + 65536 ≤ s.bell.edges

def execSnapshotTruncated (restore : Bool) (s : State) : Res :=
  .next (
    if restore then
      match s.snap.restore with
      | some j => if j.begun && stalled s j.lastProgress then restoreFails stSnapTruncated s else s
      | none => s
    else
      match s.snap.job with
      | some j =>
        if j.begun && stalled s j.lastProgress then
          endSnapshot .failed stSnapTruncated (record evSnapshotFail j.h (datS j.h.val stSnapTruncated 0) s)
        else s
      | none => s)

end Sys2Proof.Machine
end

