-- ==== Sys2Proof/Machine/HostIf.lean ====
section
/-! DEFINITION. The host interface (08): the link, BAR registers, descriptor rings and the DMA engine, MSI-X, the PF0
mailbox, and the resets of functions. -/

namespace Sys2Proof.Machine

/-! The link. -/

/-- A unit of host DMA fits no slot (R435). -/
def unitUnfit (s : State) : Bool := decide (s.bell.period.toNat / 16 < unitTicks s)

/-- One record at link-up and at each change of the bell period. -/
def reportUnfit (s : State) : State :=
  if unitUnfit s then record evDmaUnitUnfit 0 (BitVec.ofNat 48 (unitTicks s)) s else s

def linkWidth (w : Nat) : Bool := w == 1 || w == 2 || w == 4 || w == 8 || w == 16

/-- The link trains (R383, R435, R447). -/
def execLinkUp (rate : Fin 6) (width : Fin 17) (s : State) : Res :=
  .next (
    if s.host.rate.val ≠ 0 || rate.val = 0 || !linkWidth width.val || !(s.pins.vsd && s.pins.vsdt) then s else
    let s := { s with host := { s.host with rate, width } }
    reportUnfit (record evPcieLinkUp 0 (BitVec.ofNat 48 (width.val * 256 + rate.val)) s))

def abandonAll (s : State) : State := eachFin 256 (fun q t => abandonTallies q true t) s

/-- The link goes down without a reset (R446). -/
def linkLost (s : State) : State :=
  if s.host.rate.val = 0 then s else
  let s := { s with host := { s.host with rate := 0, width := 0, resetSince := false } }
  deviceFatal [.linkLost] (abandonAll (record evPcieLinkLost 0 0 s))

def execPcieLinkLost (s : State) : Res := .next (linkLost s)

/-- The number under which the output log names an error of Table 08-12. -/
def aerNum : TlpErr → Nat
  | .receiverError => 1
  | .badTlp => 2
  | .badDllp => 3
  | .replayTimeout => 4
  | .replayRollover => 5
  | .poisonedBarWrite => 6
  | .ecrc => 7
  | .malformed => 8
  | .dlProtocol => 9
  | .fcProtocol => 10
  | .rxOverflow => 11

def aerTimeout : Nat := 12
def aerUr : Nat := 13
def aerCa : Nat := 14
def aerPoisoned : Nat := 15

/-- R445, Table 08-12. -/
def execTlpError (e : TlpErr) (f : Fin 33) (s : State) : Res :=
  .next (
    if s.host.rate.val = 0 then s else
    match e with
    | .receiverError | .badTlp | .badDllp | .replayTimeout | .replayRollover => emit (.aer 0 (aerNum e)) s
    | .poisonedBarWrite | .ecrc => emit (.aer f (aerNum e)) s
    | .malformed | .dlProtocol | .fcProtocol | .rxOverflow => deviceFatal [.fatalAer] (emit (.aer 0 (aerNum e)) s))

/-! Registers (R389 to R399). -/

/-- A host access to BAR0 of a function finds registers: the link is up, the VF enabled and bound (R386, R393). -/
def hostReaches (s : State) (f : Fin 33) : Bool :=
  s.host.rate.val != 0 && vfOn s f && (f.val == 0 || vfHolding s f != 0)

/-- The ring registers of queue q are f's (R394, R395, R448). -/
def ringOf (s : State) (f : Fin 33) (q : Fin 256) : Bool :=
  hostReaches s f && s.pins.corePowerGood && s.queues[q].bound && (hostEnd s.queues[q]).any fun e => e.1 == f

def fieldOf (v : BitVec 32) (lo len : Nat) : Nat := v.toNat / 2 ^ lo % 2 ^ len

/-- A write to RING_CTRL (R399, Table 08-5). -/
def ringCtrl (q : Fin 256) (v : BitVec 32) (s : State) : State :=
  let size := fieldOf v 16 4
  modRing q (fun r =>
    let r := { r with
      holdoff := BitVec.ofNat 8 (fieldOf v 8 8), vector := BitVec.ofNat 6 (fieldOf v 0 6),
      sizeLog2 := if r.st == RingSt.disabled && 6 ≤ size then BitVec.ofNat 4 size else r.sizeLog2 }
    match r.st, v.getLsbD 31 with
    | .disabled, true =>
      { r with st := .active, enable := true, head := 0, tail := 0, readIx := 0, asked := 0, cache := [] }
    | .draining, true => { r with st := .active, enable := true }
    | .active, false => { r with st := .draining, enable := false }
    | _, _ => r) s

/-- RING_CTRL written with ENABLE 1. -/
def execRingEnable (f : Fin 33) (q : Fin 256) (ctrl : BitVec 32) (s : State) : Res :=
  .next (if ringOf s f q && ctrl.getLsbD 31 then ringCtrl q ctrl s else s)

/-- RING_CTRL written with ENABLE 0. -/
def execRingDisable (f : Fin 33) (q : Fin 256) (ctrl : BitVec 32) (s : State) : Res :=
  .next (if ringOf s f q && !ctrl.getLsbD 31 then ringCtrl q ctrl s else s)

def drainRing (q : Fin 256) (s : State) : State :=
  modRing q (fun r => { r with st := .disabled, enable := false, cause := 0, cache := [], asked := 0 }) s

/-- The last tally of a DRAINING ring has completed. -/
def execRingDrained (q : Fin 256) (s : State) : Res :=
  .next (if s.rings[q].st == .draining && s.rings[q].tallies.isEmpty then drainRing q s else s)

/-- A write to RING_TAIL (R396, R397); the write-back counts of a ring in ERROR stand still. -/
def ringTail (q : Fin 256) (v : BitVec 16) (s : State) : State :=
  let r := s.rings[q]
  if r.st == .active && decide (2 ^ r.sizeLog2.toNat < (v - r.head).toNat) then ringError q 1 s
  else modRing q (fun r => { r with tail := v }) s

def execRingTailWrite (f : Fin 33) (q : Fin 256) (v : BitVec 16) (s : State) : Res :=
  .next (if ringOf s f q then ringTail q v s else s)

/-- RING_STATUS.ERROR written 1 (Table 08-5). -/
def clearRingError (q : Fin 256) (s : State) : State :=
  if s.rings[q].st == .error && s.rings[q].tallies.isEmpty then drainRing q s else s

def execRingErrorClear (f : Fin 33) (q : Fin 256) (s : State) : Res :=
  .next (if ringOf s f q then clearRingError q s else s)

/-! MSI-X (R420 to R423). -/

/-- Vectors of a function. -/
def vectors (f : Fin 33) : Nat := if f.val = 0 then 64 else 8

/-- A vector is unmasked: its pending message is sent. The spec names no command for MSI-X Enable; the host that unmasks a
vector has set it (assumption 17). -/
def unmask (f : Fin 33) (v : Nat) (s : State) : State :=
  let bit := 1#64 <<< v
  let waits := s.fns[f].pba.getLsbD v
  let s := modFn f (fun n => { n with msixEnable := true, masked := n.masked &&& ~~~bit, pba := n.pba &&& ~~~bit }) s
  if waits then emit (.msix f v) s else s

def execMsixUnmask (f : Fin 33) (v : Fin 64) (s : State) : Res :=
  .next (if hostReaches s f && decide (v.val < vectors f) then unmask f v.val s else s)

/-- Four bytes of the MSI-X table: address, data, vector control with its mask bit. -/
def tableWrite (f : Fin 33) (off : Nat) (v : BitVec 32) (s : State) : State :=
  let i := off / 16
  if vectors f ≤ i then s else
  let old := leBytes 16 (memGet s.fns[f].table i).toNat
  let s := modFn f (fun n => { n with
    table := memSet n.table i (BitVec.ofNat 128 (ofLe (bytesPut old (off % 16) (leBytes 4 v.toNat)))) }) s
  if off % 16 ≠ 12 then s
  else if v.getLsbD 0 then modFn f (fun n => { n with masked := n.masked ||| (1#64 <<< i) }) s
  else if s.fns[f].masked.getLsbD i then unmask f i s
  else s

/-- A ring's hold-off count has reached 0 with a message due. -/
def execMsixHoldoffExpiry (q : Fin 256) (s : State) : Res :=
  .next (if s.rings[q].due && s.rings[q].hoCount == 0 then ringMessage q s else s)

/-! The PF0 mailbox (R424 to R429). -/

/-- A write to SUBMIT. -/
def submit (slot : Fin 8) (len : Nat) (s : State) : State :=
  let bad := len = 0 ∨ 2048 < len
  let busy := s.host.busy.getLsbD slot.val
  if bad || busy then
    { s with host := { s.host with badLength := s.host.badLength || bad, slotBusy := s.host.slotBusy || busy } }
  else
    let msg := (padTo 2048 s.host.reqSlots[slot]).take len
    { s with host := { s.host with
      busy := s.host.busy ||| (1#8 <<< slot.val), requests := s.host.requests ++ [(slot, msg)] } }

def execPf0Submit (slot : Fin 8) (len : BitVec 16) (s : State) : Res :=
  .next (if hostReaches s 0 then submit slot len.toNat s else s)

/-- RESP_READY bits written 1: each slot whose response was ready is free. -/
def clearReady (mask : Byte) (s : State) : State :=
  let m := mask &&& s.host.respReady
  { s with host := { s.host with respReady := s.host.respReady &&& ~~~m, busy := s.host.busy &&& ~~~m } }

def execPf0RespReadyClear (mask : Byte) (s : State) : Res :=
  .next (if hostReaches s 0 then clearReady mask s else s)

/-! Registers that a read clears. -/

def execMbxLostRead (vf : Fin 33) (s : State) : Res :=
  .next (
    if vf.val = 0 || !hostReaches s vf then s else
    emit (.regRead (s.fns[vf].mbxLost.setWidth 64)) (modFn vf (fun n => { n with mbxLost := 0 }) s))

def execNoticeLostRead (s : State) : Res :=
  .next (
    if !hostReaches s 0 then s else
    emit (.regRead (s.host.noticeLost.setWidth 64)) { s with host := { s.host with noticeLost := 0 } })

def execRingAbandonedRead (f : Fin 33) (q : Fin 256) (s : State) : Res :=
  .next (
    if !ringOf s f q then s else
    emit (.regRead (s.rings[q].abandoned.setWidth 64)) (modRing q (fun r => { r with abandoned := 0 }) s))

/-! Plain register writes (R390, R391). -/

/-- Four bytes of a ring's registers. -/
def ringRegWrite (q : Fin 256) (off : Nat) (v : BitVec 32) (s : State) : State :=
  let r := s.rings[q]
  if off = 0 then
    if r.st == RingSt.disabled then modRing q (fun r => { r with base := r.base.extractLsb' 20 32 ++ v.extractLsb' 12 20 }) s
    else s
  else if off = 4 then
    if r.st == RingSt.disabled then modRing q (fun r => { r with base := v ++ r.base.extractLsb' 0 20 }) s else s
  else if off = 8 then ringCtrl q v s
  else if off = 12 then ringTail q (v.setWidth 16) s
  else if off = 20 then if v.getLsbD 4 then clearRingError q s else s
  else s

/-- A 4-byte write to PF0's BAR0 (Tables 08-2 and 08-9). -/
def pf0Write (off : Nat) (v : BitVec 32) (s : State) : State :=
  if 0x10000 ≤ off ∧ off < 0x14000 then
    let k : Fin 8 := Fin.ofNat 8 ((off - 0x10000) / 2048)
    let b := bytesPut s.host.reqSlots[k] (off % 2048) (leBytes 4 v.toNat)
    { s with host := { s.host with reqSlots := s.host.reqSlots.set k b } }
  else if off = 0x20000 then submit (Fin.ofNat 8 (fieldOf v 0 3)) (fieldOf v 16 16) s
  else if off = 0x20004 then clearReady (v.setWidth 8) s
  else if off = 0x20044 then { s with host := { s.host with noticeCons := v.setWidth 16 } }
  else if off = 0x2004C then
    { s with host := { s.host with
      badLength := s.host.badLength && !v.getLsbD 1, slotBusy := s.host.slotBusy && !v.getLsbD 0 } }
  else if 0x100000 ≤ off ∧ off < 0x100400 then tableWrite 0 (off - 0x100000) v s
  else if 0x200000 ≤ off ∧ off < 0x202000 then
    let q : Fin 256 := Fin.ofNat 256 ((off - 0x200000) / 32)
    if ringOf s 0 q then ringRegWrite q (off % 32) v s else s
  else s

/-- A 4-byte write to a VF's BAR0 (Table 08-3). -/
def vfWrite (f : Fin 33) (off : Nat) (v : BitVec 32) (s : State) : State :=
  if 0x4000 ≤ off ∧ off < 0x6000 then
    let q : Fin 256 := Fin.ofNat 256 ((off - 0x4000) / 32)
    if ringOf s f q then ringRegWrite q (off % 32) v s else s
  else if off = 0x10004 then modFn f (fun n => { n with mbxCons := v.setWidth 16 }) s
  else if 0x20000 ≤ off ∧ off < 0x20080 then tableWrite f (off - 0x20000) v s
  else s

def regWrite (f : Fin 33) (off : Nat) (v : BitVec 32) (s : State) : State :=
  if !hostReaches s f then s else if f.val = 0 then pf0Write off v s else vfWrite f off v s

/-- An aligned write of 4 or 8 bytes; any other is discarded (R391). A write of 8 bytes writes the lower register first. -/
def execBarRegisterWrite (f : Fin 33) (off : BitVec 24) (width : Nat) (v : BitVec 64) (s : State) : Res :=
  .next (
    let o := off.toNat
    if width = 4 && o % 4 == 0 then regWrite f o (v.extractLsb' 0 32) s
    else if width = 8 && o % 8 == 0 then regWrite f (o + 4) (v.extractLsb' 32 32) (regWrite f o (v.extractLsb' 0 32) s)
    else s)

/-! The DMA engine (R407 to R419). -/

/-- A descriptor as the driver wrote it (Table 08-6). -/
structure Desc where
  addr : Nat
  len : Nat
  irq : Bool
  pack : Bool
deriving DecidableEq, Repr

def descOf (b : List Byte) : Desc :=
  let f := ofLe (bytesAt b 12 2)
  ⟨ofLe (bytesAt b 0 8), ofLe (bytesAt b 8 4), natBit f 0, natBit f 1⟩

/-- R434. -/
def descValid (h2d : Bool) (d : Desc) : Bool :=
  d.addr % 8 == 0 && 8 ≤ d.len && d.len ≤ 1048576 && d.len % 8 == 0 && !(d.pack && h2d)

/-- The ring may receive a new tally for its next cached descriptor (R413 to R416, R444). -/
def mayIssue (s : State) (q : Fin 256) : Bool :=
  let r := s.rings[q]
  let h := r.holder
  r.st == .active && !r.cache.isEmpty && decide (r.tallies.length < 32) && s.host.talliesFree != 0 &&
    carries s.queues[q] &&
    if h.val = 0 then decide (talliesOf s 0 < 512)
    else s.holdings[h].st == .running && decide (talliesOf s h < s.holdings[h].tallyQuota.toNat)

/-- The next cached descriptor. -/
def nextDesc (s : State) (q : Fin 256) : Desc := descOf (s.rings[q].cache.head?.getD [])

/-- A tally for the next cached descriptor; an invalid one has its code at once. -/
def issue (q : Fin 256) (s : State) : State :=
  let r := s.rings[q]
  let d := nextDesc s q
  let t : Tally :=
    { addr := BitVec.ofNat 64 d.addr, len := d.len, irq := d.irq, pack := d.pack, sent := 0, asked := 0, whole := 0,
      code := if descValid r.h2d d then none else some codeInvalid, lastSent := false }
  let s := modRing q (fun r => { r with cache := r.cache.drop 1, tallies := r.tallies ++ [t] }) s
  { s with host := { s.host with talliesFree := s.host.talliesFree - 1 } }

/-- Updates the first tally that a test chooses. -/
def modTally (p : Tally → Bool) (f : Tally → Tally) : List Tally → List Tally
  | [] => []
  | t :: l => if p t then f t :: l else t :: modTally p f l

def modTallies (q : Fin 256) (p : Tally → Bool) (f : Tally → Tally) (s : State) : State :=
  modRing q (fun g => { g with tallies := modTally p f g.tallies }) s

def openTally (t : Tally) : Bool := t.code.isNone

/-- A tally whose buffer has not been requested whole. -/
def wantsData (t : Tally) : Bool := t.code.isNone && decide (t.asked < t.len)

/-- Released items in the consumer buffer. -/
def sendable (x : Queue) : Nat := min x.vis x.buf

/-- Length of the packet at the front. -/
def frontLen (l : List Item) : Nat := (l.takeWhile fun it => !itLast it).length + 1

/-- How many released items one data write takes, at most n of them, and whether the descriptor ends there (R404, R405). -/
def runLength (pack : Bool) : Nat → Nat → List Item → Nat × Bool
  | 0, _, _ => (0, false)
  | _ + 1, _, [] => (0, false)
  | n + 1, space, it :: rest =>
    if space ≤ 1 then (1, true)
    else if itLast it && (!pack || rest.isEmpty || decide (space - 1 < frontLen rest)) then (1, true)
    else
      let r := runLength pack n (space - 1) rest
      (r.1 + 1, r.2)

/-- The engine sends a data write for the ring's open tally (R403 to R406). -/
def dataWrite (q : Fin 256) (s : State) : State :=
  match s.rings[q].tallies.find? openTally with
  | none => s
  | some t =>
    let x := s.queues[q]
    let rel := (x.items.take x.vis).map (·.it)
    let r := runLength t.pack (min (unitBytes s / 8) (sendable x)) ((t.len - t.sent) / 8) rel
    let its := rel.take r.1
    let s := emit (.tlpWrite s.rings[q].fn (t.addr + BitVec.ofNat 64 t.sent)
      (its.map fun it => leBytes 8 it.toNat).flatten) s
    let s := eachOf its (fun _ u => takeItem q u) s
    modTallies q openTally (fun t => { t with
      sent := t.sent + 8 * r.1, code := if r.2 then some codeOk else none,
      lastSent := (its.getLast?).any itLast }) s

/-- Bytes requested by the ring's reads that have not arrived. -/
def inFlight (r : Ring) : Nat := ((r.tallies.filter openTally).map fun t => t.asked - t.sent).sum

/-- R408, for a tally with `left` bytes to request. -/
def readSize (s : State) (q : Fin 256) (left : Nat) : Nat :=
  min (min (8 * (s.queues[q].prodFree - inFlight s.rings[q] / 8)) 512) (min s.host.mrrs left)

/-- The engine sends a data read request. -/
def dataRead (q : Fin 256) (s : State) : State :=
  match s.rings[q].tallies.find? wantsData with
  | none => s
  | some t =>
    let n := readSize s q (t.len - t.asked)
    let s := emit (.tlpRead s.rings[q].fn (t.addr + BitVec.ofNat 64 t.asked) n) s
    modTallies q wantsData (fun t => { t with asked := t.asked + n }) s

/-- Descriptors that the next read covers: contiguous ones, within the cache's 128 (R409). -/
def descReadCount (s : State) (r : Ring) : Nat :=
  let size := 2 ^ r.sizeLog2.toNat
  min (min (min s.host.mrrs 4096 / 32) (r.tail - r.readIx).toNat)
    (min (128 - r.cache.length) (size - r.readIx.toNat % size))

def descRead (q : Fin 256) (s : State) : State :=
  let r := s.rings[q]
  let n := descReadCount s r
  emit (.tlpRead r.fn (BitVec.ofNat 64 (descAddr r r.readIx.toNat)) (32 * n)) (modRing q (fun r => { r with asked := n }) s)

/-- The open tally, or one issued now, is of a ring running in this direction with a valid descriptor. -/
def canStart (s : State) (q : Fin 256) (p : Tally → Bool) : Bool :=
  (s.rings[q].tallies.any p) || (mayIssue s q && descValid s.rings[q].h2d (nextDesc s q))

/-- A unit of the kind is ready for the ring. -/
def unitReady (s : State) (q : Fin 256) (k : DmaKind) : Bool :=
  let r := s.rings[q]
  let x := s.queues[q]
  maySend s r.fn &&
  match k with
  | .dataWrite => !r.h2d && delivers s q && sendable x != 0 && canStart s q openTally
  | .dataRead =>
    let left := match r.tallies.find? wantsData with
      | some t => t.len - t.asked
      | none => (nextDesc s q).len
    r.h2d && carries x && canStart s q wantsData && decide (8 ≤ readSize s q left)
  | .descRead => r.st == .active && r.asked == 0 && descReadCount s r != 0
  | .writeBack =>
    match r.tallies with
    | t :: _ => t.code.isSome
    | [] => mayIssue s q && !descValid r.h2d (nextDesc s q)

def anyUnit (s : State) (q : Fin 256) : Bool :=
  unitReady s q .dataWrite || unitReady s q .dataRead || unitReady s q .descRead || unitReady s q .writeBack

/-- Places from the ring after `last` up to q. -/
def turnsTo (last q : Fin 256) : Nat := (q.val + 255 - last.val) % 256

/-- It is the ring's turn among the rings of its owner that have a unit ready (R411). -/
def ringTurn (s : State) (q : Fin 256) : Bool :=
  let h := s.rings[q].holder
  let last := s.host.lastRing[h]
  (List.finRange 256).all fun g =>
    s.rings[g].holder != h || !(s.queues[g].bound && anyUnit s g) || turnsTo last q ≤ turnsTo last g

/-- The ring's owner holds the slot in progress, the engine is free and U ticks of the slot are left (R42, R407, R411,
R435). -/
def dmaSlot (s : State) (q : Fin 256) : Bool :=
  let b := (s.slots.maps[(0 : Fin 18)])[s.bell.slot]
  !noEdge s && b.toNat == s.rings[q].holder.val && s.host.lastUnit ≤ s.bell.now &&
    s.bell.now + unitTicks s ≤ s.bell.edgeAt + slotStart s.bell.len (s.bell.slot.val + 1)

/-- The time of a unit is spent. -/
def spend (q : Fin 256) (s : State) : State :=
  { s with host := { s.host with
    lastUnit := s.bell.now + unitTicks s, lastRing := s.host.lastRing.set s.rings[q].holder q } }

def runUnit (q : Fin 256) (k : DmaKind) (s : State) : State :=
  match k with
  | .dataWrite => dataWrite q (if s.rings[q].tallies.any openTally then s else issue q s)
  | .dataRead => dataRead q (if s.rings[q].tallies.any wantsData then s else issue q s)
  | .descRead => descRead q s
  | .writeBack =>
    let s := if s.rings[q].tallies.isEmpty then issue q s else s
    match s.rings[q].tallies with
    | t :: _ => match t.code with
      | some c => writeBack q t c s
      | none => s
    | [] => s

/-- A unit; one that the link partner's credits do not allow is not started (R412). -/
def execHostDmaUnit (q : Fin 256) (k : DmaKind) (fcOk : Bool) (s : State) : Res :=
  .next (
    if !(unitReady s q k && dmaSlot s q && ringTurn s q) then s
    else if fcOk then spend q (runUnit q k s)
    else spend q { s with host := { s.host with fcStalls := satAdd s.host.fcStalls 1 } })

/-! Completions (R410, R442, R443). -/

/-- A descriptor read fails: the ring enters ERROR while it is ACTIVE (Table 08-5). -/
def descFailed (q : Fin 256) (code : Nat) (s : State) : State :=
  let s := emit (.aer s.rings[q].fn code) s
  if s.rings[q].st == .active then ringError q 2 s else modRing q (fun r => { r with asked := 0 }) s

def execDescriptorReadCompletion (q : Fin 256) (ok : Bool) (descs : List (List Byte)) (s : State) : Res :=
  .next (
    let n := s.rings[q].asked
    if n = 0 then s
    else if !ok then descFailed q aerUr s
    else modRing q (fun r => { r with
      cache := r.cache ++ (List.range n).map (fun i => padTo 32 ((descs[i]?).getD [])),
      readIx := r.readIx + BitVec.ofNat 16 n, asked := 0 }) s)

/-- A tally that waits for data. -/
def waitsData (t : Tally) : Bool := t.code.isNone && decide (t.sent < t.asked)

/-- One item word is accepted into staging (R401, R402). -/
def takeWord (q : Fin 256) (bad : Bool) (w : BitVec 64) (s : State) : State :=
  let it : Item := w.extractLsb' 0 52
  let it := if bad then setBad it else it
  let s := stageItem q it s
  modTallies q waitsData (fun t =>
    { t with sent := t.sent + 8, whole := if itLast it then t.sent + 8 else t.whole, lastSent := itLast it }) s

/-- The descriptor of the oldest tally that waits for data completes with an error code (R442). -/
def readFails (q : Fin 256) (aer : Nat) (s : State) : State :=
  let f := s.rings[q].fn
  let s := rewindPlace q s
  let s := modTallies q waitsData (fun t => { t with code := some codeHostError }) s
  record evDmaHostError (queueOwner s q) (datTop q.val f.val) (emit (.aer f aer) s)

/-- The tally that took data completes when its buffer has been accepted whole (R402). -/
def finishRead (code : Option Byte) (l : List Tally) : List Tally :=
  modTally openTally (fun t =>
    { t with code := if code.isSome then code else if t.sent = t.len then some codeOk else none }) l

def dataArrives (q : Fin 256) (poisoned : Bool) (words : List (BitVec 64)) (s : State) : State :=
  match s.rings[q].tallies.find? waitsData with
  | none => s
  | some t =>
    let s := eachOf (words.take ((t.asked - t.sent) / 8)) (takeWord q poisoned) s
    let s := modRing q (fun g => { g with
      tallies := finishRead (if poisoned then some codePoisoned else none) g.tallies }) s
    if poisoned then emit (.aer s.rings[q].fn aerPoisoned) s else s

def execDataReadCompletion (q : Fin 256) (st : CplStatus) (words : List (BitVec 64)) (s : State) : Res :=
  .next (
    if !s.rings[q].tallies.any waitsData then s else
    match st with
    | .ok => dataArrives q false words s
    | .poisoned => dataArrives q true words s
    | .ur => readFails q aerUr s
    | .ca => readFails q aerCa s)

/-- A data read times out, or else a descriptor read. -/
def execCompletionTimeout (q : Fin 256) (s : State) : Res :=
  .next (
    if s.rings[q].tallies.any waitsData then readFails q aerTimeout s
    else if s.rings[q].asked ≠ 0 then descFailed q aerTimeout s
    else s)

/-! Resets of functions and power states (Table 08-13). -/

/-- What a reset of the function does to its PCI Express state (assumption 17). -/
def resetFn (n : Fn) : Fn :=
  { n with
    msixEnable := false, masked := BitVec.allOnes 64, pba := 0, table := [], busMaster := false, d3hot := false }

def eachRing (f : Fin 33) (g : Fin 256 → State → State) (s : State) : State :=
  eachFin 256 (fun q t => if t.rings[q].fn == f then g q t else t) s

/-- A VF's FLR: its mailbox is emptied, then its tallies are abandoned and the event posted. -/
def vfReset (f : Fin 33) (s : State) : State :=
  let s := modFn f (fun n => { resetFn n with mbxCons := n.mbxProd, mbxLost := 0 }) s
  eachRing f (fun q t => resetRing q true t) s

/-- The PF0 mailbox is cleared (R450). -/
def clearPf0Mailbox (s : State) : State :=
  { s with host := { s.host with
    reqSlots := Vector.replicate 8 [], busy := 0, respReady := 0, respLen := Vector.replicate 8 0,
    respSlots := Vector.replicate 8 [], noticeSlots := Vector.replicate 16 [], noticeProd := 0, noticeCons := 0,
    noticeLost := 0, badLength := false, slotBusy := false, requests := [] } }

def vfs : List (Fin 33) := (List.finRange 33).filter fun f => f.val != 0

/-- VF Enable is cleared: every VF acts as at a VF FLR. -/
def disableVfs (s : State) : State :=
  eachOf vfs vfReset { s with host := { s.host with vfEnable := false } }

def pf0Reset (s : State) : State :=
  let s := clearPf0Mailbox { s with host := { s.host with resetSince := true } }
  let s := modFn 0 resetFn s
  disableVfs (eachRing 0 (fun q t => resetRing q true t) s)

def execFunctionLevelReset (f : Fin 33) (s : State) : Res :=
  .next (
    if s.host.rate.val = 0 || !vfOn s f then s
    else if f.val = 0 then pf0Reset s
    else vfReset f s)

/-- A hot reset, or PCIE_PERST_N low: the link trains again afterwards. -/
def hotReset (s : State) : State :=
  let s := clearPf0Mailbox { s with host := { s.host with
    rate := 0, width := 0, mps := 128, mrrs := 512, vfEnable := false, ari := false, numVfs := 0, resetSince := true } }
  let s := { s with fns := s.fns.map fun n => { resetFn n with mbxProd := 0, mbxCons := 0, mbxLost := 0, mbx := [] } }
  eachFin 256 (fun q t => resetRing q false t) s

def execHotReset (s : State) : Res := .next (hotReset s)

/-- Entry to D3hot. -/
def execD3hotEntry (f : Fin 33) (s : State) : Res :=
  .next (
    if s.host.rate.val = 0 || !vfOn s f then s else
    eachRing f disableRing (modFn f (fun n => { n with d3hot := true }) s))

/-- Bus Master Enable of a function (R440); one that sets it runs in D0 (assumption 17). Write-backs that a fault or an
unbinding decided follow. -/
def execBusMasterEnableChange (f : Fin 33) (on : Bool) (s : State) : Res :=
  .next (
    if s.host.rate.val = 0 || !vfOn s f then s else
    let s := modFn f (fun n => { n with busMaster := on, d3hot := n.d3hot && !on }) s
    if on then eachRing f (fun q t => sendForced q 32 t) s else s)

/-- The SR-IOV control of PF0 (R385, R386): a VF that is no longer enabled acts as at its FLR. -/
def execVfEnableWrite (enable ari : Bool) (numVfs : BitVec 16) (s : State) : Res :=
  .next (
    if s.host.rate.val = 0 then s else
    let t := { s with host := { s.host with vfEnable := enable, ari, numVfs } }
    eachOf (vfs.filter fun f => vfOn s f && !vfOn t f) vfReset t)

end Sys2Proof.Machine
end

