-- ==== Sys2Proof/Machine/Fnet.lean ====
section
/-! DEFINITION. The field network and sessions (12): PLCA, addresses, ANNOUNCE and neighbours, HELLO, AUTH, KEEPALIVE, CLOSE,
subscriptions as they fall due, and the field network's own entries. -/

namespace Sys2Proof.Machine

/-! PLCA and transmission (R614 to R616, R654, R660, R661). -/

/-- The field network runs from the verification of stage 1 (R663). -/
def fnetRuns (s : State) : Bool :=
  match s.boot.phase with
  | .romPassed | .released | .running => true
  | .atReset | .halted _ => false

def coordinator (s : State) : Bool := s.fnet.nodeId == 0

/-- A BEACON is on the segment; `own` when the device sent it. -/
def execBeaconReceived (own : Bool) (s : State) : Res :=
  .next (
    if !fnetRuns s then s
    else if !coordinator s then { s with fnet := { s.fnet with plcaOk := true } }
    else if own then s
    else limited evFnetPlcaConflict 0 1 { s with fnet := { s.fnet with conflict := true } })

def execFnetPlcaLost (s : State) : Res :=
  .next (
    if !fnetRuns s || coordinator s || !s.fnet.plcaOk then s else
    record evFnetPlcaLost 0 0 { s with fnet := { s.fnet with plcaOk := false } })

/-- The coordinator sends a BEACON; its own PLCA is then OK (assumption 18). -/
def execPlcaBeacon (s : State) : Res :=
  .next (
    if !fnetRuns s || !coordinator s || !s.fnet.enable then s else
    emit .beacon { s with fnet := { s.fnet with plcaOk := true } })

/-- The device may transmit in its opportunity. -/
def mayTransmit (s : State) : Bool :=
  fnetRuns s && s.fnet.enable && s.fnet.nodeId != 255 && (coordinator s || s.fnet.plcaOk)

/-- A frame may leave now: only the solicitation of duplicate address detection before the address is valid. -/
def frameReady (s : State) (o : Out) : Bool :=
  match o with
  | .dadSolicit => s.fnet.dadRunning
  | _ => s.fnet.addrValid

def onFnet : Path → Bool
  | .fnet _ => true
  | .pf0 _ | .ssp1 => false

/-- An unsolicited message of a session takes the next device counter (R642); a counter at its end closes it (R653). -/
def notify (se : Session) (inner : List Byte) (s : State) : State :=
  if se.dev = 0 then s else
  let se' := { se with dev := se.dev + 1 }
  let s := sendNotice se.path se.id se.dev inner (modSession se.id (fun _ => se') s)
  if se.dev = BitVec.allOnes 32 then closeSession se' crCounter s else s

/-- A REPORT: the operation, then the body with SKIPPED in its place. -/
def reportInner (body : List Byte) (skipped : Nat) : List Byte :=
  [opReport, 0, 0, 0] ++ bytesPut body 16 (beBytes 2 skipped)

def modSub (id : BitVec 32) (k : BitVec 8) (f : Subn → Subn) (s : State) : State :=
  modSession id (fun se => { se with subs := se.subs.map fun x => if x.id == k then f x else x }) s

/-- The REPORT that a subscription holds is sent; SKIPPED returns to 0 (R649). -/
def sendReport (id : BitVec 32) (k : BitVec 8) (s : State) : State :=
  match findSession s id with
  | none => s
  | some se =>
    match se.subs.find? (·.id == k) with
    | none => s
    | some x =>
      match x.unsent with
      | none => s
      | some b =>
        let s := modSub id k (fun x => { x with unsent := none, skipped := 0 }) s
        match findSession s id with
        | some se => notify se (reportInner b x.skipped.toNat) s
        | none => s

/-- The first REPORT that waits for the field network. -/
def waitingReport (s : State) : Option (BitVec 32 × BitVec 8) :=
  (((s.fnet.sessions.filter fun se => onFnet se.path).map fun se =>
    (se.subs.filter fun x => x.unsent.isSome).map fun x => (se.id, x.id)).flatten).head?

/-- One frame of a transmit opportunity: the oldest that may leave. -/
def transmitOne (s : State) : State :=
  let s := if (s.fnet.txq.any (frameReady s)) || !s.fnet.addrValid then s else
    match waitingReport s with
    | some r => sendReport r.1 r.2 s
    | none => s
  match s.fnet.txq.find? (frameReady s) with
  | none => s
  | some o => emit o { s with fnet := { s.fnet with txq := s.fnet.txq.erase o } }

/-- A transmit opportunity: one frame, and as many more as the burst count (R615). -/
def execTransmitOpportunity (s : State) : Res :=
  .next (
    if mayTransmit s then eachOf (List.range (1 + s.fnet.burstCount.toNat)) (fun _ t => transmitOne t) s else s)

/-! Addresses (R617, R618, R655, R659). -/

/-- The modified EUI-64 interface identifier of FNET.MAC. -/
def ownIid (s : State) : BitVec 64 :=
  (s.fnet.mac.extractLsb' 24 24 ^^^ 0x020000#24) ++ 0xFFFE#16 ++ s.fnet.mac.extractLsb' 0 24

def enqueue (o : Out) (s : State) : State := { s with fnet := { s.fnet with txq := s.fnet.txq ++ [o] } }

def execDadComplete (s : State) : Res :=
  .next (
    if !s.fnet.dadRunning then s else
    enqueue .mldReport { s with fnet := { s.fnet with dadRunning := false, addrValid := true } })

def execFnetDadFail (s : State) : Res :=
  .next (
    if !s.fnet.dadRunning then s else
    record evFnetDadFail 0 0 { s with fnet := { s.fnet with dadRunning := false, addrValid := false, dadFail := true } })

def execNeighbourSolicitation (src target : BitVec 64) (s : State) : Res :=
  .next (if s.fnet.addrValid && target == ownIid s then enqueue (.neighbourAdvert src) s else s)

def execEchoRequest (src : BitVec 64) (payload : List Byte) (s : State) : Res :=
  .next (if s.fnet.addrValid then enqueue (.echoReply src payload) s else s)

/-! Discovery (R623 to R626). -/

/-- Table 12-2, with SOLICIT clear. -/
def announceBody (s : State) : List Byte :=
  beBytes 6 Config.serial.toNat ++ beBytes 2 0x4896 ++ [0x56, s.fnet.nodeId] ++ beBytes 2 s.fnet.port.toNat ++
    beBytes 4 s.boot.fw.toNat ++ beBytes 6 s.bell.number.toNat ++
    [BitVec.ofNat 8 (64 - s.fnet.sessions.length), BitVec.ofNat 8 (ofBits [s.pins.corePowerGood, s.dev.fatal])]

def announces (s : State) : Bool := fnetRuns s && s.fnet.addrValid && s.fnet.nodeId != 255

/-- The announce interval ends; its spacing is drawn from the DRBG once that is seeded. -/
def execAnnounceTimer (s : State) : Res :=
  .next (
    if !announces s then s else
    let s := if s.boot.seeded then drbgDraw s else s
    enqueue (.multicast (announceBody s)) s)

/-- Ticks of one second. -/
def secondTicks : Nat := 1250000000

/-- A neighbour is heard: its entry is the newest; a new one replaces the one heard longest ago. -/
def hearNeighbour (src : BitVec 64) (body : List Byte) (s : State) : State :=
  let l := s.fnet.neighbours.filter fun n => n.iid != src
  let l := if 64 ≤ l.length then l.drop 1 else l
  { s with fnet := { s.fnet with neighbours := l ++ [⟨src, body⟩] } }

/-- The answer to SOLICIT, at most once per sender per second. -/
def answerSolicit (src : BitVec 64) (s : State) : State :=
  if s.fnet.replied.any fun r => r.1 == src && decide (s.bell.now < r.2 + secondTicks) then s else
  let replied := (src, s.bell.now) :: s.fnet.replied.filter fun r => r.1 != src
  enqueue (.plain (.fnet src) 0x01 (announceBody s)) { s with fnet := { s.fnet with replied } }

def execAnnounce (path : Path) (body : List Byte) (s : State) : Res :=
  .next (
    match path with
    | .fnet src =>
      if !fnetRuns s then s
      else if body.length ≠ 24 then rxDrop s
      else
        let s := hearNeighbour src body s
        if ((body[23]?).getD 0).getLsbD 2 && announces s then answerSolicit src s else s
    | .pf0 _ | .ssp1 => noResponse path s)

def execNeighbourExpiry (src : BitVec 64) (s : State) : Res :=
  .next { s with fnet := { s.fnet with neighbours := s.fnet.neighbours.filter fun n => n.iid != src } }

/-! Sessions (R627 to R634, R645, R646). -/

/-- A message that is not SEALED: the header of Table 12-1 and its body. -/
def plainMsg (kind : Byte) (sess : BitVec 32) (body : List Byte) : List Byte :=
  beBytes 2 0x5542 ++ [0x01, kind] ++ beBytes 4 sess.toNat ++ beBytes 4 0 ++ beBytes 2 body.length ++ [0, 0] ++ body

/-- A WELCOME or REFUSE goes back on the path of its HELLO. -/
def answerPlain (p : Path) (kind : Byte) (sess : BitVec 32) (body : List Byte) (s : State) : State :=
  match p with
  | .fnet _ => enqueue (.plain p kind body) s
  | .pf0 k => emit (.plain p kind body) (pf0Respond k (plainMsg kind sess body) (16 + body.length) s)
  | .ssp1 => emit (.plain p kind body) (ssp1Respond (plainMsg kind sess body) (16 + body.length) s)

def refuse (p : Path) (st : Byte) (s : State) : State := answerPlain p 0x05 0 [st] s

/-- The drawn ID, or the next one after it that is not 0 and not in use (R628). -/
def freshId (used : List (BitVec 32)) : Nat → BitVec 32 → BitVec 32
  | 0, v => v
  | n + 1, v => if v = 0 ∨ used.contains v then freshId used n (v + 1) else v

/-- A session opens with the PUBLIC role (R628, R632). -/
def welcome (p : Path) (hello : List Byte) (s : State) : State :=
  let k := s.boot.draws
  let s := drbgDraw (drbgDraw (drbgDraw s))
  let id := freshId (s.fnet.sessions.map (·.id)) 66 (Config.sessionId k)
  let head := beBytes 4 id.toNat ++ padTo 97 (Config.ephPub (k + 1)) ++ padTo 16 (Config.drbg (k + 2) 16)
  let t := Config.sha384 (hello ++ head)
  let se : Session :=
    { id, role := .pub, path := p, next := 1, dev := 1, transcript := t, authFails := 0, kept := [], subs := [] }
  let s := { s with fnet := { s.fnet with sessions := s.fnet.sessions ++ [se] } }
  let s := record evSessionOpen 0 (sessionData .pub id) s
  answerPlain p 0x03 id (head ++ padTo 96 (Config.identitySign (beBytes 48 t.toNat))) s

/-- A HELLO executes: it waits for the DRBG when that is not seeded (R631, R733). -/
def hello (p : Path) (body : List Byte) (s : State) : State :=
  if body.length ≠ 113 then noResponse p (rxDrop s)
  else if 64 ≤ s.fnet.sessions.length then refuse p stNoSlot s
  else if s.boot.seeded then welcome p body s
  else { s with boot := { s.boot with waiting := s.boot.waiting ++ [.hello p body] } }

def execHello (path : Path) (body : List Byte) (s : State) : Res :=
  .next (if serving s then hello path body s else s)

/-- The role that a credential claims, none when it is not laid out as Table 12-3. -/
def credRole (c : Cred) : Option Role :=
  if c.role = 1 ∧ c.holding = 0 then some .operator
  else if c.role = 2 ∧ 1 ≤ c.holding.toNat ∧ c.holding.toNat ≤ 31 then some (.tenant (Fin.ofNat 32 c.holding.toNat))
  else if c.role = 3 ∧ c.holding = 0 then some .maint
  else none

/-- The epoch in force for a role (R633). -/
def epochOf (s : State) : Role → BitVec 32
  | .tenant h => s.holdings[h].credEpoch
  | .pub | .operator | .maint => s.fnet.credEpoch

/-- AUTH succeeds (R633): the role it gives. -/
def authRole (s : State) (c : Cred) (sigOk proofOk : Bool) : Option Role :=
  match credRole c with
  | some r => if sigOk && proofOk && (c.serial == 0 || c.serial == Config.serial) && c.epoch == epochOf s r then some r
    else none
  | none => none

/-- R634. -/
def authFails (rq : Req) (se : Session) (c : Cred) (s : State) : State :=
  let n := se.authFails + 1
  let s := modSession se.id (fun x => { x with authFails := n })
    { s with fnet := { s.fnet with authFails := satAdd s.fnet.authFails 1 } }
  let s := record evAuthFail 0 (BitVec.ofNat 48 (c.role.toNat * 2 ^ 32 + se.id.toNat)) s
  let s := respond rq opAuth stDenied (Config.respType opAuth) (bellNow s) [] s
  if n < 3 then s else
  match findSession s se.id with
  | some x => closeSession x crAuth s
  | none => s

def execAuth (rq : Req) (cred : Cred) (sigOk proofOk : Bool) (s : State) : Res :=
  .next (serve rq (fun se s =>
    if se.role != .pub then respond rq opAuth stBusy (Config.respType opAuth) (bellNow s) [] s
    else if s.boot.revokePending then respond rq opAuth stNotReady (Config.respType opAuth) (bellNow s) [] s
    else
    match authRole s cred sigOk proofOk with
    | none => authFails rq se cred s
    | some r =>
      let s := modSession se.id (fun x => { x with role := r }) s
      let s := record evSessionOpen (roleOwner r) (sessionData r se.id) s
      respond rq opAuth stOk (Config.respType opAuth) (bellNow s) [cred.role, cred.holding] s) s)

def execKeepalive (rq : Req) (s : State) : Res :=
  .next (serve rq (fun _ s => respond rq opKeepalive stOk (Config.respType opKeepalive) (bellNow s) [] s) s)

/-- The client closes its session; the response comes first (Table 12-5). -/
def execClose (rq : Req) (_reason : Byte) (s : State) : Res :=
  .next (serve rq (fun se s =>
    let s := respond rq opClose stOk (Config.respType opClose) (bellNow s) [] s
    match findSession s se.id with
    | some x => closeSession x crClient s
    | none => s) s)

/-- 30 s without a client message (R645). -/
def execSessionExpiry (sess : BitVec 32) (s : State) : Res :=
  .next (
    match findSession s sess with
    | some se => if serving s then closeSession se crExpired s else s
    | none => s)

/-! Subscriptions as they fall due (R647 to R650). -/

/-- A due edge of the subscription began the bell in progress. -/
def subDue (s : State) (x : Subn) : Bool := s.bell.number.toNat % x.period.toNat == x.phase.toNat

/-- The body of a REPORT, SKIPPED left at 0 (Table 12-7). -/
def reportBody (x : Subn) (st : Byte) (bell : BellNo) (value : List Byte) : List Byte :=
  [x.id, st, typeByte opReport x.ix x.sub.toNat, 0] ++ beBytes 6 bell.toNat ++ beBytes 6 bell.toNat ++ [0, 0] ++
    beBytes 2 value.length ++ value

/-- The value of an entry as its bytes. -/
def entryBytes (s : State) (role : Role) (ix : BitVec 16) (sub : Nat) : List Byte :=
  match areaOf ix, attrOf ix sub with
  | some a, some at_ => valBytes at_.ty (entryVal s role a sub)
  | _, _ => []

/-- The REPORT waits for its path; one that still waits is replaced and counted. Paths without a wait send it at once. -/
def putReport (se : Session) (k : BitVec 8) (b : List Byte) (s : State) : State :=
  let s := modSub se.id k (fun x => { x with
    unsent := some b, skipped := if x.unsent.isSome then satAdd x.skipped 1 else x.skipped }) s
  if onFnet se.path then s else sendReport se.id k s

/-- A read that the role no longer permits ends the subscription with its REPORT (R650). -/
def endSub (se : Session) (x : Subn) (b : List Byte) (s : State) : State :=
  let s := modSession se.id (fun y => { y with subs := y.subs.filter fun z => z.id != x.id }) s
  match findSession s se.id with
  | some y => notify y (reportInner b x.skipped.toNat) s
  | none => s

def execSubscriptionDue (sess : BitVec 32) (subId : Byte) (s : State) : Res :=
  .next (
    match findSession s sess with
    | none => s
    | some se =>
      match se.subs.find? (·.id == subId) with
      | none => s
      | some x =>
        if !serving s || !subDue s x then s else
        let n := s.bell.number
        match checkEntry s se.role x.ix x.sub.toNat .r true true true with
        | none => putReport se subId (reportBody x stOk n (entryBytes s se.role x.ix x.sub.toNat)) s
        | some e =>
          if e = stDenied then endSub se x (reportBody x e n []) s else putReport se subId (reportBody x e n []) s)

/-! Entries of the field network (R652, R654). -/

def execFnetMacWrite (rq : Req) (v : BitVec 48) (s : State) : Res :=
  .next (writePersist rq 0x6300 2 true true (fun _ => none) (.num v.toNat) s)

def execFnetUdpPortWrite (rq : Req) (v : BitVec 16) (s : State) : Res :=
  .next (writePersist rq 0x6300 3 true (1024 ≤ v.toNat) (fun _ => none) (.num v.toNat) s)

/-- The ranges of the PLCA entries: only the node ID and the burst count may be 0. -/
def plcaOk (sub : Nat) (v : Nat) : Bool := sub == 4 || sub == 7 || v != 0

/-- FNET.PLCA_NODE_ID, _NODE_COUNT, _TO_TIMER, _BURST_COUNT, _BURST_TIMER. -/
def execPlcaEntryWrite (rq : Req) (k : Fin 5) (v : Byte) (s : State) : Res :=
  .next (writePersist rq 0x6300 (4 + k.val) true (plcaOk (4 + k.val) v.toNat) (fun _ => none) (.num v.toNat) s)

/-- FNET.CRED_EPOCH for h = 0, else HOLDING.CRED_EPOCH (R635). -/
def execCredEpochWrite (rq : Req) (h : Fin 32) (v : BitVec 32) (s : State) : Res :=
  .next (
    if h.val = 0 then writePersist rq 0x6300 0x10 true true (fun _ => none) (.num v.toNat) s
    else writePersist rq (hix h 0x80) 1 true true (fun _ => none) (.num v.toNat) s)

end Sys2Proof.Machine
end

