-- ==== Sys2Proof/Machine/Boot.lean ====
section
/-! DEFINITION. Boot and trust (14): the slot directory, the ROM barrier and the release of the cores, the health check,
slot writing and BOOT.UPDATE, operator key rotation, the entropy source and what waits for it, attestation, and the loss
and restart of Reeve cores (19). -/

namespace Sys2Proof.Machine

def modBoot (f : Boot → Boot) (s : State) : State := { s with boot := f s.boot }

/-! The slot directory (R705 to R707, Table 14-3). -/

def slotStNum : SlotSt → Nat
  | .empty => 0
  | .writing => 1
  | .verified => 2
  | .bad => 3

def slotStOf (n : Nat) : SlotSt := if n = 0 then .empty else if n = 1 then .writing else if n = 2 then .verified else .bad

/-- A copy as stored, its CRC last. -/
def dirBytes (d : Dir) : List Byte :=
  let b := padTo 60 (beBytes 4 0x56474449 ++ beBytes 1 1 ++ beBytes 1 (b2n d.activeB) ++ beBytes 1 (b2n d.trial) ++ [0] ++
    beBytes 4 d.seq.toNat ++ beBytes 4 d.genA.toNat ++ beBytes 4 d.genB.toNat ++ beBytes 1 (slotStNum d.stA) ++
    beBytes 1 (slotStNum d.stB))
  b ++ beBytes 4 (crc crcP1 b).toNat

/-- The copy at a flash offset, when valid (R706). -/
def readDir (m : Mem 8) (base : Nat) : Option Dir :=
  let b := flashBytes m base 64
  if ofBe (bytesAt b 0 4) = 0x56474449 ∧ ofBe (bytesAt b 4 1) = 1 ∧ ofBe (bytesAt b 60 4) = (crc crcP1 (b.take 60)).toNat then
    some { activeB := ofBe (bytesAt b 5 1) == 1, trial := ofBe (bytesAt b 6 1) == 1,
           seq := BitVec.ofNat 32 (ofBe (bytesAt b 8 4)), genA := BitVec.ofNat 32 (ofBe (bytesAt b 12 4)),
           genB := BitVec.ofNat 32 (ofBe (bytesAt b 16 4)), stA := slotStOf (ofBe (bytesAt b 20 1)),
           stB := slotStOf (ofBe (bytesAt b 21 1)) }
  else none

/-- The copy in force is copy 0. -/
def firstInForce (s : State) : Bool :=
  match s.boot.dir0, s.boot.dir1 with
  | some a, some b => decide (b.seq.toNat ≤ a.seq.toNat)
  | some _, none => true
  | none, _ => false

/-- The directory changes: the copy that is not in force takes the new content, SEQ one higher; while WRITE_BUSY stands
nothing is programmed (R605). -/
def writeDir (f : Dir → Dir) (s : State) : State :=
  if s.ssp.writeBusy then s else
  let d := (dirInForce s).getD Dir.reset
  let d := { f d with seq := d.seq + 1 }
  let first := firstInForce s
  let base := if first then 0x1000 else 0
  let s := modSsp (fun x => { x with
    flash := flashProgram (flashWipe x.flash base 4096) base (dirBytes d), programs := satAdd x.programs 1,
    erases := satAdd x.erases 1 }) s
  modBoot (fun b => if first then { b with dir1 := some d } else { b with dir0 := some d }) s

def stOf (d : Dir) (b : Bool) : SlotSt := if b then d.stB else d.stA
def genOf (d : Dir) (b : Bool) : BitVec 32 := if b then d.genB else d.genA
def setSt (b : Bool) (st : SlotSt) (d : Dir) : Dir := if b then { d with stB := st } else { d with stA := st }
def setGen (b : Bool) (g : BitVec 32) (d : Dir) : Dir := if b then { d with genB := g } else { d with genA := g }

def curDir (s : State) : Dir := (dirInForce s).getD Dir.reset

/-- DATA with a slot in bit 32. -/
def slotDat (b : Bool) (n : Nat) : Word := BitVec.ofNat 48 (b2n b * 2 ^ 32 + n)

/-! Cold resets. -/

/-- What a device cold reset leaves until the Reeve cores leave reset: every entry at its default, and what the flash, the
fuses, the last-gasp latch and the board hold (R11, R751, R822, R933). -/
def coldState (s : State) : State :=
  { State.reset with
    ssp := { Ssp.reset with flash := s.ssp.flash },
    boot := { Boot.reset with thermo := s.boot.thermo, gens := s.boot.gens, draws := s.boot.draws, cold := s.boot.cold + 1 },
    test := { SelfTest.reset with fuses := s.test.fuses },
    ledger := { Ledger.reset with gasp := s.ledger.gasp, gaspCount := s.ledger.gaspCount },
    pins := { s.pins with tap := Tap.reset },
    out := s.out, fresh := s.fresh, pending := s.pending }

/-- BOOT_HALT (R747). -/
def haltBoot (code : BitVec 2) (s : State) : State :=
  record evBootHalt 0 (code.setWidth 48) (modBoot (fun b => { b with phase := .halted code }) s)

/-! The barrier, the cores and the health check (R702, R710, R713 to R715, R749). -/

def execBarrierRelease (s : State) : Res :=
  .next (if s.boot.phase == .romPassed then modBoot (fun b => { b with phase := .released }) s else s)

/-- The cores below c have passed, so that M2 takes the digests in core order (R717). -/
def lowerReleased (s : State) (c : Fin 4) : Bool := (List.finRange 4).all fun k => !(k.val < c.val) || s.boot.cores[k].released

/-- Core c enters its S2; the first release follows the S3 sections. -/
def releaseCore (c : Fin 4) (s2 : Digest) (s : State) : State :=
  let s := if c.val = 0 then eachOf s.boot.s3 (extendM 3) s else s
  let s := modCore c (fun x => { x with released := true, ready := true }) (extendM 2 s2 s)
  if c.val = 1 then modStore (fun x => { x with ready := true }) s else s

/-- The digest of an S2 or S3 section fails: the booted slot is BAD and the device resets (R710). -/
def sectionFails (s : State) : State :=
  let b := s.boot.bootedB
  coldState (record evBootSlotReject 0 (Config.slotReject b stSection) (writeDir (setSt b .bad) s))

def execCoreRelease (core : Fin 4) (ok : Bool) (s2 : Digest) (s : State) : Res :=
  .next (
    if s.boot.phase != .released || s.boot.cores[core].released || !lowerReleased s core then s
    else if ok then releaseCore core s2 s else sectionFails s)

/-- The cores 1 to 3 that have not reported ready. -/
def notReadyCores (s : State) (v : BitVec 4) : BitVec 4 :=
  (v ||| BitVec.ofNat 4 (ofBits ((List.finRange 4).map fun c => !s.boot.cores[c].ready))) &&& 0xE

/-- R714: the directory takes a slot that was not ACTIVE, a trial or a fallback. -/
def activateSlot (s : State) : State :=
  let b := s.boot.bootedB
  let d := curDir s
  if d.activeB == b && (dirInForce s).isSome && !s.boot.bootTrial && !s.boot.fallback then s else
  let bad := fun d : Dir => s.boot.rejected.foldl (fun d r => setSt r.1 .bad d) d
  let s := writeDir (fun d => setSt b .verified { bad d with activeB := b }) s
  record evSlotActivated 0 (slotDat b (genOf (curDir s) b).toNat) s

/-- Thermometer fuses are blown up to the booted index (R715, R738). -/
def advanceRollback (s : State) : State :=
  let n := s.boot.bootRollback.toNat
  if n ≤ rollbackRun s.boot.thermo then s
  else if s.pins.vfuse then
    record evRollbackAdvanced 0 (BitVec.ofNat 48 n)
      (modBoot (fun b => { b with thermo := b.thermo ||| BitVec.ofNat 64 (2 ^ n - 1) }) s)
  else record evRollbackDeferred 0 (BitVec.ofNat 48 n) s

/-- An invalid other copy is rewritten (R749). -/
def repairDirectory (s : State) : State :=
  if (dirInForce s).isSome && !(s.boot.dir0.isSome && s.boot.dir1.isSome) && !s.ssp.writeBusy then
    record evDirectoryRepaired 0 0 (writeDir id s)
  else s

def healthPasses (s : State) : State :=
  let s := modBoot (fun b => { b with phase := .running }) s
  let s := record evBootDone 0 (slotDat s.boot.bootedB s.boot.fw.toNat) s
  advanceRollback (repairDirectory (activateSlot s))

/-- The health check passes, or 10 s have run out; `notReady` names the cores that have not reported ready. -/
def execBootHealthCheck (notReady : BitVec 4) (s : State) : Res :=
  .next (
    if s.boot.phase != .released then s else
    let n := notReadyCores s notReady
    if n = 0 ∧ s.store.ready then healthPasses s
    else coldState (record evBootHealthFail 0 (n.setWidth 48) s))

/-! Slot writing (R718 to R720, R739). -/

/-- The slot writer's queue: system-owned, its consumer 0x5005. -/
def slotQueue (s : State) : Option (Fin 256) := (queueTo s (reeveCode 5)).filter fun q => s.queues[q].owner == 0

/-- The page of a packet: 43 items of six bytes, the last two bytes left out. -/
def pageBytes (l : List Item) : List Byte := ((l.map fun it => beBytes 6 (itData it).toNat).flatten).take 256

/-- A packet is in the form of R718. -/
def pagePacket (l : List Item) : Bool :=
  l.length == 44 && l.all (fun it => !itMark it && !itBad it) &&
    ((l.head?).any fun it => (itData it).toNat < 2 ^ 24 && (itData it).toNat % 256 == 0)

def packetOffset (l : List Item) : Nat := ((l.head?).map fun it => (itData it).toNat % 2 ^ 24).getD 0

/-- A page enters the inactive slot: the first page of a 64 KiB block erases the block. -/
def writePage (off : Nat) (b : List Byte) (s : State) : State :=
  let a := slotBase (!s.boot.bootedB) + off
  let blk := off / 65536
  let s := if s.boot.erasedBlocks.contains blk then s else
    flashPush (.erase (slotBase (!s.boot.bootedB) + 65536 * blk) 65536)
      (modBoot (fun x => { x with erasedBlocks := blk :: x.erasedBlocks }) s)
  flashPush (.program a b .window) (modBoot (fun x => { x with lastOffset := off, written := off + 256 }) s)

/-- One packet of the slot writer. -/
def slotPacket (l : List Item) (s : State) : State :=
  let off := packetOffset l
  let other := !s.boot.bootedB
  if !pagePacket l then record evSlotWriteReject 0 (BitVec.ofNat 48 off) s
  else if off = 0 then
    let s := writeDir (setSt other .writing) s
    writePage 0 (pageBytes (l.drop 1)) (modBoot (fun x => { x with writing := true, erasedBlocks := [] }) s)
  else if !s.boot.writing || stOf (curDir s) other != .writing || off ≤ s.boot.lastOffset then
    record evSlotWriteReject 0 (BitVec.ofNat 48 off) s
  else writePage off (pageBytes (l.drop 1)) s

/-- The front packet of the slot writer's queue is taken; `items` are its items. -/
def execSlotWriterPacket (items : List Item) (s : State) : Res :=
  .next (
    match slotQueue s with
    | none => s
    | some q =>
      if !serving s || frontPacket s.queues[q] != some items then s
      else slotPacket items (takePacket q items.length s))

/-! BOOT.UPDATE (R709, R721, R739, R740). -/

def programsIn (lo hi : Nat) : FlashOp → Bool
  | .program a b _ => overlaps a b.length lo hi
  | .erase a n => overlaps a n lo hi
  | .read _ => false

/-- The slot writer's queue holds items or a page is being programmed. -/
def slotWriterBusy (s : State) : Bool :=
  let lo := slotBase (!s.boot.bootedB)
  ((slotQueue s).any fun q => flushTotal s.queues[q] != 0) || s.ssp.op.any (programsIn lo (lo + 0x1000000)) ||
    s.ssp.ops.any (programsIn lo (lo + 0x1000000))

/-- Steps 1 to 3 of Table 14-4. -/
def packageCheck (s : State) (x : SlotScan) : Option Byte :=
  if !x.wellFormed then some stMismatch
  else if !x.sigOk then some stSignature
  else if x.rollback.toNat < rollbackRun s.boot.thermo then some stRollback
  else none

/-- The status of an update of the inactive slot. -/
def updateCheck (s : State) (x : SlotScan) : Option Byte :=
  match packageCheck s x with
  | some e => some e
  | none =>
    if s.boot.writing && stOf (curDir s) (!s.boot.bootedB) == .writing && s.boot.written < x.length then some stTruncated
    else if !x.sectionsOk then some stSection
    else none

def updateSlot (x : SlotScan) (s : State) : State × Byte :=
  let other := !s.boot.bootedB
  match updateCheck s x with
  | none =>
    let top := max (curDir s).genA.toNat (curDir s).genB.toNat
    let gen := fun d : Dir => if stOf d other == .writing then setGen other (BitVec.ofNat 32 (top + 1)) d else d
    (modBoot (fun b => { b with writing := false })
      (writeDir (fun d => setSt other .verified { gen d with trial := true }) s), stOk)
  | some e => if e = stTruncated then (s, e) else (writeDir (setSt other .bad) s, e)

/-- `scan` is what the verification finds in the inactive slot. -/
def execBootUpdate (rq : Req) (scan : SlotScan) (s : State) : Res :=
  .next (invokeReq rq 0x7000 7 true
    (fun _ s =>
      if slotWriterBusy s then some stBusy
      else if stOf (curDir s) (!s.boot.bootedB) == .empty || s.ssp.writeBusy then some stNotReady
      else none)
    (fun _ s =>
      let r := updateSlot scan s
      (r.1, some (r.2, bellNow r.1))) s)

/-! Operator key generations (R722 to R726, R741). -/

/-- d of M7 (Table 14-5). -/
def genDigest (g : Nat) (hash : Digest) : Digest := Config.sha384 (beBytes 1 g ++ beBytes 48 hash.toNat)

/-- COMMIT of the next generation, the response, then the sessions whose role is not PUBLIC. -/
def rotate (rq : Req) (hash : Digest) (s : State) : State :=
  let old := rootGen s
  let g : Fin 8 := Fin.ofNat 8 (topGen s + 1)
  let s := modBoot (fun b => { b with
    gens := upd (b.gens.set g
      { hash, checkOk := true, hashBlown := true, pending := true, commit := true, revoke := false }) old
      (fun x => { x with revoke := true }) }) s
  let s := record evKeyRotated 0 (BitVec.ofNat 48 g.val) (extendM 7 (genDigest g.val hash) s)
  closeSessions (fun x => x.role != .pub) crEpoch (invokeDone (some rq) stOk (bellNow s) s)

/-- The first check of R725 that fails (R746). -/
def rotateRefusal (sigOk : Bool) (s : State) : Option Byte :=
  if gensLeft s = 0 then some stKeysExhausted
  else if !s.pins.vfuse || s.boot.revokePending then some stNotReady
  else if !sigOk then some stSignature
  else none

/-- `hash` is the new hash; `sigOk` the verdict on the signature over it and the next generation (R724). -/
def execKeyRotate (rq : Req) (hash : Digest) (sigOk : Bool) (s : State) : Res :=
  .next (invokeReq rq 0x7020 4 true (fun _ s => rotateRefusal sigOk s) (fun _ s => (rotate rq hash s, none)) s)

/-! Attestation (R734, R744, Table 14-6). -/

def attestBody (s : State) (role : Role) (nonce : BitVec 256) : List Byte :=
  let r := roleNum role
  let h : Fin 32 := roleOwner role
  let x := s.holdings[h]
  let tenant := h.val != 0
  let flags := ofBits [s.boot.fallback, s.boot.bootTrial, s.pins.maintLow, s.boot.revokePending]
  beBytes 4 0x56474154 ++ beBytes 1 1 ++ beBytes 1 0x56 ++ beBytes 2 0x4896 ++ beBytes 6 Config.serial.toNat ++
    beBytes 1 r.1 ++ beBytes 1 r.2 ++ beBytes 4 s.boot.fw.toNat ++ beBytes 1 (b2n s.boot.bootedB) ++
    beBytes 1 (rollbackRun s.boot.thermo) ++ beBytes 1 (rootGen s).val ++ beBytes 1 flags ++ beBytes 6 (bellNow s).toNat ++
    beBytes 2 0 ++ beBytes 32 nonce.toNat ++ beBytes 48 s.boot.gens[rootGen s].hash.toNat ++
    (s.boot.m.toList.map fun m => beBytes 48 m.toNat).flatten ++ beBytes 48 (if tenant then x.digest.toNat else 0) ++
    beBytes 1 (if tenant then hstateNum x.st else 0) ++ beBytes 1 0 ++
    beBytes 6 (if tenant then x.stateBell.toNat else 0)

/-- The report is signed and stored for its role. -/
def attest (role : Role) (nonce : BitVec 256) (s : State) : State :=
  let b := attestBody s role nonce
  modBoot (fun x => { x with
    reports := (role, b ++ padTo 96 (Config.identitySign b)) :: x.reports.filter fun r => r.1 != role }) s

/-- A run executes; a session that has closed meanwhile leaves no report and no response (R657). -/
def runAttest (rq : Req) (nonce : BitVec 256) (s : State) : State :=
  match findSession s rq.sess with
  | none => noResponse rq.path s
  | some se =>
    let s := attest se.role nonce s
    invokeDone (some rq) stOk (bellNow s) s

def execAttestRun (rq : Req) (nonce : BitVec 256) (s : State) : Res :=
  .next (invokeReq rq 0x7040 1 true (fun _ _ => none)
    (fun _ s =>
      if s.boot.seeded then (runAttest rq nonce s, none)
      else (modBoot (fun b => { b with waiting := b.waiting ++ [.attest rq nonce] }) s, none)) s)

/-! The entropy source and the DRBG (R729 to R733, R750). -/

/-- The longest run of equal samples. -/
def longestRun : List Bool → Nat → Nat → Nat
  | [], _, best => best
  | [_], run, best => max best (run + 1)
  | a :: b :: l, run, best => if a = b then longestRun (b :: l) (run + 1) best else longestRun (b :: l) 0 (max best (run + 1))

/-- A block of 1,024 samples passes the repetition count and adaptive proportion tests (R730). -/
def samplesPass (l : List Bool) : Bool :=
  l.length == 1024 && decide (longestRun l 0 0 < 41) &&
    match l with
    | [] => false
    | a :: _ => decide ((l.filter (· == a)).length < 840)

/-- The source runs: core 3 is there and fewer than four tests have failed since the cold reset. -/
def entropyRuns (s : State) : Bool :=
  s.boot.phase != .atReset && !s.boot.cores[(3 : Fin 4)].lost && decide (s.boot.fails.toNat < 4)

/-- A health test fails. -/
def rngFailed (s : State) : State :=
  let s := modBoot (fun b => { b with
    seeded := false, startTest := false, healthFail := true, fails := satAdd b.fails 1, generates := 0 }) s
  record evRngHealthFail 0 (s.boot.fails.setWidth 48) s

/-- What waited for the DRBG goes on (R631, R350, R733). -/
def wakeOne (w : WaitOp) (s : State) : State :=
  match w with
  | .hello p body => hello p body s
  | .attest rq nonce => runAttest rq nonce s
  | .snapshot h => (addTrans h .snapshot none s).1

def seedDrbg (s : State) : State :=
  let l := s.boot.waiting
  eachOf l wakeOne (modBoot (fun b => { b with seeded := true, generates := 0, waiting := [] }) s)

/-- 1,024 samples: the first block that passes is the start-up test and is discarded, the next seeds the DRBG. -/
def execEntropyBlock (samples : List Bool) (s : State) : Res :=
  .next (
    if !entropyRuns s || s.boot.seeded then s
    else if !samplesPass samples then rngFailed s
    else if s.boot.startTest then seedDrbg s
    else modBoot (fun b => { b with startTest := true }) s)

/-- The DRBG reseeds from a fresh block (R732). -/
def execDrbgReseed (samples : List Bool) (s : State) : Res :=
  .next (
    if !entropyRuns s || !s.boot.seeded then s
    else if !samplesPass samples then rngFailed s
    else modBoot (fun b => { b with generates := 0 }) s)

def execRngHealthFail (s : State) : Res := .next (if entropyRuns s then rngFailed s else s)

/-- 50 ms have passed since the oldest waiting operation arrived. -/
def execEntropyWaitExpiry (s : State) : Res :=
  .next (
    match s.boot.waiting with
    | [] => s
    | w :: l =>
      let s := modBoot (fun b => { b with waiting := l }) s
      match w with
      | .hello p _ => refuse p stEntropy s
      | .attest rq _ => invokeDone (some rq) stEntropy (bellNow s) s
      | .snapshot _ => endSnapshot .failed stEntropy s)

/-! Reeve cores (R946 to R948). -/

/-- Ticks of 10 s. -/
def tenSeconds : Nat := 12500000000

/-- A core is lost; twice within 10 s resets the device. -/
def loseCore (c : Fin 4) (s : State) : State :=
  let again := s.boot.cores[c].lostAt.any fun t => s.bell.now < t + tenSeconds
  let s := modCore c (fun x => { x with lost := true, lostAt := some s.bell.now }) s
  let s := if c.val = 3 then modBoot (fun b => { b with seeded := false }) s else s
  let s := deviceFatal [.coreLost] s
  if again then coldState s else s

def execReeveCoreLost (core : Fin 4) (s : State) : Res :=
  .next (if s.boot.cores[core].released && !s.boot.cores[core].lost then loseCore core s else s)

/-- Every core runs again: the cause is rebuilt. -/
def coresBack (s : State) : State :=
  if (List.finRange 4).any fun c => s.boot.cores[c].lost then s
  else { s with dev := { s.dev with
    causes := s.dev.causes.map fun x => if x.c == .coreLost then { x with rebuilt := true } else x } }

/-- The restart of a lost core; `ok` when its copy passed against its S2 digest. -/
def execCoreRestartDone (core : Fin 4) (ok : Bool) (s : State) : Res :=
  .next (
    if !s.boot.cores[core].lost then s
    else if ok then coresBack (modCore core (fun x => { x with lost := false }) s)
    else coldState s)

end Sys2Proof.Machine
end

