-- ==== Sys2Proof/Machine/Load.lean ====
section
/-! DEFINITION. Loading an image (15): HOLDING.LOAD, the stream from a queue or from chunks, the load steps of Table 15-7,
configuration, Bin and Granary frames, the binding of declared queues, and the ends of a load. -/

namespace Sys2Proof.Machine

def modLoad (f : Load → Load) (s : State) : State := { s with load := s.load.map f }

/-! The action (R770, R771, R777, R779). -/

/-- LOAD_SOURCE is valid (R766). -/
def sourceValid (s : State) (src : BitVec 16) : Bool :=
  src == 0xFFFE ||
    (decide (src.toNat < 256) &&
      let q := s.queues[Fin.ofNat 256 src.toNat]
      q.bound && q.owner == 0 && q.consumer == reeveCode 4)

/-- The first check that fails (R770, R831, R927); then the Plots that no load may include (R156, R218), with the status
that a placement has for them. -/
def loadRefusal (s : State) (h : Fin 32) : Option Byte :=
  if (judged s h).st != .empty then some stBusy
  else if s.dev.fatal then some stRecovery
  else if s.test.accepted then some stBusy
  else if s.holdings[h].rect = 0 then some stNotReady
  else if s.load.isSome then some stBusy
  else if !sourceValid s s.holdings[h].loadSource then some stNotReady
  else if !s.bell.locked || (rectPlots s.holdings[h].rect).any fun p => !s.plots[p].calibrated then some stNotReady
  else if (rectPlots s.holdings[h].rect).any fun p => s.plots[p].unfit || s.banks[p].clearFail then some stNoSlot
  else none

def newLoad (s : State) (h : Fin 32) (rq : Req) : Load :=
  let src := s.holdings[h].loadSource
  { h, rq := some rq, chunk := src == 0xFFFE, src := Fin.ofNat 256 src.toNat, begun := false, taken := [], avail := [],
    chunks := [], ended := false, step := 0, bindEdge := 0, readyEdge := 0, waits := false, sec := 1, pos := 0, faddr := 0, fleft := 0,
    configured := false, bellItems := 0, lastProgress := 0 }

def execHoldingLoad (rq : Req) (h : Fin 32) (s : State) : Res :=
  .next (invokeReq rq (hix h 0xA0) 1 true (fun _ s => loadRefusal s h)
    (fun _ s => ((addTrans h .load none { s with load := some (newLoad s h rq) }).1, none)) s)

/-- The edge at which the Holding becomes LOADING (R771); its islands go to the set voltage (R312). -/
def beginLoad (h : Fin 32) (s : State) : State :=
  let s := modLoad (fun l => { l with begun := true, lastProgress := s.bell.edges }) s
  let s := modHolding h (fun x => { x with memCe := 0, memUe := 0, loadBytes := 0 }) s
  rampAwaited h s.holdings[h].voltage.toNat (force h (setState h .loading s))

/-- The edge at which the Holding becomes READY (R774). -/
def loadReady (h : Fin 32) (s : State) : State :=
  match s.load with
  | none => s
  | some l =>
    let s := unforce h (setState h .ready { s with load := none })
    let s := record evLoadDone h (datTop h.val s.holdings[h].loadBytes.toNat) s
    invokeDone l.rq stOk (bellNow s) (modHolding h (fun x => { x with loadResult := 0 }) s)

/-! The image (Tables 15-1 to 15-3). -/

/-- A big-endian field of the bytes taken. -/
def imgField (l : Load) (k n : Nat) : Nat := ofBe (bytesAt l.taken k n)

def imgEncrypted (l : Load) : Bool := natBit (imgField l 8 1) 0
def imgW (l : Load) : Nat := imgField l 9 1
def imgH (l : Load) : Nat := imgField l 10 1
def imgSections (l : Load) : Nat := imgField l 12 2
def imgTotal (l : Load) : Nat := imgField l 16 4
def tableEnd (l : Load) : Nat := 352 + 64 * imgSections l

def imgHeader (l : Load) : List Byte := bytesAt l.taken 0 352
def entryBytesOf (l : Load) (k : Nat) : List Byte := bytesAt l.taken (352 + 64 * k) 64

structure ImgSection where
  ty : Nat
  px : Nat
  py : Nat
  off : Nat
  len : Nat
  digest : Nat
  clean : Bool
deriving DecidableEq, Repr

def sectionOf (l : Load) (k : Nat) : ImgSection :=
  let b := entryBytesOf l k
  { ty := ofBe (bytesAt b 0 1), px := ofBe (bytesAt b 1 1), py := ofBe (bytesAt b 2 1), off := ofBe (bytesAt b 4 4),
    len := ofBe (bytesAt b 8 4), digest := ofBe (bytesAt b 16 48),
    clean := ofBe (bytesAt b 3 1) == 0 && ofBe (bytesAt b 12 4) == 0 }

def allSections (l : Load) : List ImgSection := (List.range (imgSections l)).map (sectionOf l)

/-- Step 1. -/
def headerOk (s : State) (l : Load) : Bool :=
  let r := s.holdings[l.h].rect
  let key := Config.sha384 (padTo 97 (Config.migrationPub (BitVec.ofNat 8 (rootGen s).val)))
  imgField l 0 4 == 0x5647494D && imgField l 4 1 == 1 && imgField l 5 1 == 0x56 && imgField l 6 2 == 0x4896 &&
    imgW l == rectW r && imgH l == rectH r && (!imgEncrypted l || imgField l 0x18 16 == (key.extractLsb' 256 128).toNat)

/-- The place 8·PY + PX of a section. -/
def placeOf (x : ImgSection) : Nat := 8 * x.py + x.px

def ascending : List Nat → Bool
  | a :: b :: l => a < b && ascending (b :: l)
  | _ => true

/-- Each section begins where the one before ends. -/
def chained : Nat → List ImgSection → Bool
  | _, [] => true
  | k, x :: l => x.off == k && chained (x.off + x.len) l

/-- R754, and that QUEUES is a whole number of at most 256 declarations (Table 15-3, R778). -/
def wellFormed (l : Load) : Bool :=
  let w := imgW l
  let ht := imgH l
  let all := allSections l
  let of := fun (t : Nat) => all.filter fun x => x.ty == t
  let places := ((List.range ht).map fun y => (List.range w).map fun x => 8 * y + x).flatten
  1 + w * ht ≤ all.length && all.length ≤ 1 + 3 * w * ht &&
    all == of 1 ++ of 2 ++ of 3 ++ of 4 && (of 1).length == 1 &&
    (of 1).all (fun x => x.px == 0 && x.py == 0 && x.len % 16 == 0 && x.len ≤ 4096) &&
    (of 2).map placeOf == places && ascending ((of 3).map placeOf) && ascending ((of 4).map placeOf) &&
    (all.all fun x => x.clean && x.len % 8 == 0 && (x.ty == 1 || (x.px < w && x.py < ht))) &&
    chained (tableEnd l) all && ((all.getLast?).any fun x => x.off + x.len == imgTotal l) &&
    imgField l 8 1 < 2 && imgField l 11 1 == 0 && imgField l 14 2 == 0 && imgField l 0xC1 63 == 0

/-- The bytes of a section as received; its digest. -/
def bodyOf (l : Load) (x : ImgSection) : List Byte := bytesAt l.taken x.off x.len

def digestOk (l : Load) (x : ImgSection) : Bool := (Config.sha384 (bodyOf l x)).toNat == x.digest

/-! Queue declarations (Tables 15-5 and 15-6, R761, R762). -/

/-- The (n+1)-th lowest set bit of a mask. -/
def nthBit (mask n : Nat) : Option Nat := ((List.range 48).filter (natBit mask))[n]?

/-- The device code that a relative endpoint forms; none where its bits are not allowed. -/
def relEndpoint (x : Holding) (e : Nat) : Option (BitVec 16) :=
  let low := e % 2 ^ 28
  let pick := fun (base mask add : Nat) =>
    match nthBit mask low with
    | some b => BitVec.ofNat 16 (base + b + add)
    | none => 0xFFFF
  match e / 2 ^ 28 with
  | 0 =>
    if low / 2 ^ 12 ≠ 0 ∨ natBit low 3 then none
    else some (BitVec.ofNat 16 (8 * (8 * (rectY x.rect + low / 16 % 16) + rectX x.rect + low / 256 % 16) + low % 8))
  | 1 => if low < 64 then some (pick 0x1000 x.laneMask.toNat 0) else none
  | 2 => if low < 64 then some (pick 0x2000 x.laneMask.toNat 0) else none
  | 3 => if low < 64 then some (pick 0x3000 x.vfMask.toNat 1) else none
  | 4 => if low < 32 then some (pick 0x4000 x.cvuMask.toNat 0) else none
  | _ => none

/-- Declaration i; none where it is malformed. -/
structure Decl where
  ix : Nat
  qnum : Nat
  depth : Nat
  mode : Nat
  late : Nat
  idleAct : Nat
  idleBells : Nat
  prod : BitVec 16
  cons : BitVec 16
deriving DecidableEq, Repr

def declOf (x : Holding) (i : Nat) (b : List Byte) : Option Decl :=
  let f := fun k n => ofBe (bytesAt b k n)
  match relEndpoint x (f 8 4), relEndpoint x (f 12 4) with
  | some prod, some cons =>
    if (f 0 2 < 256 ∨ f 0 2 = 0xFFFF) ∧ 6 ≤ f 2 1 ∧ f 2 1 ≤ 16 ∧ f 3 1 < 2 ∧ f 4 1 < 2 ∧ f 5 1 < 2 then
      some { ix := i, qnum := f 0 2, depth := f 2 1, mode := f 3 1, late := f 4 1, idleAct := f 5 1, idleBells := f 6 2,
             prod, cons }
    else none
  | _, _ => none

def declList (s : State) (l : Load) : List (Option Decl) :=
  let b := bodyOf l (sectionOf l 0)
  (List.range (b.length / 16)).map fun i => declOf s.holdings[l.h] i (bytesAt b (16 * i) 16)

/-- The queue that a declaration names: its own, or the lowest that is unbound. -/
def declQueue (s : State) (d : Decl) : Option (Fin 256) :=
  if d.qnum < 256 then some (Fin.ofNat 256 d.qnum) else (List.finRange 256).find? fun q => !s.queues[q].bound

/-- One declaration is bound with its entries, as Holding h's queue. -/
def bindDecl (h : Fin 32) (e : Nat) (d : Decl) (q : Fin 256) (s : State) : State :=
  let s := modQueue q (fun x => { x with
    owner := BitVec.ofNat 8 h.val, depthLog2 := BitVec.ofNat 8 d.depth, producer := d.prod, consumer := d.cons,
    locked := d.mode == 1, mark := d.late == 1, idleFlush := d.idleAct == 1,
    idleBells := BitVec.ofNat 16 d.idleBells }) s
  bindRing q (bindQueue q (max e (s.queues[q].unbindEdge.getD 0)) (some d.ix) s)

/-- The declarations in turn; the first that fails gives its status. -/
def bindDecls (h : Fin 32) (e : Nat) : List Decl → State → State × Option Byte
  | [], s => (s, none)
  | d :: l, s =>
    match declQueue s d with
    | none => (s, some stNoSlot)
    | some q =>
      match bindRefusal s q h d.depth d.prod d.cons with
      | some c => (s, some c)
      | none => bindDecls h e l (bindDecl h e d q s)

/-- Step 6: fixed queue numbers first, then the others. -/
def bindStep (l : Load) (s : State) : State :=
  let ds := declList s l
  if ds.any (·.isNone) then failLoad stMismatch false s else
  let ds := ds.filterMap id
  let e := effectEdge s
  let s := afterArbiter 16 s
  let r := bindDecls l.h e (ds.filter (·.qnum < 256) ++ ds.filter fun d => !(d.qnum < 256)) s
  match r.2 with
  | some c => failLoad c false r.1
  | none =>
    let last := (((ownedQueues r.1 l.h).map fun q => (r.1.queues[q].bindEdge).getD 0)).foldl max 0
    modLoad (fun l => { l with step := 6, bindEdge := if ds.isEmpty then 0 else last }) r.1

/-! Frames (R756 to R760, Table 15-4, Tables 03-11 and 03-12). -/

/-- Elements and words of a configuration region. -/
def regionSize (r : Nat) : Nat × Nat :=
  match r with
  | 0 => (512, 32)
  | 1 => (16, 1)
  | 2 => (24, 1)
  | 3 => (8, 1)
  | 4 => (2, 16)
  | _ => (0, 1)

/-- The address after `a`. -/
def cfgNext (a : Nat) : Nat :=
  if a % 32 + 1 < (regionSize (a / 2 ^ 20)).2 then a + 1 else a / 32 * 32 + 32

/-- An address of Table 15-4; a Hedge edge needs its neighbour inside the rectangle. -/
def cfgAddrOk (l : Load) (x : ImgSection) (a : Nat) : Bool :=
  let r := a / 2 ^ 20
  let ix := a % 2 ^ 20 / 32
  ix < (regionSize r).1 && a % 32 < (regionSize r).2 &&
    (r != 4 || (if ix = 0 then x.py + 1 < imgH l else x.px + 1 < imgW l))

/-- Reserved codes and fields that make a frame malformed (R759). -/
def cfgValueOk (a : Nat) (w : Word) : Bool :=
  let v := w.toNat
  match a / 2 ^ 20, a % 32 with
  | 0, 16 => v / 2 % 8 ≤ 4 && (v / 2 % 8 != 1 || 2 ≤ v / 64 % 4)
  | 0, 19 => v / 2 ^ 44 == 0 && !natBit v 19 && v / 2 ^ 12 % 128 ≤ 96 && v / 64 % 64 ≤ 36 && v % 64 ≤ 36
  | 0, 20 => v / 2 ^ 19 == 0 && v / 2 ^ 12 % 128 ≤ 96
  | 0, 31 => v == 0
  | 0, n => if 21 ≤ n ∧ n ≤ 26 then (List.range 16).all fun k => v / 8 ^ k % 8 != 7 else true
  | 2, _ => v % 4 != 3
  | _, _ => true

/-- A configuration word is written; Querns, Bins and hold stages take theirs (R196). -/
def applyConfig (p : Fin 64) (a : Nat) (w : Word) (s : State) : State :=
  let ix := a % 2 ^ 20 / 32
  let s := modPlot p (fun x => { x with config := memSet x.config a (secWord w) }) s
  match a / 2 ^ 20 with
  | 0 => if a % 32 = 18 then modPlot p (fun x => { x with hold := memSet x.hold ix w }) s else s
  | 1 => modPlot p (fun x => { x with
      querns := upd x.querns (Fin.ofNat 16 ix) fun q => { q with gfpoly := w.setWidth 10 } }) s
  | 2 =>
    let s := modPlot p (fun x => { x with
      bins := upd x.bins (Fin.ofNat 24 ix) fun b => { b with shape := w.extractLsb' 0 2, check := w.extractLsb' 2 2 } }) s
    if w.toNat % 4 ≠ 0 ∧ w.toNat / 4 % 4 = 0 then
      record evBinModeAdjusted s.plots[p].owner (BitVec.ofNat 48 (p.val * 2 ^ 40 + ix)) s
    else s
  | _ => s

/-- The Plot of a section (R758). -/
def sectionPlot (s : State) (l : Load) (x : ImgSection) : Fin 64 :=
  let r := s.holdings[l.h].rect
  Fin.ofNat 64 (8 * (rectY r + x.py) + rectX r + x.px)

/-- One word of a frame; none where the frame is malformed. -/
def applyWord (l : Load) (x : ImgSection) (a : Nat) (w : Word) (s : State) : Option State :=
  let p := sectionPlot s l x
  if x.ty = 2 then if cfgAddrOk l x a && cfgValueOk a w then some (applyConfig p a w s) else none
  else if x.ty = 3 then
    if a < 24576 then
      some (modPlot p (fun y => { y with
        binMem := memSet y.binMem a (binRow (binModeOf y (Fin.ofNat 24 (a / 1024))) w) }) s)
    else none
  else if a < 262144 then some (modBank p (fun b => { b with sys := b.sys ++ [⟨a, w⟩] }) s)
  else none

/-- n plain bytes of a section from its offset k. -/
def plainAt (l : Load) (x : ImgSection) (k n : Nat) : List Byte :=
  let b := bytesAt l.taken (x.off + k) n
  if imgEncrypted l then b.zipIdx.map fun y => y.1 ^^^ Config.imageKeystream (imgHeader l) l.sec (k + y.2) else b

/-- Bytes of a section that frames fill. -/
def frameBytes (l : Load) (x : ImgSection) : Nat := if imgEncrypted l then x.len - 16 else x.len

/-- The end of a section: its digest and tag. -/
def endSection (l : Load) (x : ImgSection) (s : State) : State :=
  if digestOk l x && (!imgEncrypted l || Config.imageTagOk (imgHeader l) l.sec (entryBytesOf l l.sec) (bodyOf l x)) then
    modLoad (fun l => { l with sec := l.sec + 1, pos := 0 }) s
  else failLoad stSection false s

/-- A frame header. -/
def openFrame (l : Load) (x : ImgSection) (s : State) : State :=
  let b := plainAt l x l.pos 8
  let n := ofBe (bytesAt b 4 2)
  let s := modLoad (fun l => { l with configured := l.configured || x.ty == 2 }) s
  if n = 0 ∨ ofBe (bytesAt b 6 2) ≠ 0 ∨ frameBytes l x < l.pos + 8 + 6 * n then failLoad stMismatch false s
  else modLoad (fun l => { l with pos := l.pos + 8, faddr := ofBe (bytesAt b 0 4), fleft := n }) s

/-- The next word of the open frame. -/
def frameWord (l : Load) (x : ImgSection) (s : State) : State :=
  let w : Word := BitVec.ofNat 48 (ofBe (plainAt l x l.pos 6))
  match applyWord l x l.faddr w s with
  | none => failLoad stMismatch false s
  | some s => modLoad (fun l => { l with
      pos := l.pos + 6, fleft := l.fleft - 1, faddr := if x.ty = 2 then cfgNext l.faddr else l.faddr + 1 }) s

/-- Lines wait that hold the loader back (R780). -/
def backlog (s : State) (h : Fin 32) : Bool := (ownedPlots s h).any fun p => 64 < sysLines s.banks[p].sys

/-- Everything has been applied and written: the digest, the budget, and the edge of READY (R774). -/
def finishLoad (l : Load) (s : State) : State :=
  let s := modLoad (fun l => { l with step := 8, avail := [], chunks := [] }) s
  let s := eachOf l.chunks (fun c t => respond c.1 opWrite stOk 8 (bellNow t) [] t) s
  let s := modHolding l.h (fun x => { x with digest := Config.sha384 (l.taken.take (imgTotal l)) }) s
  let s := budgetSet l.h (BitVec.ofNat 32 (imgField l 0x14 4)) s
  if passesMade s l.h then (addTrans l.h .loadDone none s).1
  else
    let e := actionEdge s l.h
    afterArbiter 16 (modLoad (fun l => { l with waits := true, readyEdge := e }) s)

/-- Step 7, one unit of work on the bytes taken; none when more bytes are needed first. -/
def applyStep (l : Load) (s : State) : Option State :=
  if imgSections l ≤ l.sec then
    if (ownedPlots s l.h).any fun p => !s.banks[p].sys.isEmpty then none else some (finishLoad l s)
  else
    let x := sectionOf l l.sec
    let n := frameBytes l x
    let have_ := l.taken.length
    if l.fleft ≠ 0 then if x.off + l.pos + 6 ≤ have_ then some (frameWord l x s) else none
    else if l.pos < n then
      if n < l.pos + 8 then some (failLoad stMismatch false s)
      else if x.off + l.pos + 8 ≤ have_ then some (openFrame l x s) else none
    else if x.off + x.len ≤ have_ then some (endSection l x s) else none

/-- The byte before which the loader must stop for now (R773, R780). -/
def takeLimit (s : State) (l : Load) : Nat :=
  if l.step < 2 then 352
  else if l.step < 4 then tableEnd l
  else if l.step < 7 then (sectionOf l 0).off + (sectionOf l 0).len
  else if l.step = 7 then if backlog s l.h then l.taken.length else imgTotal l
  else l.taken.length

/-- Bytes move from the stream into the image; a chunk that has been taken whole is answered. -/
def takeBytes (l : Load) (n : Nat) (s : State) : State :=
  let got := l.taken.length + n
  let s := modLoad (fun l => { l with
    taken := l.taken ++ l.avail.take n, avail := l.avail.drop n, lastProgress := s.bell.edges,
    chunks := l.chunks.filter fun c => got < c.2 }) s
  let s := modHolding l.h (fun x => { x with loadBytes := BitVec.ofNat 32 got }) s
  eachOf (l.chunks.filter fun c => c.2 ≤ got) (fun c t => respond c.1 opWrite stOk 8 (bellNow t) [] t) s

/-- The next step of Table 15-7 that can pass or fail now, none when the loader waits. -/
def loadStep (l : Load) (s : State) : Option State :=
  let have_ := l.taken.length
  let passed := fun n => some (modLoad (fun l => { l with step := n }) s)
  match l.step with
  | 0 => if have_ < 352 then none else if headerOk s l then passed 1 else some (failLoad stMismatch false s)
  | 1 => none
  | 2 =>
    if have_ < tableEnd l then none
    else if (Config.sha384 (bytesAt l.taken 352 (64 * imgSections l))).toNat == imgField l 0x30 48 then passed 3
    else some (failLoad stSection false s)
  | 3 => if wellFormed l then passed 4 else some (failLoad stMismatch false s)
  | 4 =>
    if have_ < takeLimit s l then none
    else if digestOk l (sectionOf l 0) then passed 5 else some (failLoad stSection false s)
  | 5 => some (bindStep l s)
  | 6 => if s.bell.edges < l.bindEdge then none else passed 7
  | 7 => applyStep l s
  | _ => none

/-- The loader works until it waits. -/
def runLoader : Nat → State → State
  | 0, s => s
  | fuel + 1, s =>
    match s.load with
    | none => s
    | some l =>
      if !l.begun then s else
      match loadStep l s with
      | some t => runLoader fuel t
      | none =>
        let n := min (takeLimit s l - l.taken.length) l.avail.length
        if n ≠ 0 then runLoader fuel (takeBytes l n s)
        else if l.ended && l.step < 8 && l.avail.isEmpty && l.taken.length < max 352 (imgTotal l) then
          failLoad stTruncated false s
        else s

/-- Steps that the bytes at hand can take at most. -/
def loaderFuel (l : Load) : Nat := 2 * (l.taken.length + l.avail.length) + 2 * imgSections l + 64

def loader (s : State) : State :=
  match s.load with
  | none => s
  | some l => runLoader (loaderFuel l) s

/-- The loader waits for the signature, the bindings, or the bank's lines. -/
def loaderWaits (s : State) (l : Load) : Bool := l.step == 1 || l.step == 6 || backlog s l.h

/-- At an edge: the items of the bell start again, a wait is no stall, and bindings may have taken effect. -/
def loadEdge (s : State) : State :=
  match s.load with
  | none => s
  | some l =>
    loader (modLoad (fun x => { x with
      bellItems := 0, lastProgress := if loaderWaits s l then s.bell.edges else x.lastProgress }) s)

/-! The stream (R767 to R769, R773, R787). -/

/-- Items that a bell allows: 0.075 · s · N · 0.8 (R768). -/
def bellLimit (s : State) : Nat :=
  let slots := ((s.slots.maps[(5 : Fin 18)]).toList.filter (· == 0)).length
  6 * slots * s.bell.len / 100

/-- The loader takes queue items in the slot in progress. -/
def takesItems (s : State) (l : Load) : Bool :=
  l.begun && !l.chunk && l.avail.isEmpty && decide (l.taken.length < takeLimit s l) &&
    (s.slots.maps[(5 : Fin 18)])[s.bell.slot] == 0 && decide (l.bellItems < bellLimit s) && !noEdge s &&
    sourceValid s (BitVec.ofNat 16 l.src.val) && s.queues[l.src].vis != 0

/-- The front item of the source: its six bytes, or the end of the stream. -/
def takeSource (l : Load) (s : State) : State :=
  match s.queues[l.src].items.head? with
  | none => s
  | some c =>
    let s := takePacket l.src 1 s
    if itMark c.it || itBad c.it then failLoad stTruncated false s
    else loader (modLoad (fun x => { x with
      avail := x.avail ++ beBytes 6 (itData c.it).toNat, bellItems := x.bellItems + 1 }) s)

/-- Up to n items, while the loader takes them. -/
def takeItemsUpTo : Nat → State → State
  | 0, s => s
  | n + 1, s =>
    match s.load with
    | none => s
    | some l => if takesItems s l then takeItemsUpTo n (takeSource l s) else s

/-- The loader takes up to n items of its queue, or the chunk bytes that wait, and works through the load steps. -/
def execImageBytesTaken (n : Nat) (s : State) : Res :=
  .next (
    match s.load with
    | none => s
    | some l => if l.chunk then loader s else takeItemsUpTo n (loader s))

/-- Step 2 (R772); a revocation that is due judges NOT_READY (R746). -/
def execSignatureVerified (ok : Bool) (s : State) : Res :=
  .next (
    match s.load with
    | none => s
    | some l =>
      if !l.begun || l.step ≠ 1 then s
      else if s.boot.revokePending then failLoad stNotReady false s
      else if ok then modLoad (fun l => { l with step := 2, lastProgress := s.bell.edges }) s
      else failLoad stSignature false s)

/-- A load from chunks runs for the Holding (R782). -/
def chunkRefusal (s : State) (h : Fin 32) : Option Byte :=
  if s.load.any fun l => l.chunk && l.h == h then none else some stBusy

/-- A chunk joins the stream; its response follows once it has been taken. -/
def addChunk (rq : Req) (b : List Byte) (l : Load) (s : State) : State :=
  let stop := l.taken.length + l.avail.length + b.length
  if b.isEmpty then
    let s := respond rq opWrite stOk 8 (bellNow s) [] (modLoad (fun l => { l with ended := true }) s)
    if l.avail.isEmpty then loader s else s
  else modLoad (fun l => { l with
    avail := l.avail ++ b, chunks := l.chunks ++ [(rq, stop)], lastProgress := s.bell.edges }) s

def execHoldingImageChunkWrite (rq : Req) (h : Fin 32) (bytes : List Byte) (s : State) : Res :=
  .next (serve rq (fun se s =>
    let ix := hix h 0xA0
    match (checkEntry s se.role ix 3 .w true (bytes.length ≤ 1024) true).or (chunkRefusal s h) with
    | some e => respond rq opWrite e (typeByte opWrite ix 3) (bellNow s) [] s
    | none =>
      match s.load with
      | some l => addChunk rq bytes l s
      | none => s) s)

/-- 65,536 bells have passed without a byte, outside the waits of R773 and R780. -/
def execLoadStall (s : State) : Res :=
  .next (
    match s.load with
    | none => s
    | some l =>
      if l.begun && l.step < 8 && !loaderWaits s l && stalled s l.lastProgress then failLoad stTruncated false s else s)

end Sys2Proof.Machine
end

