-- ==== Sys2Proof/Machine/LedgerOps.lean ====
section
/-! DEFINITION. Background work (16): the configuration scrub, the Ledger's pages, intake and scrub, the last-gasp latch,
regulator trim, the sensors and thermal alerts, and the thermal trip (20). -/

namespace Sys2Proof.Machine

def modLedger (f : Ledger → Ledger) (s : State) : State := { s with ledger := f s.ledger }

/-! The configuration scrub (R792 to R794, R821, R870). -/

/-- Configuration words of a Plot (Table 15-4). -/
def cfgWords : Nat := 16464

/-- The address of word i in address order. -/
def cfgPlace (i : Nat) : Nat :=
  if i < 16384 then i
  else if i < 16400 then cfgAddr 1 (i - 16384) 0
  else if i < 16424 then cfgAddr 2 (i - 16400) 0
  else if i < 16432 then cfgAddr 3 (i - 16424) 0
  else cfgAddr 4 ((i - 16432) / 16) ((i - 16432) % 16)

/-- The Gleaner scrubs the Plot's configuration. -/
def configScrubbed (s : State) (p : Fin 64) : Bool :=
  let x := s.plots[p]
  let st := s.holdings[x.owner].st
  gleanerRuns s && x.regOn && !underTest s p && !x.clearing &&
    !(x.owner.val != 0 && (st == .loading || st == .clearing || st == .dozing))

def configScrub (p : Fin 64) (s : State) : State :=
  let a := cfgPlace s.plots[p].scrubWord
  let f := secRead (memGet s.plots[p].config a)
  let s := modPlot p (fun x => { x with
    config := if f.ce then memSet x.config a (secWord f.data) else x.config,
    scrubWord := (x.scrubWord + 1) % cfgWords }) s
  if f.ce then limited evConfigCe p.val 1 s
  else if f.ue then setUnfit p (record evConfigUe s.plots[p].owner (BitVec.ofNat 48 (p.val * 2 ^ 40 + a)) s)
  else s

def execConfigScrubWord (p : Fin 64) (s : State) : Res := .next (if configScrubbed s p then configScrub p s else s)

/-! The Ledger (R807 to R811, R817, R822 to R825). -/

def pageOf (i : Nat) : Nat := i / 256

/-- The place of the next record: the next slot of a good page. -/
def nextPlace (s : State) : Option Nat :=
  let here := s.ledger.pos
  if !s.ledger.lostPages.contains (pageOf here) then some here
  else
    (((List.range 64).map fun k => (pageOf here + k) % 64).find? fun p => !s.ledger.lostPages.contains p).map (256 * ·)

/-- A record is written and counted for its owner. -/
def writeRecord (r : Rec) (s : State) : State :=
  match nextPlace s with
  | none => latch r s
  | some i =>
    let o : Fin 32 := Fin.ofNat 32 r.owner.toNat
    modLedger (fun x => { x with
      pages := memSet x.pages i (ledgerSlot r), pos := (i + 1) % 16384,
      written := x.written.set o (x.written[o] + 1) }) s

/-- The records of the intake are written. -/
def flushIntake (s : State) : State :=
  eachOf s.ledger.intake writeRecord (modLedger (fun x => { x with intake := [] }) s)

/-- A record made now that is not held in the intake. -/
def recOf (e : Ev) (data : Word) (s : State) : Rec :=
  { bell := s.bell.number.setWidth 32, sev := e.sev, code := e.code, data, owner := 0 }

/-- A page is mapped out (R824); above 8 the Ledger is degraded (R825). -/
def losePage (p : Nat) (s : State) : State :=
  if s.ledger.lostPages.contains p then s else
  let s := modLedger (fun x => { x with
    lostPages := p :: x.lostPages, pages := memKeep (fun k => pageOf k != p) x.pages }) s
  let n := s.ledger.lostPages.length
  let s := record evLedgerPageLost 0 (BitVec.ofNat 48 (p * 256 + n % 256)) s
  if n ≤ 8 ∨ s.ledger.degraded then s else
  let s := flushIntake s
  latch (recOf evLedgerDegraded 0 s) (modLedger (fun x => { x with degraded := true }) s)

/-- The oldest record of the intake is written; a lost count follows as soon as the intake has room (R817). -/
def intakeStep (ue : Bool) (s : State) : State :=
  match s.ledger.intake with
  | [] => s
  | r :: l =>
    let s := modLedger (fun x => { x with intake := l }) s
    let s := if ue then losePage (((nextPlace s).map pageOf).getD 0) (latch r s) else writeRecord r s
    let n := s.ledger.lostRecs
    if n = 0 ∨ s.ledger.degraded then s
    else record evLedgerOverflow 0 (datTop 0 (n % 2 ^ 32)) (modLedger (fun x => { x with lostRecs := 0 }) s)

/-- `ue`: the write finds a UE in the page. -/
def execLedgerRecordWrite (ue : Bool) (s : State) : Res := .next (intakeStep ue s)

/-- The two coded words of a slot; the slot with a CE corrected; whether a UE was found. -/
def slotWords (v : BitVec 128) : Stored × Stored := (v.extractLsb' 72 56, v.extractLsb' 16 56)

def slotCorrected (v : BitVec 128) : BitVec 128 :=
  let w := slotWords v
  let fix := fun (x : Stored) => if (secRead x).ce then secWord (secRead x).data else x
  fix w.1 ++ (fix w.2 ++ v.extractLsb' 0 16)

def slotUe (v : BitVec 128) : Bool := (secRead (slotWords v).1).ue || (secRead (slotWords v).2).ue

/-- Every record slot is read; words with a CE are rewritten, pages with a UE mapped out (R796, R824). -/
def scrubLedger (s : State) : State :=
  let bad := ((s.ledger.pages.filter fun e => slotUe e.2).map fun e => pageOf e.1).dedup
  let s := modLedger (fun x => { x with
    pages := x.pages.foldl (fun m e => memSet m e.1 (slotCorrected e.2)) x.pages }) s
  eachOf bad losePage s

def execLedgerScrub (s : State) : Res := .next (if gleanerRuns s then scrubLedger s else s)

/-- LEDGER.LAST_GASP_CLEAR (R822). -/
def execLedgerLastGaspClear (rq : Req) (s : State) : Res :=
  .next (invokeReq rq 0x7800 6 true (fun _ _ => none)
    (fun _ s =>
      let n := min s.ledger.gaspCount 0xFFFF
      let s := modLedger (fun x => { x with gasp := Vector.replicate 8 0, gaspCount := 0 }) s
      let s := record evLastGaspCleared 0 (BitVec.ofNat 48 n) s
      (s, some (stOk, bellNow s))) s)

/-! Regulator trim (R797, R820). -/

/-- `mv` is PLOT.VOLTAGE_MV as compared. -/
def execRegulatorTrim (p : Fin 64) (mv : BitVec 16) (s : State) : Res :=
  .next (
    let x := s.plots[p]
    let dozing := x.owner.val != 0 && s.holdings[x.owner].st == .dozing
    if !x.regOn || x.ramping || dozing || !gleanerRuns s then s else
    modPlot p (fun x => { x with
      voltMv := mv,
      refSteps := if mv.toNat + 3 ≤ x.target then x.refSteps + 1
        else if x.target + 3 ≤ mv.toNat then x.refSteps - 1 else x.refSteps }) s)

/-! Telemetry (R116, R804, R806, R990, Table 16-3). -/

/-- The codes of Table 16-3 in the numbering of THERMAL_ALERT. -/
def thermalCodes (s : State) : List Nat :=
  s.plots.toList.map (fun x => (plotTemp x).toNat) ++ s.quads.toList.map (fun q => q.temp.toNat) ++ [s.tele.package.toNat]

/-- A THERMAL record names one of the sensors that could be named. -/
def thermalRecord (e : Ev) (sensors : List Nat) (s : State) : State :=
  let k := (sensors[Config.alertSensor s.fresh % sensors.length]?).getD 0
  let code := ((thermalCodes s)[k]?).getD 0
  record e 0 (BitVec.ofNat 48 (k * 2 ^ 32 + code)) (draw s)

/-- ALERT_N follows the codes (R806). -/
def thermalAlert (s : State) : State :=
  let codes := thermalCodes s
  let t := s.tele.alertTemp.toNat
  let hot := (List.range codes.length).filter fun k => decide (t < (codes[k]?).getD 0)
  if !s.tele.alertLow && !hot.isEmpty then
    thermalRecord evThermalAlert hot { s with tele := { s.tele with alertLow := true } }
  else if s.tele.alertLow && codes.all (fun c => c + 16 ≤ t) then
    thermalRecord evThermalClear (List.range codes.length) { s with tele := { s.tele with alertLow := false } }
  else s

/-- Codes differ by 2 °C or more. -/
def movedTwo (a b : BitVec 16) : Bool := a.toNat + 16 ≤ b.toNat || b.toNat + 16 ≤ a.toNat

/-- One Plot's sensors; a pass falls due as its temperature moves, and a restart that waited for it follows. -/
def samplePlot (v : Sensors) (p : Fin 64) (s : State) : State :=
  let s := modPlot p (fun x => { x with
    temp := v.plotTemp[p], voltMv := if x.regOn then v.plotMv[p] else 0,
    calDue := x.calDue || (x.regOn && movedTwo v.plotTemp[p] x.lastCalTemp) }) s
  let x := s.plots[p]
  let s := { s with tele := { s.tele with plotMa := s.tele.plotMa.set p (if x.regOn then v.plotMa[p] else 0) } }
  if x.tripWait && suppliesForPlots s && x.temp.toNat ≤ restartTemp then startRegulator p s else s

/-- HOLDING.TEMP_MAX and HOLDING.ISLAND_MA. -/
def sampleHolding (h : Fin 32) (s : State) : State :=
  let ps := ownedPlots s h
  let hottest := (ps.map fun p => (plotTemp s.plots[p]).toNat).foldl max 0
  let ma := (ps.map fun p => s.tele.plotMa[p].toNat).sum
  modHolding h (fun x => { x with tempMax := BitVec.ofNat 16 hottest, islandMa := BitVec.ofNat 32 ma }) s

def sampleSensors (v : Sensors) (s : State) : State :=
  let s := eachFin 64 (samplePlot v) s
  let s := { s with
    quads := Vector.ofFn fun n : Fin 12 => { s.quads[n] with temp := if s.pins.vsd then v.quadTemp[n] else 0 },
    tele := { s.tele with package := v.package, vinMa := v.vinMa } }
  thermalAlert (eachFin 32 sampleHolding s)

def execSensorSample (v : Sensors) (s : State) : Res := .next (sampleSensors v s)

/-- A Plot at 1,512 for 1 ms (R989, R329). -/
def tripPlot (p : Fin 64) (s : State) : State :=
  let x := s.plots[p]
  let s := record evThermalAlert 0 (BitVec.ofNat 48 (p.val * 2 ^ 32 + x.temp.toNat)) s
  let s := modPlot p (fun x => { x with overcur := false, undervolt := false, tripped := true, ramping := false }) s
  let s := record evRegFault x.owner (datTop p.val (regStatus s.plots[p])) (stopRegulator p s)
  let s := if x.owner.val = 0 || x.clearing then modPlot p (fun x => { x with unfit := true }) s else s
  faultHolding x.owner .regFault s

def execThermalTrip (p : Fin 64) (s : State) : Res :=
  .next (if s.plots[p].regOn && 1512 ≤ s.plots[p].temp.toNat then tripPlot p s else s)

end Sys2Proof.Machine
end

