-- ==== Sys2Proof/Machine/SelfTest.lean ====
section
/-! DEFINITION. Orderly shut-down, the evening test and repair (17): the slice and its units, results, the pending repairs,
run records in the spill area, and fuse repair. -/

namespace Sys2Proof.Machine

def modTest (f : SelfTest → SelfTest) (s : State) : State := { s with test := f s.test }
def modSlice (f : Slice → Slice) (s : State) : State := modTest (fun t => { t with slice := t.slice.map f }) s

/-! The shut-down (R829 to R833). -/

/-- A Holding is kept (R830). -/
def holdingKept (x : Holding) : Bool := (x.st == .quiesced && x.freeze == .cut) || x.st == .dozing

/-- The first condition that forbids a shut-down. -/
def shutdownRefusal (s : State) : Option Byte :=
  if anyHolding s [.loading, .running] || s.snap.job.isSome || s.snap.restore.isSome || s.load.isSome || s.test.accepted
  then some stBusy else none

/-- Every Holding that is neither EMPTY nor kept goes to CLEARING. -/
def shutHolding (h : Fin 32) (s : State) : State :=
  let x := s.holdings[h]
  if h.val = 0 || x.st == .empty || x.st == .clearing || holdingKept x then s else enterClearing h s

def beginShutdown (rq : Req) (s : State) : State :=
  let s := modTest (fun t => { t with accepted := true, rq := some rq }) s
  eachFin 48 laneOff (eachFin 32 shutHolding s)

def execSelftestShutdown (rq : Req) (s : State) : Res :=
  .next (invokeReq rq 0x7900 3 true (fun _ s => shutdownRefusal s) (fun _ s => (beginShutdown rq s, none)) s)

/-- Every Holding is EMPTY or kept. -/
def allKept (s : State) : Bool :=
  (List.finRange 32).all fun h => h.val == 0 || s.holdings[h].st == .empty || holdingKept s.holdings[h]

/-- The shut state and the response (R832). -/
def enterShut (s : State) : State :=
  let rq := s.test.rq
  invokeDone rq stOk (bellNow s) (modTest (fun t => { t with shut := true, rq := none, slice := none }) s)

/-! Units (Table 17-1, R835, R840, R842). -/

/-- The Plot of a unit, none for QUAD and SENSOR. -/
def unitPlot (k : Nat) : Option (Fin 64) := if k < 320 then some (Fin.ofNat 64 (k / 5)) else none

def plotKept (s : State) (p : Fin 64) : Bool :=
  let h := s.plots[p].owner
  h.val != 0 && holdingKept s.holdings[h]

/-- The rate of a quad's PLL A in kb/s. -/
def rateA (x : Quad) : Nat := x.refKhz.toNat * x.pllaM.toNat

/-- Charged time in µs; a part of a µs counts whole. -/
def unitCharge (s : State) (k : Nat) : Nat :=
  match unitPlot k with
  | some p =>
    let more := if plotKept s p then 1000 else 0
    (if k % 5 = 0 then 3000 else 1600) + more
  | none =>
    if k < 332 then 1200 + (2 ^ 24 * 1000 + rateA s.quads[Fin.ofNat 12 (k - 320)] - 1) / rateA s.quads[Fin.ofNat 12 (k - 320)]
    else 200

/-- The parking bank. -/
def parkingBank (s : State) (x : Slice) : Option (Fin 64) :=
  (List.finRange 64).find? fun p => s.plots[p].owner == 0 && !s.banks[p].clearFail && !x.failedBanks.contains p.val

/-- The outcome with which a unit that cannot run is recorded. -/
def unitSkip (s : State) (x : Slice) (k : Nat) : Option Nat :=
  match unitPlot k with
  | some p =>
    let y := s.plots[p]
    if !y.regOn && (y.overcur || y.undervolt || y.tripped) then some 6
    else if k % 5 = 0 && plotKept s p && (parkingBank s x).isNone then some 2
    else none
  | none =>
    if k < 332 then
      let q := s.quads[Fin.ofNat 12 (k - 320)]
      if q.pllaM = 0 ∨ !q.refOk then some 3 else none
    else none

/-- A result entry (Table 17-3). -/
def resultEntry (k outcome : Nat) (addr : Nat) (bit : Nat) (count : Nat) : List Byte :=
  beBytes 2 k ++ beBytes 1 outcome ++ beBytes 1 (((unitPlot k).map (·.val)).getD 0) ++
    beBytes 1 (if k < 320 ∧ k % 5 ≠ 0 then k % 5 - 1 else 0) ++ beBytes 3 addr ++ beBytes 1 bit ++ [0] ++ beBytes 2 count

def skipEntry (k outcome : Nat) : List Byte := resultEntry k outcome 0 0xFF 0

/-! The slice (R836 to R841). -/

/-- The position after k. -/
def nextPos (k : Nat) : Nat := if k = 332 then 0 else k + 1

/-- A unit is passed over with a skip outcome. -/
def passOver (k outcome : Nat) (x : Slice) : Slice :=
  { x with entries := x.entries ++ [skipEntry k outcome], skipped := x.skipped + 1 }

/-- A unit starts; a PLOT unit of a kept Plot uses the parking bank. -/
def startUnit (s : State) (k : Nat) (x : Slice) : Slice :=
  let kept := (unitPlot k).any (plotKept s)
  let park := if k % 5 = 0 && kept then ((parkingBank s x).map (·.val)).toList else []
  let own := if kept || 320 ≤ k || k % 5 = 0 then [] else [k / 5]
  { x with current := some k, kept, dirty := (x.dirty ++ park ++ own).dedup }

/-- The GRANARY units that REPAIR_CANDIDATE records named come first; one that does not fit is passed over. -/
def chooseExtra (s : State) : List Nat → Slice → Slice
  | [], x => { x with extra := [] }
  | k :: l, x =>
    match unitSkip s x k with
    | some o => chooseExtra s l (passOver k o x)
    | none =>
      if x.charged + unitCharge s k ≤ x.budget then startUnit s k { x with extra := l } else chooseExtra s l x

/-- The next unit in position order that runs, or the end of the slice; at most one rotation is passed over. -/
def choosePos (s : State) : Nat → Slice → Slice
  | 0, x => x
  | fuel + 1, x =>
    let passed := fun (o : Nat) => { passOver x.pos o x with
      pos := nextPos x.pos, ran := true, rotation := x.rotation || x.pos == 332 }
    match unitSkip s x x.pos with
    | some o => choosePos s fuel (passed o)
    | none =>
      let c := unitCharge s x.pos
      if x.charged + c ≤ x.budget then startUnit s x.pos x
      else if !x.ran && x.budget < c then choosePos s fuel (passed 4)
      else x

def chooseUnit (s : State) (x : Slice) : Slice :=
  let x := chooseExtra s x.extra { x with current := none }
  if x.current.isSome then x else choosePos s 333 x

/-- SELFTEST.RESULTS (Table 17-2). -/
def resultsOf (s : State) (x : Slice) : List Byte :=
  let kept := x.entries.take 82
  beBytes 1 1 ++ beBytes 1 (ofBits [decide (82 < x.entries.length), x.rotation]) ++ beBytes 2 (x.budget / 1000) ++
    beBytes 2 s.test.coverage.toNat ++ beBytes 2 x.pos ++ beBytes 2 x.passed ++ beBytes 2 x.failed ++ beBytes 2 x.skipped ++
    beBytes 2 kept.length ++ beBytes 4 x.charged ++ beBytes 6 x.bell.toNat ++ beBytes 2 x.newRepairs ++ beBytes 4 0 ++
    kept.flatten

/-- Plots all of whose five units have passed in this slice are no longer retired (R862). -/
def unretire (x : Slice) (mask : BitVec 64) : BitVec 64 :=
  BitVec.ofNat 64 (ofBits ((List.range 64).map fun p =>
    mask.getLsbD p && !((List.range 5).all fun i => x.passes.contains (5 * p + i))))

/-- The slice has ended: its records, and the clearing of the parking Plot and of the banks tested (R841, R846, R850). -/
def endSlice (x : Slice) (s : State) : State :=
  let s := record evSelftestSlice 0 (datTop 0 x.pos) s
  let s := if x.rotation then record evSelftestDone 0 (datTop 0 x.pos) s else s
  let s := modTest (fun t => { t with
    slice := some { x with done := true, current := none }, unfitMask := unretire x t.unfitMask }) s
  eachOf (x.dirty.map (Fin.ofNat 64)) (fun p t => if t.plots[p].owner = 0 then clearPlot p t else t) s

/-- The slice goes on with its next unit or ends. -/
def sliceNext (s : State) : State :=
  match s.test.slice with
  | none => s
  | some x =>
    let x := if x.abandon then { x with current := none } else chooseUnit s x
    if x.current.isSome then modTest (fun t => { t with slice := some x }) s else endSlice x s

/-- GRANARY positions of the sub-arrays that REPAIR_CANDIDATE records have named (R837). -/
def candidates (l : List Nat) : List Nat := ((l.dedup).map fun c => 5 * (c / 4) + 1 + c % 4).take 8

def beginSlice (s : State) : State :=
  let s := record evSelftestStart 0 (datTop 0 s.test.coverage.toNat) s
  let x : Slice :=
    { pos := s.test.coverage.toNat, extra := candidates s.test.cands, budget := 1000 * s.test.sliceMs.toNat, charged := 0,
      start := s.bell.now, ran := false, current := none, entries := [], passed := 0, failed := 0, skipped := 0,
      rotation := false, bell := s.bell.number, newRepairs := 0, done := false, abandon := false, kept := false,
      failedBanks := [], dirty := [], passes := [] }
  sliceNext (modTest (fun t => { t with slice := some x, cands := [] }) s)

/-- Every Holding is EMPTY or kept: the slice begins, or the shut state when the test is not enabled. -/
def execSelftestStart (s : State) : Res :=
  .next (
    if !s.test.accepted || s.test.shut || s.test.slice.isSome || !allKept s then s
    else if s.test.enable then beginSlice s
    else enterShut s)

/-! What a unit leaves (R844, R847 to R854, R867, R868). -/

/-- A kept Plot is restored: check bits are recomputed, and Bin rows that read as a UE are poisoned. -/
def restorePlot (x : Plot) : Plot :=
  { x with
    config := x.config.foldl (fun m e => memSet m e.1 (secWord (secRead e.2).data)) x.config,
    binMem := x.binMem.foldl (fun m e =>
      let mode := binModeOf x (Fin.ofNat 24 (e.1 / 1024))
      let f := binFound mode e.2 [0, 1, 2, 3]
      memSet m e.1 (if f.ue then poisonRow mode e.2 else binRow mode f.data)) x.binMem }

/-- The end of a PLOT unit of a kept Plot: its contents return, unless its Holding has faulted (R867). -/
def keptPlotEnd (p : Fin 64) (s : State) : State :=
  if plotKept s p then modPlot p restorePlot s else modPlot p (fun x => { x with binMem := [] }) s

/-- The transparent march of a kept bank's sub-array (R851). -/
def transparentMarch (p : Fin 64) (sub : Nat) (s : State) : State :=
  eachOf ((s.banks[p].mem.filter fun e => e.1 % 4 == sub).map (·.1)) (fun a t => correctWord true p a t) s

/-- What the unit does to the contents, pass or fail. -/
def unitEffect (k : Nat) (x : Slice) (s : State) : State :=
  match unitPlot k with
  | none => s
  | some p =>
    if !x.kept then s else if k % 5 = 0 then keptPlotEnd p s else transparentMarch p (k % 5 - 1) s

/-! Repairs (Table 17-5, R859 to R861). -/

/-- A repair entry. -/
def repairEntry (bank sub kind ix : Nat) : BitVec 32 := BitVec.ofNat 32 (bank * 2 ^ 26 + sub * 2 ^ 24 + kind * 2 ^ 22 + ix)

def reBank (e : BitVec 32) : Nat := e.toNat / 2 ^ 26
def reSub (e : BitVec 32) : Nat := e.toNat / 2 ^ 24 % 4
def reKind (e : BitVec 32) : Nat := e.toNat / 2 ^ 22 % 4

/-- The row and the column of a failing cell: word address and stored bit (R166). -/
def cellRow (c : Nat × Nat) : Nat := c.1 / 256 % 1024
def cellCol (c : Nat × Nat) : Nat :=
  let w := c.1 / 4 % 64
  4 * (56 * (w / 4) + c.2) + w % 4

/-- Addresses from 2^18 on name spare rows 0 to 7, then the spare column. -/
def isSpare (c : Nat × Nat) : Bool := 262144 ≤ c.1

/-- The repairs that the failing cells of one GRANARY unit need (R859). -/
def repairsFor (bank sub : Nat) (cells : List (Nat × Nat)) : List (BitVec 32) :=
  let spares := ((cells.filter isSpare).map fun c =>
    if c.1 < 262152 then repairEntry bank sub 2 (c.1 - 262144) else repairEntry bank sub 3 0).dedup
  let rest := cells.filter fun c => !isSpare c
  let rowsOf := fun (col : Nat) => ((rest.filter fun c => cellCol c == col).map cellRow).dedup
  let cols := ((rest.map cellCol).dedup).filter fun col => 3 ≤ (rowsOf col).length
  let rows := ((rest.filter fun c => !cols.contains (cellCol c)).map cellRow).dedup
  spares ++ cols.map (repairEntry bank sub 1) ++ rows.map (repairEntry bank sub 0)

/-- The kind uses a spare row rather than a spare column. -/
def rowKind (e : BitVec 32) : Bool := reKind e % 2 == 0

/-- Entries of the list that use the same kind of spare of the same sub-array. -/
def sparesUsed (l : List (BitVec 32)) (e : BitVec 32) : Nat :=
  (l.filter fun x => reBank x == reBank e && reSub x == reSub e && rowKind x == rowKind e).length

def spareLimit (e : BitVec 32) : Nat := if rowKind e then 8 else 1

/-- One repair joins the pending list, if it is new and a spare and a place are left. -/
def addRepair (e : BitVec 32) (s : State) : State :=
  let all := s.test.fuses ++ s.test.pendingRepairs
  if all.contains e then s
  else if spareLimit e ≤ sparesUsed all e then
    record evRepairExhausted 0 (datTop (reBank e) 0)
      (modTest (fun t => { t with unfitMask := t.unfitMask ||| (1#64 <<< reBank e) }) s)
  else if 512 ≤ s.test.pendingRepairs.length then record evRepairExhausted 0 (datTop (reBank e) 0) s
  else modSlice (fun x => { x with newRepairs := x.newRepairs + 1 })
    (modTest (fun t => { t with pendingRepairs := t.pendingRepairs ++ [e] }) s)

/-! The end of a unit (R841, R855, R856, R862, R868, R871). -/

/-- What a failing unit records and does. -/
def unitFails (k : Nat) (x : Slice) (addr : Nat) (cells : List (Nat × Nat)) (s : State) : State :=
  let p := ((unitPlot k).map (·.val)).getD 0
  let s := record evSelftestFail 0 (datTop p addr) s
  match unitPlot k with
  | none => s
  | some q =>
    if k % 5 = 0 then
      let s := modTest (fun t => { t with unfitMask := t.unfitMask ||| (1#64 <<< p) }) s
      if x.kept then setUnfit q s else s
    else
      let s := modSlice (fun y => { y with failedBanks := p :: y.failedBanks }) s
      eachOf (repairsFor p (k % 5 - 1) cells) addRepair s

/-- The unit is charged; one of SELFTEST.COVERAGE moves the position. -/
def afterUnit (k : Nat) (c : Nat) (x : Slice) : Slice :=
  let inOrder := x.extra.isEmpty && x.pos == k && x.current == some k
  { x with
    charged := x.charged + c, ran := x.ran || inOrder, pos := if inOrder then nextPos k else x.pos,
    rotation := x.rotation || (inOrder && k == 332) }

/-- The outcome of unit k, as recorded. -/
def recordOutcome (k : Nat) (o : UnitOutcome) (x : Slice) : Slice :=
  if x.abandon then { x with entries := x.entries ++ [skipEntry k 5] } else
  match o with
  | .pass => { x with passed := x.passed + 1, passes := k :: x.passes }
  | .fail addr bit count _ =>
    { x with failed := x.failed + 1, entries := x.entries ++ [resultEntry k 1 addr.toNat bit.toNat count.toNat] }

def endUnit (k : Nat) (o : UnitOutcome) (x : Slice) (s : State) : State :=
  let c := unitCharge s k
  let s := unitEffect k x s
  let s := match o with
    | .pass => s
    | .fail addr _ _ cells => unitFails k x addr.toNat cells s
  sliceNext (modSlice (fun y => recordOutcome k o (afterUnit k c y)) s)

def execTestUnitEnd (o : UnitOutcome) (s : State) : Res :=
  .next (
    match s.test.slice with
    | none => s
    | some x =>
      match x.current with
      | none => s
      | some k => endUnit k o x s)

/-! The spill area and run records (R801, R857, R858, R863, R873, Table 17-4). -/

def spillFree (s : State) (i : Nat) : Bool :=
  !(s.test.spill.sectors.any fun x => x.1 == i) && !s.test.spill.retired.contains i

def modSpill (f : Spill → Spill) (s : State) : State := modTest (fun t => { t with spill := f t.spill }) s

/-- Erases the oldest spill sector without copying it. -/
def eraseOldest (s : State) : State :=
  match s.test.spill.sectors with
  | [] => s
  | (i, _) :: l =>
    let n := (memGet s.test.spill.eraseCount i).toNat + 1
    let base := spillBase + 4096 * i
    let s := modSsp (fun x => { x with
      flash := flashProgram (flashWipe x.flash base 4096) base (sectorHeader n 0xFFFFFFFF), erases := satAdd x.erases 1 }) s
    let s := modSpill (fun x => { x with
      sectors := l, eraseCount := memSet x.eraseCount i (BitVec.ofNat 32 n),
      retired := if 100000 ≤ n then i :: x.retired else x.retired }) s
    if 100000 ≤ n then record evSectorRetired 0 (BitVec.ofNat 48 (2 ^ 16 + i)) s else s

/-- Opens the next free spill sector. -/
def openSpill (s : State) : State :=
  let s := if (List.range 1024).any (spillFree s) then s else eraseOldest s
  let last := ((s.test.spill.sectors.getLast?).map (·.1)).getD 1023
  let seq : BitVec 32 := ((s.test.spill.sectors.getLast?).map (·.2 + 1)).getD 0
  match ((List.range 1024).map fun i => (last + 1 + i) % 1024).find? (spillFree s) with
  | none => s
  | some i =>
    let hdr := sectorHeader (memGet s.test.spill.eraseCount i).toNat seq.toNat
    modSsp (fun x => { x with flash := flashProgram x.flash (spillBase + 4096 * i) hdr })
      (modSpill (fun x => { x with sectors := x.sectors ++ [(i, seq)], used := 16 }) s)

/-- A run record. -/
def runBytes (s : State) (results : List Byte) (repairs : List (BitVec 32)) : List Byte :=
  let b := beBytes 2 0x5452 ++ beBytes 2 results.length ++ beBytes 4 (s.test.runSeq.toNat + 1) ++ beBytes 2 repairs.length ++
    beBytes 2 0 ++ beBytes 8 s.test.unfitMask.toNat ++ results ++ (repairs.map fun e => beBytes 4 e.toNat).flatten
  b ++ beBytes 4 (crc crcP1 b).toNat

/-- One attempt to append a record: in the newest sector, or in the next when it does not fit or `fresh` asks for it. -/
def appendRun (b : List Byte) (fresh ok : Bool) (s : State) : State :=
  let s := if fresh || s.test.spill.sectors.isEmpty || 4096 < s.test.spill.used + b.length then openSpill s else s
  let i := ((s.test.spill.sectors.getLast?).map (·.1)).getD 0
  let at_ := spillBase + 4096 * i + s.test.spill.used
  let s := modSpill (fun x => { x with used := x.used + b.length }) s
  if ok then modTest (fun t => { t with runSeq := t.runSeq + 1 })
    (modSsp (fun x => { x with flash := flashProgram x.flash at_ b, programs := satAdd x.programs 1 }) s)
  else modSsp (fun x => { x with flashErrors := satAdd x.flashErrors 1 }) s

/-- A record whose program fails is written once more in the next sector; when that fails too, STORE_WRITE_FAIL. -/
def writeRun (b : List Byte) (ok0 ok1 : Bool) (s : State) : State :=
  let s := appendRun b false ok0 s
  if ok0 then s else
  let s := appendRun b true ok1 s
  if ok1 then s else record evStoreWriteFail 0 (datTop 0 (0x7900 * 256)) s

/-- The slice's clearing is over: the run record is appended and the shut state entered (R846, R850, R857). -/
def finishRun (x : Slice) (ok0 ok1 : Bool) (s : State) : State :=
  let results := resultsOf s x
  let s := writeRun (runBytes s results s.test.pendingRepairs) ok0 ok1 s
  enterShut (modTest (fun t => { t with coverage := BitVec.ofNat 32 x.pos, results }) s)

/-- `ok0` and `ok1`: the record, and its second writing, are programmed and read back. -/
def execRunRecord (ok0 ok1 : Bool) (s : State) : Res :=
  .next (
    match s.test.slice with
    | none => s
    | some x => if x.done && !(s.plots.toList.any (·.clearing)) then finishRun x ok0 ok1 s else s)

/-! Fuse repair (R863, R864). -/

def fuseRefusal (s : State) : Option Byte :=
  if !s.pins.vfuse then some stNotReady
  else if s.test.accepted && !s.test.shut then some stBusy
  else if 1024 < s.test.fuses.length + s.test.pendingRepairs.length then some stNoSlot
  else none

def fuseRepairs (s : State) : State :=
  let n := s.test.pendingRepairs.length
  let s := modTest (fun t => { t with fuses := t.fuses ++ t.pendingRepairs, pendingRepairs := [] }) s
  record evFuseRepairDone 0 (datTop 0 n) (appendRun (runBytes s s.test.results []) false true s)

def execSelftestFuseRepair (rq : Req) (s : State) : Res :=
  .next (invokeReq rq 0x7900 7 true (fun _ s => fuseRefusal s)
    (fun _ s =>
      let s := fuseRepairs s
      (s, some (stOk, bellNow s))) s)

end Sys2Proof.Machine
end

