-- ==== Sys2Proof/Machine/Village.lean ====
section
/-! DEFINITION. Villages (18): the manifest and its checks, SSP1 as a CHAIN stage in a muster and outside one (R568 to R571),
the muster word, what each stage judges from the words of a muster, membership, slewing, resync and spans. -/

namespace Sys2Proof.Machine

def modVillage (f : Village → Village) (s : State) : State := { s with village := f s.village }

/-! The manifest (Tables 18-1 and 18-2). -/

def manCount (m : List Byte) : Nat := ofBe (bytesAt m 5 1)
def manSpans (m : List Byte) : Nat := ofBe (bytesAt m 6 1)
def manSeq (m : List Byte) : Nat := ofBe (bytesAt m 8 4)

/-- The first six bytes of the digest expected of member i. -/
def manTag (m : List Byte) (i : Nat) : List Byte := bytesAt m (16 + 54 * i + 6) 6

/-- The reserved byte of SPAN[j]. -/
def spanReserved (m : List Byte) (j : Nat) : Nat := ofBe (bytesAt m (17 + 54 * manCount m + 4 * j) 1)

/-- No value comes twice. -/
def noRepeat : List Nat → Bool
  | [] => true
  | a :: l => !l.contains a && noRepeat l

/-- Step 1 of Table 18-2, and R881. -/
def manifestFormed (m : List Byte) : Bool :=
  let n := manCount m
  ofBe (bytesAt m 0 4) == 0x5647564D && ofBe (bytesAt m 4 1) == 1 && 1 ≤ n && n ≤ 16 && manSpans m ≤ 8 &&
    m.length == 16 + 54 * n + 4 * manSpans m + 96 && ofBe (bytesAt m 7 1) == 0 && ofBe (bytesAt m 12 4) == 0 &&
    (manifestSerials m).all (· != 0) && noRepeat (manifestSerials m) &&
    (spansOf m).all (fun x => 1 ≤ x.1 && x.1 ≤ 31 && x.2 != 0 && x.2 < 2 ^ n) &&
    noRepeat ((spansOf m).map (·.1)) && (List.range (manSpans m)).all (fun j => spanReserved m j == 0)

/-- The first check of Table 18-2 that fails; a check of a signature waits for a pending revocation (R746). -/
def manifestRefusal (s : State) (m : List Byte) (sigOk : Bool) : Option Byte :=
  if !manifestFormed m then some stRange
  else if (memberOf m).isNone then some stMismatch
  else if s.boot.revokePending then some stNotReady
  else if !sigOk then some stSignature
  else if s.village.inForce != [] && decide (manSeq m < manSeq s.village.inForce) then some stRollback
  else none

/-- A write to VILLAGE.MANIFEST (R882 to R884): a refusal at step 8 is recorded with its status; none of Table 18-2's
statuses is NOT_READY or BUSY, which are answered without a record. -/
def execVillageManifestWrite (rq : Req) (bytes : List Byte) (sigOk : Bool) (s : State) : Res :=
  .next (serve rq (fun se s =>
    let answer := fun (st : Byte) (s : State) => respond rq opWrite st (typeByte opWrite 0x7C00 2) (bellNow s) [] s
    match checkEntry s se.role 0x7C00 2 .w true (bytes.length ≤ 1024) true with
    | some e => answer e s
    | none =>
      if bytes = [] then
        if s.village.st = .none then persist rq 0x7C00 2 se.role (.bytes []) s else answer stBusy s
      else match manifestRefusal s bytes sigOk with
        | some e => answer e (if e = stNotReady then s else record evManifestRejected 0 (datS 0 e 0) s)
        | none => persist rq 0x7C00 2 se.role (.bytes bytes) s) s)

/-! The muster word (Table 18-4). -/

/-- SPAN: span 0 in [31:28]. -/
def spanField (s : State) (me : Nat) : Nat :=
  ((spansOf s.village.inForce).zipIdx.map fun x =>
    let share := if natBit x.1.2 me then 8 + hstateNum s.holdings[Fin.ofNat 32 x.1.1].st else 0
    share * 16 ^ (7 - x.2)).sum

/-- The village bell (R891). -/
def villageBell (s : State) : BellNo := s.bell.number + s.village.offset

def musterWord (s : State) : BitVec 256 :=
  let m := s.village.inForce
  let me := (memberOf m).getD 0
  let status := villageNum s.village.st + 4 * b2n s.village.slewing + 8 * b2n s.bell.holdover +
    16 * b2n s.pins.corePowerGood + 32 * b2n s.dev.fatal
  let b := beBytes 1 0x4D ++ beBytes 1 me ++ beBytes 1 status ++ beBytes 1 (manSeq m % 256) ++
    beBytes 6 Config.serial.toNat ++ beBytes 6 (villageBell s).toNat ++ beBytes 4 s.boot.fw.toNat ++
    (beBytes 48 (configDigest s).toNat).take 6 ++ beBytes 4 (spanField s me)
  BitVec.ofNat 256 (ofBe (b ++ beBytes 2 (crc crcP3 b).toNat))

def wordAt (w : BitVec 256) (k n : Nat) : Nat := ofBe (bytesAt (beBytes 32 w.toNat) k n)

/-- R889. -/
def wordValid (w : BitVec 256) : Bool :=
  wordAt w 0 1 == 0x4D && wordAt w 30 2 == (crc crcP3 ((beBytes 32 w.toNat).take 30)).toNat

def wordState (w : BitVec 256) : Nat := wordAt w 2 1 % 4
def wordSlewing (w : BitVec 256) : Bool := natBit (wordAt w 2 1) 2
def wordFails (w : BitVec 256) : Bool := natBit (wordAt w 2 1) 3 || natBit (wordAt w 2 1) 5
def wordBell (w : BitVec 256) : BellNo := BitVec.ofNat 48 (wordAt w 10 6)
def wordFw (w : BitVec 256) : Nat := wordAt w 16 4

/-- SHARE and state of span j. -/
def wordShare (w : BitVec 256) (j : Nat) : Option Nat :=
  let n := wordAt w 26 4 / 16 ^ (7 - j) % 16
  if n < 8 then none else some (n % 8)

/-- The valid word from member i, the first one latched. -/
def wordOf (m : List Byte) (ws : List (BitVec 256)) (i : Nat) : Option (BitVec 256) :=
  ws.find? fun w => wordValid w && wordAt w 1 1 == i && some (wordAt w 4 6) == (manifestSerials m)[i]?

def tagOk (m : List Byte) (i : Nat) (w : BitVec 256) : Bool := wordAt w 20 6 == ofBe (manTag m i)

def seqOk (m : List Byte) (ws : List (BitVec 256)) (w : BitVec 256) : Bool :=
  (wordOf m ws 0).any fun z => wordAt z 3 1 == wordAt w 3 1

/-- R892. -/
def eligible (m : List Byte) (ws : List (BitVec 256)) (i : Nat) (w : BitVec 256) : Bool :=
  seqOk m ws w && tagOk m i w && wordState w != 0

/-- The eligible word from member i. -/
def goodWord (m : List Byte) (ws : List (BitVec 256)) (i : Nat) : Option (BitVec 256) :=
  (wordOf m ws i).filter (eligible m ws i)

/-- The delta of member i (R891). -/
def delta (m : List Byte) (ws : List (BitVec 256)) (w : BitVec 256) : Int :=
  match wordOf m ws 0 with
  | none => 0
  | some z => (wordBell w - wordBell z).toInt

/-! A stage in a muster (R880, R886 to R890, R904). -/

/-- The device is a chain stage, as master or slave. -/
def isStage (s : State) : Bool := chainOwned s && (s.ssp.slave || memberOf s.village.manifest == some 0)

def memberRec (e : Ev) (i : Nat) (s : State) : State := record e 0 (BitVec.ofNat 48 (i % 16)) s

def ownMember (s : State) : Nat := (memberOf s.village.inForce).getD 0

def toJoining (s : State) : State :=
  modVillage (fun v => { v with st := .joining, joined := false, misses := 0, resync := false }) s

def inVillage (s : State) : Bool := s.village.st == .member || s.village.st == .hold

/-- An abandoned muster counts as one in which the stage's own word did not return. -/
def musterAbandoned (s : State) : State :=
  let s := modVillage (fun v => { v with inMuster := false, words := [] }) s
  if !inVillage s then s
  else if 1 ≤ s.village.misses then memberRec evVillageLeave (ownMember s) (toJoining s)
  else modVillage (fun v => { v with misses := v.misses + 1 }) s

/-- Step 0: the accepted manifest governs (R884, R906) and the stage loads its own word. -/
def stepZero (s : State) : State :=
  let s := if s.village.inMuster then musterAbandoned s else s
  let s := modVillage (fun v => { v with inForce := v.manifest }) s
  let w := musterWord s
  modVillage (fun v => { v with
    inMuster := true, step := 0, words := [], own := w, reg := w, lastStep0 := s.bell.edges }) s

/-- A step ends with a word latched. -/
def latchWord (w : BitVec 256) (s : State) : State :=
  modVillage (fun v => { v with reg := w, step := v.step + 1, words := v.words ++ [w] }) s

/-- The chain master asserts the step 0 select after edge e+4 of a muster edge e. -/
def execMusterStart (s : State) : Res :=
  .next (
    let v := s.village
    if isStage s && !s.ssp.slave && !v.inMuster && v.musterEdge != 0 && s.bell.edges == v.musterEdge + 4 then
      emit .musterSelect (modVillage (fun v => { v with musterEdge := 0 }) (stepZero s))
    else s)

/-- The 256 clocks of the master's next step run: its word goes out, the word that comes in is latched. -/
def execMusterStep (di : BitVec 256) (s : State) : Res :=
  .next (
    if isStage s && !s.ssp.slave && s.village.inMuster && decide (s.village.step < 16) then
      latchWord di (emit (.sspSend true (beBytes 32 s.village.reg.toNat)) s)
    else s)

/-- Step 15 has been released: the words are judged, and the outcome waits for its edge. -/
def execMusterComplete (s : State) : Res :=
  .next (
    let v := s.village
    if !(v.inMuster && v.step == 16) then s else
    modVillage (fun v => { v with
      inMuster := false, words := [], verdict := v.words, verdictOwn := v.own, judged := some s.bell.now,
      musters := if v.words.contains v.own then satAdd v.musters 1 else v.musters }) s)

/-- SSP1_SEL[0] asserts: outside a village the stage takes the front of CHAIN_TX (R569); in one it takes its own word
at step 0, which a select more than 5 µs after the previous release begins, and else the word it latched last (R887,
R888). -/
def execChainSelect (s : State) : Res :=
  .next (
    if !isChainSlave s || s.ssp.selected then s
    else if isStage s then
      let first := match s.village.lastRelease with
        | none => true
        | some t => decide (t + 6250 < s.bell.now)
      let s := if first then stepZero s else s
      modSsp (fun x => { x with selected := true, stage := bitsOf (beBytes 32 s.village.reg.toNat) }) s
    else modSsp (fun x => { x with selected := true, stage := (bitsOf (padTo 512 x.chainTx)).take x.chainBits.toNat }) s)

/-- SSP1_SEL[0] releases after the rising edges at which the given bits were taken (R570). -/
def execChainRelease (di : List Bool) (s : State) : Res :=
  .next (
    if !(isChainSlave s && s.ssp.selected) then s else
    let all := s.ssp.stage ++ di
    let s := emit (.sspSend true (bytesOf (all.take di.length))) s
    let stage := all.drop di.length
    let full := decide (chainB s ≤ di.length)
    let s := modSsp (fun x =>
      if full then { x with selected := false, stage, chainLatches := satAdd x.chainLatches 1 }
      else { x with selected := false, stage, errors := satAdd x.errors 1 }) s
    if isStage s then
      let s := modVillage (fun v => { v with lastRelease := some s.bell.now }) s
      if !s.village.inMuster then s
      else if full then latchWord (BitVec.ofNat 256 (ofBe (bytesOf stage))) s
      else modVillage (fun v => { v with step := v.step + 1 }) s
    else if full then modSsp (fun x => { x with chainRx := bytesOf stage }) s
    else s)

/-! The outcome of a muster (R890 to R901, Table 18-5). -/

/-- VILLAGE_EXCLUDE of member i, at most once in 1,024 musters (R894, R1003). -/
def exclude (i : Nat) (s : State) : State :=
  let n := s.village.musters.toNat
  if s.village.excluded.any fun x => x.1 == i && decide (n < x.2 + 1024) then s else
  memberRec evVillageExclude i
    (modVillage (fun v => { v with excluded := (i, n) :: v.excluded.filter fun x => x.1 != i }) s)

/-- The Holdings that are this device's shares (R897). -/
def ownShares (s : State) : List (Fin 32) :=
  ((spansOf s.village.inForce).filter fun x => natBit x.2 (ownMember s)).map fun x => Fin.ofNat 32 x.1

def shareRuns (s : State) : Bool := (ownShares s).any fun h => s.holdings[h].st == .running

/-- An eligible word whose FW_VERSION is not member 0's. -/
def fwDiffers (m : List Byte) (ws : List (BitVec 256)) : Bool :=
  (wordOf m ws 0).any fun z => (List.range 16).any fun i => (goodWord m ws i).any fun w => wordFw w != wordFw z

/-- What the outcome writes of the member's own state, so that R894 does not write it twice. -/
inductive OwnRec where
  | none | joins | leaves
deriving DecidableEq, Repr

/-- The member's own word missing, not eligible or member 0's word missing. -/
def missesMuster (s : State) (m : List Byte) (ws : List (BitVec 256)) : Bool :=
  !(ws.contains s.village.verdictOwn) || (goodWord m ws (ownMember s)).isNone || (wordOf m ws 0).isNone

/-- Table 18-5, for a muster with the words ws. -/
def ownOutcome (m : List Byte) (ws : List (BitVec 256)) (s : State) : State × OwnRec :=
  let v := s.village
  let me := ownMember s
  let miss := missesMuster s m ws
  if v.st ≠ .none ∧ (v.leave ∨ !v.enable) then
    (modVillage (fun v => { v with st := .none, leave := false, joined := false, misses := 0 })
      (eachOf (ownShares s) becomeQuiesced s), .none)
  else match v.st with
    | .none => (if v.enable ∧ m ≠ [] then toJoining s else s, .none)
    | .joining =>
      match goodWord m ws me with
      | none => (s, .none)
      | some w =>
        if miss then (s, .none)
        else if !v.joined then
          (modVillage (fun v => { v with
            joined := true, offset := v.offset - BitVec.ofInt 48 (delta m ws w) }) s, .none)
        else if delta m ws w = 0 && !v.slewing then
          (memberRec evVillageJoin me (modVillage (fun v => { v with st := .member, misses := 0 }) s), .joins)
        else (s, .none)
    | .member | .hold =>
      if miss then
        if v.misses = 0 then (modVillage (fun v => { v with misses := 1 }) s, .none) else
        let s := memberRec evVillageLeave me (toJoining s)
        (if (wordOf m ws me).any fun w => !tagOk m me w then exclude me s else s, .leaves)
      else
        let s := modVillage (fun v => { v with misses := 0 }) s
        let differs := fwDiffers m ws
        if v.st = .member ∧ differs then
          (record evVillageHold 0 1 (modVillage (fun v => { v with st := .hold }) s), .none)
        else if v.st = .hold ∧ !differs then
          (record evVillageResume 0 0 (modVillage (fun v => { v with st := .member }) s), .none)
        else (s, .none)

/-- Slew and resync of the member itself (R895, R896, R908): not at the muster that has just set its offset. -/
def alignOutcome (m : List Byte) (ws : List (BitVec 256)) (wasJoined : Bool) (s : State) : State :=
  let v := s.village
  let me := ownMember s
  match goodWord m ws me with
  | none => s
  | some w =>
    let d := delta m ws w
    if me = 0 ∨ v.slewing ∨ v.st = .none ∨ missesMuster s m ws ∨ (v.joined && !wasJoined) then s
    else if v.resync && !shareRuns s then
      memberRec evVillageResync me (modVillage (fun v => { v with
        resync := false, offset := v.offset - BitVec.ofInt 48 d }) s)
    else if d = 1 ∨ d = -1 then
      record evVillageSlew 0 ((BitVec.ofInt 8 d).setWidth 48) (modVillage (fun v => { v with
        slewing := true, slewD := d, slewLeft := s.bell.period.toNat }) s)
    else if d = 0 then s
    else modVillage (fun v => { v with resync := true }) s

/-- The resyncs of the other members (R896). -/
def othersOutcome (m : List Byte) (ws : List (BitVec 256)) (i : Nat) (s : State) : State :=
  if i = ownMember s then s else
  match goodWord m ws i with
  | none => s
  | some w =>
    let d := delta m ws w
    if wordSlewing w then s
    else if 1 < d ∨ d < -1 then
      modVillage (fun v => { v with apart := if v.apart.contains i then v.apart else i :: v.apart }) s
    else if d = 0 ∧ s.village.apart.contains i then
      memberRec evVillageResync i (modVillage (fun v => { v with apart := v.apart.filter (· != i) }) s)
    else s

/-- Member i belongs to the village at this muster (R893). -/
def isMemberNow (m : List Byte) (ws : List (BitVec 256)) (i : Nat) : Bool :=
  (goodWord m ws i).any fun w => wordState w == 2 || wordState w == 3

/-- VILLAGE.MEMBERS and its records (R893, R894). -/
def membersOutcome (m : List Byte) (ws : List (BitVec 256)) (own : OwnRec) (s : State) : State :=
  let old := s.village.members
  let new := BitVec.ofNat 16 (ofBits ((List.range 16).map (isMemberNow m ws)))
  let me := ownMember s
  eachOf (List.range 16) (fun i t =>
    if new.getLsbD i && !old.getLsbD i then
      if i = me ∧ own = .joins then t else memberRec evVillageJoin i t
    else if !new.getLsbD i && old.getLsbD i then
      if i = me ∧ own = .leaves then t else memberRec evVillageLeave i t
    else t) (modVillage (fun v => { v with members := new }) s)

/-- Only the CONFIG_TAG or the MANIFEST_SEQ of member i's word fails. -/
def onlyTagFails (m : List Byte) (ws : List (BitVec 256)) (i : Nat) : Bool :=
  (wordOf m ws 0).isSome &&
    (wordOf m ws i).any fun w => wordState w != 0 && !(seqOk m ws w && tagOk m i w)

/-- Member i keeps span j apart: one of the points of R898 that concern a member of its mask. -/
def memberDisagrees (s : State) (m : List Byte) (ws : List (BitVec 256)) (j i : Nat) : Bool :=
  match goodWord m ws i with
  | none => true
  | some w =>
    let d := delta m ws w
    (!wordSlewing w && (decide (1 < d) || decide (d < -1))) || s.village.apart.contains i ||
      (i == ownMember s && s.village.resync) || wordFails w ||
      !((wordShare w j) == some 2 || (wordShare w j) == some 3)

/-- Whether a share of span j reports the given state. -/
def shareReports (m : List Byte) (ws : List (BitVec 256)) (mask j st : Nat) : Bool :=
  (List.range 16).any fun i => natBit mask i && (wordOf m ws i).any fun w => wordShare w j == some st

/-- R898 to R900. -/
def spansOutcome (m : List Byte) (ws : List (BitVec 256)) (s : State) : State :=
  let spans := (spansOf m).zipIdx
  let mixed := fun (x : (Nat × Nat) × Nat) => shareReports m ws x.1.2 x.2 2 && shareReports m ws x.1.2 x.2 3
  let bad := fun (x : (Nat × Nat) × Nat) =>
    (shareReports m ws x.1.2 x.2 3 &&
      (s.village.st == .hold || (List.range 16).any fun i => natBit x.1.2 i && memberDisagrees s m ws x.2 i)) ||
    (mixed x && s.village.split.getLsbD x.2)
  let me := ownMember s
  let quiet := (spans.filter fun x => bad x && natBit x.1.2 me).map fun x => Fin.ofNat 32 x.1.1
  eachOf quiet becomeQuiesced (modVillage (fun v => { v with
    disagree := BitVec.ofNat 8 (ofBits (spans.map bad)), split := BitVec.ofNat 8 (ofBits (spans.map mixed)) }) s)

/-- The outcome of a muster, at its edge. -/
def musterOutcome (s : State) : State :=
  let m := s.village.inForce
  let ws := s.village.verdict
  let wasJoined := s.village.joined
  let r := ownOutcome m ws (modVillage (fun v => { v with judged := none, verdict := [] }) s)
  let s := alignOutcome m ws wasJoined r.1
  let s := eachOf (List.range 16) (othersOutcome m ws) s
  let s := membersOutcome m ws r.2 s
  let s := eachOf ((List.range 16).filter (onlyTagFails m ws)) exclude s
  spansOutcome m ws s

/-- At a bell edge: an outcome judged at least 16 ticks ago applies; a muster edge of the chain master starts a muster,
unless the one before has not completed (R886, R890, R904). -/
def villageEdge (s : State) : State :=
  let s := if s.village.judged.any fun t => decide (t + 16 ≤ s.bell.now) then musterOutcome s else s
  if isStage s && !s.ssp.slave && s.bell.number.toNat % 1024 == 0 then
    if s.village.inMuster then musterAbandoned s
    else modVillage (fun v => { v with musterEdge := s.bell.edges }) s
  else s

/-- The N bells of a slew have passed. -/
def execSlewEnd (s : State) : Res :=
  .next (if s.village.slewing && s.village.slewLeft == 0 then modVillage (fun v => { v with slewing := false }) s else s)

/-- No step 0 for 2,048 bells (Table 18-5). -/
def execMusterSilence (s : State) : Res :=
  .next (
    if inVillage s && decide (s.village.lastStep0 + 2048 ≤ s.bell.edges) then
      memberRec evVillageLeave (ownMember s) (toJoining s)
    else s)

def execVillageLeave (rq : Req) (s : State) : Res :=
  .next (invokeReq rq 0x7C00 8 true (fun _ _ => none)
    (fun _ s => (modVillage (fun v => { v with leave := v.st != .none }) s, some (stOk, bellNow s))) s)

end Sys2Proof.Machine
end

