-- ==== Sys2Proof/Machine/Pins.lean ====
section
/-! DEFINITION. Supplies, pins and boundary scan (20). -/

namespace Sys2Proof.Machine

def modPins (f : Pins → Pins) (s : State) : State := { s with pins := f s.pins }

/-! Supplies (R962 to R964, R992 to R1000). -/

def isGood (x : Pins) : Supply → Bool
  | .vreeve => x.vreeve
  | .vaux18 => x.vaux18
  | .vinIvr => x.vinIvr
  | .vgran => x.vgran
  | .vsd => x.vsd
  | .vsdt => x.vsdt
  | .vfuse => x.vfuse
  | .vccio b => x.vccio[b]

def setGood (v : Bool) (x : Pins) : Supply → Pins
  | .vreeve => { x with vreeve := v }
  | .vaux18 => { x with vaux18 := v }
  | .vinIvr => { x with vinIvr := v }
  | .vgran => { x with vgran := v }
  | .vsd => { x with vsd := v }
  | .vsdt => { x with vsdt := v }
  | .vfuse => { x with vfuse := v }
  | .vccio b => { x with vccio := x.vccio.set b v }

/-- The part has come out of reset and boot has not halted. -/
def started (s : State) : Bool := s.boot.phase != .atReset && !bootHalted s

/-- The regulator of a Plot starts with its supplies: an unowned Plot is brought to 800 mV and cleared, as is one in
clearing; one that a fault turned off stays off (R34, R331, R964, R1006). -/
def powerPlot (p : Fin 64) (s : State) : State :=
  let x := s.plots[p]
  if x.regOn || x.overcur || x.undervolt || x.tripped then s
  else if x.owner.val = 0 || x.clearing then clearPlot p s
  else startRegulator p s

/-- Both supplies of the regulators are good: every island starts. -/
def powerPlots (s : State) : State := if suppliesForPlots s && started s then eachFin 64 powerPlot s else s

def execSupplyGood (u : Supply) (s : State) : Res :=
  .next (
    if isGood s.pins u then s else
    let was := suppliesForPlots s
    let s := modPins (fun x => setGood true x u) s
    if was then s else powerPlots s)

def dropCpg (s : State) : State := modPins (fun x => { x with corePowerGood := false }) s

/-- The contents of a bank are lost with VGRAN, and its waiting window requests are answered (R206, R217). -/
def loseBank (p : Fin 64) (s : State) : State :=
  let s := answerWaiting true p s
  let n := s.fresh
  draw (modBank p (fun b => { b with
    mem := [], lost := some n, wbq := [], cleared := false, slotUnits := 0, unitsNext := 0, fence := false }) s)

/-- VGRAN fails: DEVICE_FATAL, all bank contents are lost, and the regulators stop (R217, R999). -/
def vgranFails (s : State) : State :=
  let s := if s.boot.phase == .atReset then s else deviceFatal [.vgranLost] s
  eachFin 64 stopRegulator (eachFin 64 loseBank s)

/-- VIN_IVR fails: every regulator loses regulation (R997). -/
def vinIvrFails (s : State) : State :=
  eachFin 64 (fun p t => if t.plots[p].regOn then regulatorFault p false t else t) s

/-- VSD or VSDT fails: every quad PLL unlocks and the link goes down (R998). -/
def serdesFails (s : State) : State :=
  linkLost (eachFin 12 (fun n t =>
    let t := if t.quads[n].aLocked then pllLost n false t else t
    if t.quads[n].bLocked then pllLost n true t else t) s)

/-- The last-gasp latch loses its content with VREEVE (R996). -/
def loseLatch (s : State) : State :=
  { s with ledger := { s.ledger with gasp := Vector.replicate 8 0, gaspCount := 0 } }

def execSupplyFail (u : Supply) (s : State) : Res :=
  .next (
    if !isGood s.pins u then s else
    let s := modPins (fun x => setGood false x u) s
    match u with
    | .vreeve => loseLatch (coldState s)
    | .vaux18 => coldState s
    | .vinIvr => vinIvrFails (dropCpg s)
    | .vgran => vgranFails (dropCpg s)
    | .vsd | .vsdt => serdesFails (dropCpg s)
    | .vfuse | .vccio _ => s)

/-- 1 ms after the four supplies are all good. -/
def execCorePowerGood (s : State) : Res :=
  .next (
    if s.pins.vsd && s.pins.vsdt && s.pins.vgran && s.pins.vinIvr then
      modPins (fun x => { x with corePowerGood := true }) s
    else s)

/-- A low pulse of 0.5 µs or longer (R960). -/
def execPorstNLow (ns : Nat) (s : State) : Res := .next (if 500 ≤ ns then coldState s else s)

/-- A change that lasts 1 ms or longer (R960). -/
def execMaintNChange (low : Bool) (us : Nat) (s : State) : Res :=
  .next (if 1000 ≤ us then modPins (fun x => { x with maintLow := low }) s else s)

/-! The TAP (R976 to R979, Table 20-10). -/

def modTap (f : Tap → Tap) (s : State) : State := modPins (fun x => { x with tap := f x.tap }) s

def opIdcode : Byte := 0x01
def opSample : Byte := 0x02
def opExtest : Byte := 0x03
def opHighz : Byte := 0x04
def opClamp : Byte := 0x05
def opExtestPulse : Byte := 0x06
def opExtestTrain : Byte := 0x07
def opBankcfg : Byte := 0x10
def opBypass : Byte := 0xFF

def loadTap (op : Byte) (s : State) : State := modTap (fun t => { t with ir := op }) s

/-- IDCODE, least significant bit first. -/
def execIdcode (s : State) : Res :=
  .next (emit (.tdo ((List.range 32).map fun i => natBit 0x14896A3D i)) (loadTap opIdcode s))

/-- The boundary register takes the bits of the scan. -/
def execSamplePreload (v : List Bool) (s : State) : Res :=
  .next (modTap (fun t => { t with ir := opSample, boundary := v }) s)

/-- The instructions of R978: the pins are held while MAINT_N is low; while it is high each acts as BYPASS. -/
def holdPins (op : Byte) (s : State) : State :=
  if s.pins.maintLow then emit (.pinDrive op s.pins.tap.boundary) (loadTap op s) else loadTap opBypass s

def execExtest (s : State) : Res := .next (holdPins opExtest s)
def execHighz (s : State) : Res := .next (holdPins opHighz s)
def execClamp (s : State) : Res := .next (holdPins opClamp s)
def execExtestPulse (s : State) : Res := .next (holdPins opExtestPulse s)
def execExtestTrain (s : State) : Res := .next (holdPins opExtestTrain s)

/-- The standard of bank k, 1 to 8: LVCMOS where the value is reserved or the bank does not allow it (Table 20-4). -/
def bankStandard (k v : Nat) : Nat :=
  if v = 1 ∨ v = 2 then (if k ≤ 4 then v else 0) else if v = 3 then (if k ≤ 4 then 0 else 3) else 0

def bankcfgOf (v : Nat) : Nat :=
  ((List.range 8).map fun i => bankStandard (i + 1) (v / 16 ^ i % 16) * 16 ^ i).sum

def execBankcfg (v : BitVec 32) (s : State) : Res :=
  .next (modTap (fun t => { t with ir := opBankcfg, bankcfg := BitVec.ofNat 32 (bankcfgOf v.toNat) }) s)

/-- BYPASS, and any opcode that Table 20-10 does not have. -/
def execBypass (_opcode : Byte) (s : State) : Res := .next (loadTap opBypass s)

def execTapReset (s : State) : Res := .next (loadTap opIdcode s)

end Sys2Proof.Machine
end

