-- ==== Sys2Proof/Machine/ColdReset.lean ====
section
/-! DEFINITION. The start-up of the Reeve after a cold reset (14): key fuses, the Ledger's test, the directory and the choice
of a slot, the scan of the Store and of the spill area, repairs, and the village manifest. -/

namespace Sys2Proof.Machine

/-! The key fuses (R745, R746, Table 14-7). -/

/-- The committed generation before g. -/
def prevCommitted (s : State) (g : Nat) : Option (Fin 8) :=
  ((List.finRange 8).filter fun k => decide (k.val < g) && s.boot.gens[k].commit).getLast?

/-- The generation whose revocation is due: the one before the highest, when that is committed (Table 14-7). -/
def revokeDue (s : State) : Option (Fin 8) :=
  let g : Fin 8 := Fin.ofNat 8 (topGen s)
  if s.boot.gens[g].commit then (prevCommitted s g.val).filter fun k => !s.boot.gens[k].revoke else none

/-- REVOKE is blown, or waits for VFUSE. -/
def settleKeys (s : State) : State :=
  let g : Fin 8 := Fin.ofNat 8 (topGen s)
  match revokeDue s with
  | none => s
  | some k =>
    if s.pins.vfuse then
      let s := modBoot (fun b => { b with gens := upd b.gens k (fun x => { x with revoke := true }) }) s
      record evKeyRevokeCompleted 0 (BitVec.ofNat 48 k.val) (extendM 7 (genDigest g.val s.boot.gens[g].hash) s)
    else record evKeyRevokePending 0 (BitVec.ofNat 48 k.val) (modBoot (fun b => { b with revokePending := true }) s)

/-- The highest generation is committed and its check fails. -/
def fusesBad (s : State) : Bool :=
  let g : Fin 8 := Fin.ofNat 8 (topGen s)
  s.boot.gens[g].commit && !s.boot.gens[g].checkOk

/-- d of M4 (Table 14-5). -/
def fuseDigest (s : State) : Digest :=
  let g := rootGen s
  Config.sha384 (beBytes 1 g.val ++ beBytes 48 s.boot.gens[g].hash.toNat ++ beBytes 1 (rollbackRun s.boot.thermo))

/-! The Ledger's test (R826). -/

def testLedger (s : State) : State :=
  let lost := (List.range 64).filter fun p => !Config.pageGood s.boot.cold p
  let s := modLedger (fun x => { x with
    pages := [], pos := 0, lostPages := lost, written := Vector.replicate 32 0, degraded := decide (8 < lost.length) }) s
  if 8 < lost.length then latch (recOf evLedgerDegraded 0 s) s else s

/-! The choice of a slot (R709, R711, R712). -/

/-- The directory is read (R609, R611, R706). -/
def readDirectory (s : State) : State :=
  modBoot (fun b => { b with dir0 := readDir s.ssp.flash 0, dir1 := readDir s.ssp.flash 0x1000 })
    (modSsp (fun x => { x with flashReady := true }) s)

/-- The ACTIVE slot unless EMPTY or BAD, then the other when VERIFIED. -/
def plainOrder (d : Dir) : List Bool :=
  (if stOf d d.activeB == .empty || stOf d d.activeB == .bad then [] else [d.activeB]) ++
    (if stOf d (!d.activeB) == .verified then [!d.activeB] else [])

/-- The slots in the order tried, and whether the first is a trial. A trial that fails falls back to the ACTIVE slot. -/
def slotOrder (s : State) : List Bool × Bool :=
  match dirInForce s with
  | none => ([false, true], false)
  | some d => if d.trial then ((!d.activeB) :: (plainOrder d).filter (· == d.activeB), true) else (plainOrder d, false)

/-- Table 14-4. -/
def bootCheck (s : State) (x : SlotScan) : Option Byte :=
  match packageCheck s x with
  | some e => some e
  | none => if x.s1Ok then none else some stSection

/-- A slot passes: what the booted package gives, and M1 and M5. -/
def bootSlot (b trial fallback : Bool) (x : SlotScan) (s : State) : State :=
  let s := modBoot (fun y => { y with
    phase := .romPassed, bootedB := b, bootTrial := trial, fallback, bootRollback := x.rollback, fw := x.fwVersion,
    bootLength := x.length, s3 := x.s3 }) s
  let s := if fallback then record evBootFallback 0 (slotDat b 0) s else s
  let s := extendM 1 x.s1 (extendM 1 x.headerDigest s)
  extendM 5 (Config.sha384 (beBytes 1 (b2n b) ++ beBytes 4 (genOf (curDir s) b).toNat ++ beBytes 1 (b2n fallback) ++
    beBytes 1 (b2n trial))) s

/-- Slots are tried in order; the first that fails none of the checks boots; without one boot halts with NO_IMAGE. -/
def trySlots (scan : Bool → SlotScan) (trial first : Bool) : List Bool → State → State
  | [], s => haltBoot 0 s
  | b :: l, s =>
    match bootCheck s (scan b) with
    | none => bootSlot b (trial && first) (!first) (scan b) s
    | some e =>
      let s := record evBootSlotReject 0 (Config.slotReject b e)
        (modBoot (fun y => { y with rejected := y.rejected ++ [(b, e)] }) s)
      trySlots scan trial false l s

def chooseSlot (scan : Bool → SlotScan) (s : State) : State :=
  let r := slotOrder s
  let s := if r.2 then writeDir (fun d => { d with trial := false }) s else s
  trySlots scan r.2 true r.1 s

/-! Sectors of the Store and the spill area (R798, R802, R827, Table 16-2). -/

/-- A sector header: ERASE_COUNT and SECTOR_SEQ, none when there is no valid one. -/
def readHeader (m : Mem 8) (base i : Nat) : Option (Nat × BitVec 32) :=
  let b := flashBytes m (base + 4096 * i) 16
  if ofBe (bytesAt b 0 4) = 0x56535443 ∧ ofBe (bytesAt b 8 2) = (crc crcP3 (b.take 8)).toNat then
    some (ofBe (bytesAt b 4 4), BitVec.ofNat 32 (ofBe (bytesAt b 12 4)))
  else none

/-- A sector that a valid header or erased bytes make usable: nothing of it is listed. -/
def sectorErased (m : Mem 8) (base i : Nat) : Bool :=
  m.all fun e => e.1 < base + 4096 * i || base + 4096 * i + 4096 ≤ e.1

/-- Opened sectors by ascending SECTOR_SEQ. -/
def bySeq (l : List (Nat × BitVec 32)) : List (Nat × BitVec 32) :=
  l.foldl (fun a x => a.filter (fun y => y.2.toNat ≤ x.2.toNat) ++ x :: a.filter fun y => x.2.toNat < y.2.toNat) []

/-- What the headers of a region of 1,024 sectors tell. -/
structure Region where
  opened : List (Nat × BitVec 32)
  erases : Mem 32
  retired : List Nat
deriving DecidableEq, Repr

/-- A sector without a header counts as erased as often as any; one that is not erased either is not used. -/
def readRegion (m : Mem 8) (base : Nat) : Region :=
  let all := List.range 1024
  let hdr := readHeader m base
  let top := (all.map fun i => ((hdr i).map (·.1)).getD 0).foldl max 0
  let count := fun i => ((hdr i).map (·.1)).getD top
  { opened := bySeq (all.filterMap fun i => ((hdr i).filter fun x => x.2 != BitVec.allOnes 32).map fun x => (i, x.2)),
    erases := all.foldl (fun a i => memSet a i (BitVec.ofNat 32 (count i))) [],
    retired := all.filter fun i => 100000 ≤ count i || ((hdr i).isNone && !sectorErased m base i) }

/-! The Store (R678, R682 to R684, R697, R1004). -/

/-- The range of a persistent entry (Table 13-1 and the chapters' tables). -/
def persistOk (ix : BitVec 16) (sub n : Nat) : Bool :=
  match areaOf ix, sub with
  | some .bell, 1 => 250 ≤ n && n ≤ 10000
  | some .bell, 3 => n ≤ 1
  | some .granary, _ => 1 ≤ n && n ≤ 3600
  | some (.quad _), 1 => 100000 ≤ n && n ≤ 170000
  | some (.quad _), _ => n == 0 || (8 ≤ n && n ≤ 512)
  | some .ssp, _ => sspValOk sub n
  | some .fnet, 3 => 1024 ≤ n
  | some .fnet, 5 | some .fnet, 6 | some .fnet, 8 => 1 ≤ n
  | some .ledger, 7 => n ≤ 4
  | some .selftest, 2 => 1 ≤ n && n ≤ 1000
  | _, _ => true

/-- The value of a record, none where it names an entry that is not persistent or breaks the catalogue. -/
def storedVal (r : StoreRec) : Option Val :=
  match attrOf r.ix r.sub.toNat with
  | none => none
  | some a =>
    if !a.persistent || r.ty.toNat != tyCode a.ty then none
    else if a.ty = .blob then (if r.value.length ≤ 1024 then some (.bytes r.value) else none)
    else
      let n := ofBe r.value
      if r.value.length == tyWidth a.ty && (a.ty != .bool || n ≤ 1) && persistOk r.ix r.sub.toNat n then some (.num n)
      else none

def isValueRec (r : StoreRec) : Bool := r.crcOk && r.tag == 0x5352

/-- The usable record of the same entry with a higher SEQ. -/
def superseded (l : List StoreRec) (r : StoreRec) : Bool :=
  l.any fun x => isValueRec x && x.ix == r.ix && x.sub == r.sub && decide (r.seq.toNat < x.seq.toNat) && (storedVal x).isSome

/-- A record acts on its entry, or is skipped with a STORE_INVALID record. -/
def loadRec (l : List StoreRec) (r : StoreRec) (s : State) : State :=
  match storedVal r with
  | none => record evStoreInvalid 0 (BitVec.ofNat 48 (r.ix.toNat * 256 + r.sub.toNat)) s
  | some v => if superseded l r then s else setEntry r.ix r.sub.toNat v s

/-- Bytes of the open sector in use: its records, or all of it where they end in a position that is not erased. -/
def usedBytes (m : Mem 8) (at_ : Nat) (sizes : List Nat) : Nat :=
  let n := 16 + sizes.sum
  if n + 2 ≤ 4096 && ofBe (flashBytes m (at_ + n) 2) == 0xFFFF then n else 4096

/-- The scan of the Store at start-up. -/
def scanStore (s : State) : State :=
  if !Config.storeReadable s.boot.cold then modStore (fun x => { x with failed := true }) s else
  let m := s.ssp.flash
  let g := readRegion m storeBase
  let recs := (g.opened.map fun x => scanSector m x.1 512 16).flatten
  let good := recs.filter (·.crcOk)
  let last : Nat × BitVec 32 := (g.opened.getLast?).getD (0, 0)
  let used := usedBytes m (storeBase + 4096 * last.1) ((recs.filter fun r => r.sector == last.1).map recSize)
  let s := modStore (fun x => { x with
    recs, torn := satAdd x.torn (recs.length - good.length), sectors := g.opened, eraseCount := g.erases,
    retired := g.retired, openSector := last.1, sectorSeq := last.2, openUsed := if g.opened.isEmpty then 0 else used,
    nextSeq := BitVec.ofNat 32 (((good.map fun r => r.seq.toNat + 1).foldl max 1)) }) s
  eachOf (recs.filter isValueRec) (loadRec recs) s

/-- The bell starts on its own period, and aligns to the first BELL_IN edge when that is its source (R87, R88). -/
def bellFromStore (s : State) : State :=
  { s with bell := { s.bell with len := s.bell.period.toNat, pendSource := s.bell.source } }

/-! The spill area and the repairs (R208, R858, R875, R876). -/

/-- A run record at byte k of a spill sector: its bytes without the CRC. -/
def runAt (m : Mem 8) (i k : Nat) : Option (List Byte) :=
  let a := spillBase + 4096 * i + k
  let len := 20 + ofBe (flashBytes m (a + 2) 2) + 4 * ofBe (flashBytes m (a + 8) 2)
  if ofBe (flashBytes m a 2) ≠ 0x5452 ∨ 4096 < k + len + 4 then none else some (flashBytes m a len)

/-- The run records of a sector from byte k on, with whether each CRC verifies. -/
def scanRuns (m : Mem 8) (i : Nat) : Nat → Nat → List (List Byte × Bool)
  | 0, _ => []
  | fuel + 1, k =>
    match runAt m i k with
    | none => []
    | some b =>
      let ok := (crc crcP1 b).toNat == ofBe (flashBytes m (spillBase + 4096 * i + k + b.length) 4)
      (b, ok) :: scanRuns m i fuel (k + b.length + 4)

def runSeqOf (b : List Byte) : Nat := ofBe (bytesAt b 4 4)

/-- The valid record with the highest SEQ. -/
def newestRun (l : List (List Byte)) : Option (List Byte) :=
  l.foldl (fun a b => if a.any fun x => runSeqOf b ≤ runSeqOf x then a else some b) none

/-- The pending list of a run record. -/
def runRepairs (b : List Byte) : List (BitVec 32) :=
  let at_ := 20 + ofBe (bytesAt b 2 2)
  (List.range (ofBe (bytesAt b 8 2))).map fun i => BitVec.ofNat 32 (ofBe (bytesAt b (at_ + 4 * i) 4))

/-- One entry enters its bank's repair registers, unless it repeats one or no usable spare remains. -/
def loadRepair (e : BitVec 32) (s : State) : State :=
  let p : Fin 64 := Fin.ofNat 64 (reBank e)
  let l := s.banks[p].repairs
  if l.contains e then s
  else if spareLimit e ≤ sparesUsed l e then record evRepairExhausted 0 (datTop p.val 0) s
  else modBank p (fun b => { b with
    repairs := l ++ [e],
    spareRows := if rowKind e then b.spareRows - 1 else b.spareRows,
    spareCols := if rowKind e then b.spareCols else b.spareCols - 1 }) s

def repairCount (s : State) : Nat := (s.banks.toList.map (·.repairs.length)).sum

/-- The newest run record becomes authoritative, and its pending list is loaded after the fuses. -/
def loadRun (b : List Byte) (s : State) : State :=
  let results := (b.drop 20).take (ofBe (bytesAt b 2 2))
  let mask := BitVec.ofNat 64 (ofBe (bytesAt b 12 8))
  let pending := runRepairs b
  let before := repairCount s
  let s := eachOf pending loadRepair s
  let n := repairCount s - before
  let s := modTest (fun t => { t with
    runSeq := BitVec.ofNat 32 (runSeqOf b), pendingRepairs := pending, results, unfitMask := mask,
    coverage := BitVec.ofNat 32 (ofBe (bytesAt results 6 2)), softRepairs := BitVec.ofNat 16 n }) s
  let s := record evSoftRepairLoaded 0 (BitVec.ofNat 48 n) s
  eachFin 64 (fun p t => if mask.getLsbD p.val then modPlot p (fun x => { x with unfit := true }) t else t) s

/-- The spill area is read and the repair registers are loaded. -/
def scanSpill (s : State) : State :=
  let m := s.ssp.flash
  let g := readRegion m spillBase
  let runs := g.opened.map fun x => (x.1, scanRuns m x.1 256 16)
  let used := ((runs.getLast?).map fun x =>
    usedBytes m (spillBase + 4096 * x.1) (x.2.map fun r => r.1.length + 4)).getD 0
  let s := modSpill (fun x => { x with sectors := g.opened, used, eraseCount := g.erases, retired := g.retired }) s
  let s := eachOf s.test.fuses loadRepair s
  match newestRun (((runs.map (·.2)).flatten.filter (·.2)).map (·.1)) with
  | none => s
  | some b => loadRun b s

/-! The stored manifest (R911). -/

def recheckManifest (s : State) : State :=
  let m := s.village.manifest
  if m = [] then s else
  match manifestRefusal s m (Config.manifestSigOk m s.boot.gens[rootGen s].hash) with
  | none => modVillage (fun v => { v with inForce := m }) (extendM 6 (Config.sha384 m) s)
  | some e => record evManifestRejected 0 (datS 0 e 0) (modVillage (fun v => { v with manifest := [] }) s)

/-! The whole start-up. -/

/-- After S1 has passed: the Store, the repairs, the manifest, the field network and the islands. -/
def afterSlot (s : State) : State :=
  if bootHalted s then s else
  powerPlots (startDad (recheckManifest (bellFromStore (scanStore (scanSpill s)))))

def startUp (scan : Bool → SlotScan) (s : State) : State :=
  let s := testLedger (extendM 0 Config.romDigest s)
  if fusesBad s then haltBoot 2 s
  else
    let s := settleKeys s
    let s := extendM 4 (fuseDigest s) s
    if !Config.identityOk s.boot.cold then haltBoot 1 s
    else afterSlot (chooseSlot scan (readDirectory s))

/-- The Reeve cores leave reset with VREEVE and VAUX18 good; `slotA` and `slotB` are what core 0 finds in the slots. -/
def execDeviceColdReset (slotA slotB : SlotScan) (s : State) : Res :=
  .next (
    if s.boot.phase == .atReset && s.pins.vreeve && s.pins.vaux18 then
      startUp (fun b => if b then slotB else slotA) s
    else s)

end Sys2Proof.Machine
end

