-- ==== Sys2Proof/Machine/Requests.lean ====
section
/-! DEFINITION. READ, WRITE of every entry that has no row of its own, SUBSCRIBE and UNSUBSCRIBE (12, 13), RNG.BYTES (14), and
the Store's compaction and erasure (13, 16). -/

namespace Sys2Proof.Machine

/-! READ (R637, R674, R688). -/

/-- Value bytes that fit one response on a path: 48 bytes of headers and tag go with them. -/
def readRoom : Path → Nat
  | .fnet _ => 1404
  | .pf0 _ | .ssp1 => 2000

def isWhole (t : Ty) : Bool := t != .str && t != .blob

/-- The value bytes of a READ: all of types 0 to 6, else those from OFFSET on, MAXLEN and the path permitting. -/
def readBytes (rq : Req) (t : Ty) (b : List Byte) (off maxLen : Nat) : List Byte :=
  if isWhole t then b
  else (b.drop off).take (min (readRoom rq.path) (if maxLen = 0 then b.length else maxLen))

def execRead (rq : Req) (ix : BitVec 16) (sub : Byte) (off : BitVec 32) (maxLen : BitVec 16) (s : State) : Res :=
  .next (serve rq (fun se s =>
    let n := sub.toNat
    let ty := typeByte opRead ix n
    let lenOk := (attrOf ix n).all fun a => !isWhole a.ty || off == 0
    match checkEntry s se.role ix n .r true lenOk true, attrOf ix n with
    | some e, _ => respond rq opRead e ty (bellNow s) [] s
    | none, none => s
    | none, some a =>
      let b := entryBytes s se.role ix n
      respond rq opRead stOk ty (bellNow s)
        (beBytes 4 b.length ++ readBytes rq a.ty b off.toNat maxLen.toNat) s) s)

/-- A READ of RNG.BYTES: 48 fresh bytes, or NOT_READY with a TOTAL of 0 before seeding (R688, R732). -/
def execRngBytesRead (rq : Req) (s : State) : Res :=
  .next (serve rq (fun se s =>
    let ty := typeByte opRead 0x7030 2
    match checkEntry s se.role 0x7030 2 .r true true true with
    | some e => respond rq opRead e ty (bellNow s) [] s
    | none =>
      if !s.boot.seeded then respond rq opRead stNotReady ty (bellNow s) (beBytes 4 0) s
      else
        let b := entryBytes s se.role 0x7030 2
        respond rq opRead stOk ty (bellNow s) (beBytes 4 b.length ++ b) (drbgDraw s)) s)

/-! WRITE (R638, R666 to R673). -/

/-- Entries whose WRITE is a row of its own. -/
def ownRow (ix : BitVec 16) (sub : Nat) : Bool :=
  match areaOf ix with
  | some .bell => sub == 1 || sub == 3
  | some .slotMap => true
  | some .fnet => sub != 1
  | some (.hold _ g) =>
    (g == 0x10 && sub == 1) || (g == 0x20 && sub ≤ 5) || (g == 0x50 && sub == 1) || g == 0x80 || (g == 0xA0 && sub == 3)
  | some (.lane _) => sub == 1 || sub == 3 || sub == 8 || sub == 9 || sub == 10
  | some .village => sub == 2
  | _ => false

/-- LEN and OFFSET of a write, step 5 of Table 13-3: numbers whole, BLOBs of one stated length whole, XFER_TX in segments. -/
def writeLenOk (ix : BitVec 16) (sub off : Nat) (a : Attr) (v : Val) : Bool :=
  match v with
  | .num n => isWhole a.ty && a.ty != .action && off == 0 && n < 256 ^ tyWidth a.ty
  | .bytes b =>
    a.ty == .blob &&
      match areaOf ix, sub with
      | some .snap, 3 => off == 0 && b.length == 97
      | some .ssp, 0x17 => 1 ≤ b.length && b.length ≤ 1024 && off + b.length ≤ 8192
      | some .ssp, 0x1E => off == 0 && b.length == 512
      | some .slotMap, _ => off == 0 && b.length == 16
      | _, _ => off == 0 && b.length ≤ 1024

/-- Ranges of the volatile entries of queues and Holdings (R268, R269, R309, R373). -/
def queueValOk (sub n : Nat) : Bool :=
  match sub with
  | 0x01 => n ≤ 31
  | 0x02 => 6 ≤ n && n ≤ 16
  | 0x03 | 0x08 => codeAllowed (BitVec.ofNat 16 n)
  | 0x04 | 0x05 | 0x0E => n ≤ 1
  | _ => true

def holdValOk (x : Holding) (g sub n : Nat) : Bool :=
  match g, sub with
  | 0x40, _ => n ≤ 1
  | 0x50, 2 => rangeOk x n x.vmax.toNat
  | 0x50, 3 => rangeOk x x.vmin.toNat n
  | 0x60, 5 => n ≤ 1 && x.snap != .snapshotting && x.snap != .moved
  | 0xA0, 2 => n ≤ 255 || n == 0xFFFE || n == 0xFFFF
  | _, _ => true

/-- The value lies in the entry's range: step 6. -/
def writeValOk (s : State) (ix : BitVec 16) (sub : Nat) (a : Attr) (v : Val) : Bool :=
  let n := valNum v
  (a.ty != .bool || n ≤ 1) && (a.ty == .blob || persistOk ix sub n) &&
    match areaOf ix, sub with
    | some (.queue _), _ => queueValOk sub n
    | some (.hold h g), _ => holdValOk s.holdings[h] g sub n
    | some (.lane _), _ => laneValOk sub n
    | some (.cvu _), _ => cvuValOk sub n
    | some (.quad q), 1 => refOkFor s.quads[q] n
    | some (.quad q), _ => multOk s.quads[q].refKhz.toNat n
    | _, _ => true

/-- A snapshot or restore of h has begun (R351). -/
def snapUnderWay (s : State) (h : Fin 32) : Bool :=
  (s.snap.job.any fun j => j.h == h && j.begun) || s.snap.restore.any fun j => j.h == h && j.begun

/-- The conditions of the entry's chapter: step 8. -/
def writeCond (s : State) (ix : BitVec 16) (sub : Nat) (v : Val) : Option Byte :=
  let busy : Bool := match areaOf ix, sub with
    | some (.queue q), 1 | some (.queue q), 2 | some (.queue q), 3 | some (.queue q), 4 | some (.queue q), 8 =>
      s.queues[q].bound
    | some (.hold h 0x40), 2 => valBool v && snapUnderWay s h
    | some (.hold h 0xA0), 2 => s.load.any fun l => l.h == h
    | some (.lane l), 2 | some (.lane l), 4 => laneBoundEnd s l
    | some (.cvu u), _ => s.cvus[u].st == .running
    | some (.quad n), k => quadBusy s n k
    | some .ssp, k => sspBusy s k
    | _, _ => false
  if busy then some stBusy else none

def queueWrite (q : Fin 256) (sub n : Nat) (s : State) : State :=
  modQueue q (fun x =>
    match sub with
    | 0x01 => { x with owner := BitVec.ofNat 8 n }
    | 0x02 => { x with depthLog2 := BitVec.ofNat 8 n }
    | 0x03 => { x with producer := BitVec.ofNat 16 n }
    | 0x04 => { x with locked := n != 0 }
    | 0x05 => { x with mark := n != 0 }
    | 0x08 => { x with consumer := BitVec.ofNat 16 n }
    | 0x0D => { x with idleBells := BitVec.ofNat 16 n }
    | 0x0E => { x with idleFlush := n != 0 }
    | _ => x) s

def holdWrite (h : Fin 32) (g sub n : Nat) (s : State) : State :=
  modHolding h (fun x =>
    match g, sub with
    | 0x40, 1 => { x with memUeReport := n != 0 }
    | 0x40, 2 => { x with window := n != 0 }
    | 0x50, 2 => { x with vmin := BitVec.ofNat 16 n }
    | 0x50, 3 => { x with vmax := BitVec.ofNat 16 n }
    | 0x60, 5 => { x with snapMove := n != 0 }
    | 0xA0, 2 => { x with loadSource := BitVec.ofNat 16 n }
    | _, _ => x) s

/-- A volatile entry takes its value. -/
def volatileWrite (ix : BitVec 16) (sub off : Nat) (v : Val) (s : State) : State :=
  let n := valNum v
  match areaOf ix, sub with
  | some (.queue q), _ => queueWrite q sub n s
  | some (.hold h g), _ => holdWrite h g sub n s
  | some (.lane l), _ => laneWrite l sub n s
  | some (.cvu u), _ => cvuWrite u sub n s
  | some .snap, 1 => { s with snap := { s.snap with outQueue := BitVec.ofNat 16 n } }
  | some .snap, 2 => { s with snap := { s.snap with inQueue := BitVec.ofNat 16 n } }
  | some .snap, 3 => { s with snap := { s.snap with targetKey := valBytesOf v } }
  | some .ssp, _ => sspWrite sub off v s
  | _, _ => s

/-- A WRITE that has passed every check: persistent entries through the Store, the others at once. -/
def writeEntry (rq : Req) (role : Role) (ix : BitVec 16) (sub off : Nat) (a : Attr) (v : Val) (s : State) : State :=
  if a.persistent then persist rq ix sub role v s
  else respond rq opWrite stOk (typeByte opWrite ix sub) (bellNow s) [] (volatileWrite ix sub off v s)

/-- WRITE. A request that passes the checks for an entry with a row of its own is that row, not this one. -/
def execWrite (rq : Req) (ix : BitVec 16) (sub : Byte) (off : BitVec 32) (ty : Byte) (v : Val) (s : State) : Res :=
  .next (serve rq (fun se s =>
    let n := sub.toNat
    let a := attrOf ix n
    let tyOk := a.all fun a => ty.toNat == tyCode a.ty
    let lenOk := a.all fun a => writeLenOk ix n off.toNat a v
    let valOk := a.all fun a => writeValOk s ix n a v
    match checkEntry s se.role ix n .w tyOk lenOk valOk, a with
    | some e, _ => respond rq opWrite e (typeByte opWrite ix n) (bellNow s) [] s
    | none, none => s
    | none, some a =>
      if ownRow ix n then s else
      match writeCond s ix n v with
      | some e => respond rq opWrite e (typeByte opWrite ix n) (bellNow s) [] s
      | none => writeEntry rq se.role ix n off.toNat a v s) s)

/-! SUBSCRIBE and UNSUBSCRIBE (R647, R651). -/

/-- R647: PERIOD, PHASE and the entry's type. -/
def subOk (ix : BitVec 16) (sub : Nat) (period phase : Nat) : Bool :=
  ((attrOf ix sub).all fun a => isWhole a.ty) && period % 1024 == 0 && 1024 ≤ period && period ≤ 2 ^ 30 &&
    decide (phase < period)

/-- The first due bell after bell n; bell numbers pass from 2^48 − 1 to 0. -/
def firstDue (n period phase : Nat) : Nat :=
  let e := n + 1 + (phase + period - (n + 1) % period) % period
  if e < 2 ^ 48 then e else phase

def subCount (s : State) : Nat := (s.fnet.sessions.map (·.subs.length)).sum

/-- The ID itself when the session does not use it, else the next one that it does not use. -/
def freeSub (used : List (BitVec 8)) : Nat → BitVec 8 → BitVec 8
  | 0, v => v
  | n + 1, v => if used.contains v then freeSub used n (v + 1) else v

/-- The subscription of a session, and its response. -/
def addSub (rq : Req) (se : Session) (ix : BitVec 16) (sub : Byte) (period phase : BitVec 32) (s : State) : State :=
  let id := freeSub (se.subs.map (·.id)) 16 (Config.subId s.fresh)
  let x : Subn := { id, ix, sub, period, phase, unsent := none, skipped := 0 }
  let s := modSession se.id (fun y => { y with subs := y.subs ++ [x] }) (draw s)
  let first := firstDue s.bell.number.toNat period.toNat phase.toNat
  respond rq opSubscribe stOk (typeByte opSubscribe ix sub.toNat) (bellNow s) ([id] ++ beBytes 6 first) s

def execSubscribe (rq : Req) (ix : BitVec 16) (sub : Byte) (period phase : BitVec 32) (s : State) : Res :=
  .next (serve rq (fun se s =>
    let n := sub.toNat
    let answer := fun e => respond rq opSubscribe e (typeByte opSubscribe ix n) (bellNow s) [] s
    match checkEntry s se.role ix n .r true true (subOk ix n period.toNat phase.toNat) with
    | some e => answer e
    | none =>
      if 16 ≤ se.subs.length || 256 ≤ subCount s then answer stNoSlot
      else addSub rq se ix sub period phase s) s)

def execUnsubscribe (rq : Req) (subId : Byte) (s : State) : Res :=
  .next (serve rq (fun se s =>
    let ty := Config.respType opUnsubscribe
    if se.subs.any fun x => x.id == subId then
      respond rq opUnsubscribe stOk ty (bellNow s) []
        (modSession se.id (fun y => { y with subs := y.subs.filter fun x => x.id != subId }) s)
    else respond rq opUnsubscribe (Config.noSubStatus s.fresh) ty (bellNow s) [] (draw s)) s)

/-! The Store (R686, R800). -/

/-- A Store record is being programmed. -/
def isStoreOp : FlashOp → Bool
  | .program a _ _ => decide (storeBase ≤ a) && decide (a < spillBase)
  | .erase _ _ | .read _ => false

def storeProgramming (s : State) : Bool := s.ssp.op.any isStoreOp || s.ssp.ops.any isStoreOp

/-- Fewer than 8 sectors are free: the one with the lowest SECTOR_SEQ is compacted. -/
def execStoreCompact (sector : Fin 1024) (s : State) : Res :=
  .next (
    if freeSectors s < 8 && oldestSector s == some sector.val && s.ssp.flashReady && !s.store.failed then
      wakeStore (compactSector sector.val s)
    else s)

/-- Every sector is erased; the records of the replay list are written again. -/
def eraseStore (s : State) : State :=
  let keep := s.store.recs.filter fun r => r.tag == 0x5250 && recLive s r
  let old := s.store.sectors.map (·.1)
  let s := eachOf old (fun i t => recordRetired i (eraseSector i t)) (modStore (fun x => { x with recs := [] }) s)
  (copyRecords keep s).getD s

def execStoreEraseAll (rq : Req) (s : State) : Res :=
  .next (invokeReq rq 0x1100 6 true
    (fun _ s => if !s.ssp.flashReady then some stNotReady else if storeProgramming s then some stBusy else none)
    (fun _ s =>
      let s := eraseStore s
      (s, some (stOk, bellNow s))) s)

end Sys2Proof.Machine
end

