-- ==== Sys2Proof/Machine/Bell.lean ====
section
/-! DEFINITION. The bell (02): the work of an edge and of a slot boundary, the edge audits with their rebuilds and the
recovery that ends a DEVICE_FATAL fault (19), the timebase's own requests, and BELL_IN. -/

namespace Sys2Proof.Machine

def modBell (f : Bell → Bell) (s : State) : State := { s with bell := f s.bell }

/-! The edge audits (R70, R71, R81, R922; Tables 02-5, 05-5). -/

/-- Free pages, pages of bound and of leaving queues, and slots in transit. -/
def slotBooks (s : State) : Nat :=
  64 * (s.qstore.freePages + (s.queues.toList.map fun x => x.pages + x.unbindPages).sum) + s.qstore.transit

def tallyBooks (s : State) : Nat := s.host.talliesFree + (s.rings.toList.map fun r => r.tallies.length).sum

/-- Free, held and in flight, at both ports of one queue. -/
def creditBooks (x : Queue) : Bool :=
  !carries x || x.bindEdge.isSome || (x.prodFree + (stagedItems x).length + x.prodFlight == credits x.producer &&
    x.consFree + x.buf + x.consFlight == credits x.consumer)

/-- Slots owned by the system, Holdings, idle and background. -/
def mapBooks (m : Vector Byte 16) : Bool :=
  m.toList.zipIdx.all fun b => if b.2 = 15 then b.1 == 0xFE else decide (b.1.toNat < 32) || b.1 == 0xFF

def bellBooks (s : State) : Bool := s.slots.maps.toList.all mapBooks && s.slots.granary.toList.all mapBooks

/-- The quantities whose audit fails on what this edge captured, in the order of Table 02-5. -/
def auditFails (s : State) : List (Nat × FatalCause) :=
  (if s.qstore.auditOff || slotBooks s == 524288 then [] else [(0, .slotAudit)]) ++
  (if s.qstore.tallyOff || tallyBooks s == 8192 then [] else [(1, .tallyAudit)]) ++
  (if s.qstore.creditOff || s.queues.toList.all creditBooks then [] else [(2, .creditAudit)]) ++
  (if s.qstore.bellOff || bellBooks s then [] else [(3, .bellSlotAudit)])

/-- A quantity that failed is no longer audited until its rebuild. -/
def suspendAudit (on : Bool) (c : FatalCause) (s : State) : State :=
  match c with
  | .slotAudit => { s with qstore := { s.qstore with auditOff := on } }
  | .tallyAudit => { s with qstore := { s.qstore with tallyOff := on } }
  | .creditAudit => { s with qstore := { s.qstore with creditOff := on } }
  | .bellSlotAudit => { s with qstore := { s.qstore with bellOff := on } }
  | .timebaseLost | .commonsRoute | .hsTimeout | .linkLost | .fatalAer | .coreLost | .vgranLost => s

/-- All audits that fail at one edge form one DEVICE_FATAL fault. -/
def failAudits (l : List (Nat × FatalCause)) (s : State) : State :=
  if l = [] then s else
  let s := eachOf l (fun x t =>
    record evAuditFail 0 (BitVec.ofNat 48 x.1)
      (modBell (fun b => { b with auditFails := satAdd b.auditFails 1 }) (suspendAudit true x.2 t))) s
  deviceFatal (l.map (·.2)) s

/-! Rebuilds and recovery (R923 to R925, R938, R941, R942, R945; Table 19-2). -/

/-- Every bound queue is flushed, and the free list is made again from the depths of the bound queues. -/
def rebuildStore (s : State) : State :=
  let s := eachFin 256 (fun q t => if carries t.queues[q] then flushQueue q t else t) s
  let held := (s.queues.toList.map fun x => (if x.bound then pagesFor x.depthLog2.toNat else 0) + x.unbindPages).sum
  { s with
    queues := s.queues.map fun x => { x with pages := if x.bound then pagesFor x.depthLog2.toNat else 0 }
    qstore := { s.qstore with freePages := 8192 - held, transit := 0 } }

/-- Every tally is free but those whose write-back is still to be sent (R932). -/
def rebuildTallies (s : State) : State :=
  { s with host := { s.host with
    talliesFree := 8192 - (s.rings.toList.map fun r => r.tallies.length).sum } }

/-- A staged item that a rebuild loses. -/
def loseStaged : Staged → Staged
  | .item it => .lost 1 (itLast it)
  | .lost n e => .lost n e
  | .rewind => .rewind
  | .mark g r => .mark g r

/-- The buffers of one queue are emptied and its credits freed: its staged items are lost with what was committed of
their packets. -/
def rebuildCredits (q : Fin 256) (s : State) : State :=
  let x := s.queues[q]
  if !carries x then s else
  let n := (stagedItems x).length
  let s := leaveStaging q n (countDrop q n (modQueue q (fun x => { x with staging := x.staging.map loseStaged }) s))
  modQueue q (fun x => { x with
    buf := 0, prodFree := credits x.producer, consFree := credits x.consumer, prodFlight := 0, consFlight := 0 })
    (commitN q 0 s)

/-- The rebuild of one cause. -/
def rebuild (c : FatalCause) (s : State) : State :=
  match c with
  | .slotAudit | .commonsRoute => rebuildStore s
  | .tallyAudit => rebuildTallies s
  | .creditAudit => eachFin 256 rebuildCredits s
  | .bellSlotAudit => { s with slots := { s.slots with maps := Vector.replicate 18 mapReset } }
  | .timebaseLost | .hsTimeout | .linkLost | .fatalAer | .coreLost | .vgranLost => s

def rebuildAll (s : State) : State :=
  let l := (s.dev.causes.filter fun x => !x.rebuilt && x.c != .coreLost).map (·.c)
  let s := eachOf l (fun c t => suspendAudit false c (rebuild c t)) s
  { s with dev := { s.dev with causes := s.dev.causes.map fun x =>
      if x.c == .coreLost then x else { x with rebuilt := true } } }

/-- What recovery waits for besides the rebuild. -/
def causeMet (s : State) (c : FatalCause) : Bool :=
  match c with
  | .timebaseLost => !s.bell.stopped
  | .linkLost | .fatalAer => s.host.resetSince && s.host.rate.val != 0
  | .vgranLost => false
  | .slotAudit | .tallyAudit | .creditAudit | .bellSlotAudit | .commonsRoute | .hsTimeout | .coreLost => true

/-- Recovery takes place at all. -/
def recoverable (s : State) : Bool :=
  decide (s.dev.faults ≤ 4) && !s.dev.causes.any fun x => x.c == .vgranLost

def recovers (st : HState) : Bool := st == .ready || st == .quiesced || st == .dozing

/-- Edge c. -/
def recovery (s : State) : State :=
  let mine := fun (t : State) (h : Fin 32) => h.val == 0 || recovers t.holdings[h].st
  let s := eachFin 256 (fun q t => if carries t.queues[q] && mine t (queueOwner t q) then queueRecovered q t else t) s
  let s := eachFin 32 (fun h t =>
    if h.val ≠ 0 && recovers t.holdings[h].st then record evRecoveryDone h (datTop h.val 0) t else t) s
  raiseVec 0 2 { s with dev := { s.dev with fatal := false, causes := [] } }

def noneRuns (s : State) : Bool := s.holdings.toList.all fun x => x.st != .running

/-- At an edge while DEVICE_FATAL is set: recovery, unless the audit of a rebuilt quantity has failed again, or the
rebuilds that have not run. -/
def recoveryEdge (fails : List (Nat × FatalCause)) (s : State) : State :=
  let again := fun x : Cause => fails.any fun f => f.2 == x.c
  if !s.dev.fatal || !recoverable s then s
  else if s.dev.causes.all fun x => x.rebuilt && causeMet s x.c && !again x then recovery s
  else if noneRuns s && s.dev.causes.any fun x => !x.rebuilt && x.c != .coreLost then rebuildAll s
  else s

/-! The changes of a Holding that wait for an edge (R288, R293, R294, R321, R334, R350, R771, R774). -/

/-- One action at its edge. -/
def actAtEdge (h : Fin 32) (t : Trans) (s : State) : State :=
  match t.kind with
  | .start => if s.holdings[h].st == .ready then becomeRunning h s else s
  | .resume => if s.holdings[h].st == .quiesced then becomeRunning h s else s
  | .quiesce => becomeQuiesced h s
  | .freeze => beginFreeze h s
  | .forceStop => forceStopped h s
  | .snapshot => beginSnapshot h s
  | .restore => beginRestore h s
  | .load => beginLoad h s
  | .loadDone => loadReady h s
  | .doze => dozeNow h t.rq s
  | .wake => wakeNow h t.rq s
  | .reset => resetNow h t.rq s
  | .clear => clearNow h t.rq s

/-- The actions due at this edge, in order. -/
def actionsDue (h : Fin 32) : Nat → State → State
  | 0, s => s
  | n + 1, s =>
    match s.holdings[h].pend with
    | t :: l =>
      if t.edge ≤ s.bell.edges then
        actionsDue h n (actAtEdge h t (modHolding h (fun x => { x with pend := l }) s))
      else s
    | [] => s

/-- The first edge of a clearing: the slot maps lose the Holding's name, its queues are unbound. -/
def clearingEdge (h : Fin 32) (s : State) : State :=
  if s.holdings[h].clearUnbind.any (· ≤ s.bell.edges) then
    let s := { s with slots := { s.slots with maps := s.slots.maps.map (nameFree h) } }
    let s := eachOf (ownedQueues s h) (fun q t => unbindWhole q s.bell.edges t) s
    modHolding h (fun x => { x with clearUnbind := none }) s
  else s

/-- The slot map writes due at this edge, in serial order (R48, R78). -/
def mapsEdge (s : State) : State :=
  let due := s.slots.pend.filter (·.edge ≤ s.bell.edges)
  eachOf due (fun w t => { t with slots := { t.slots with maps := t.slots.maps.set w.m w.map } })
    { s with slots := { s.slots with pend := s.slots.pend.filter fun w => !(w.edge ≤ s.bell.edges) } }

/-- The derived maps of the bell that begins (R43). -/
def derivedEdge (s : State) : State :=
  { s with slots := { s.slots with granary := Vector.ofFn fun p => derivedMap s p s.bell.edgeAt } }

/-- A binding or unbinding takes effect; a declared queue is then bound for its Holding (R243, R763). -/
def bindEdge (q : Fin 256) (s : State) : State :=
  let x := s.queues[q]
  let s := bindingEdge s.bell.edges q s
  if x.bound && x.bindEdge.any (· ≤ s.bell.edges) then
    match x.decl with
    | some d => post evQueueBound (queueOwner s q) (datTop q.val (d * 2 ^ 32)) s
    | none => s
  else s

/-- A period change that is due, and what follows it (R38, R79, R136, R193, R434, R481). -/
def periodEdge (s : State) : State :=
  let due := s.bell.pendPeriod.filter (·.1 ≤ s.bell.edges)
  match due.getLast? with
  | none => s
  | some v =>
    let old := s.bell.period.toNat
    let s := modBell (fun b => { b with
      period := v.2, pendPeriod := b.pendPeriod.filter fun x => !(x.1 ≤ s.bell.edges) }) s
    let s := rescrub (scrubInterval s.scrubS.toNat old) (scrubInterval s.scrubS.toNat v.2.toNat) s.bell.edges s
    reportUnfit (limvaPeriod (eachFin 32 budgetEval s))

/-! The edge (R37 to R39, R66, R67, R87, R805). -/

/-- The number that the edge begins (R39, R83, R87). -/
def edgeNumber (s : State) : BellNo := if s.bell.firstEdge then s.bell.number else s.bell.number + 1

/-- The tick of the edge: the end of the bell, or the present for an edge after lock. -/
def edgeTick (s : State) : Nat :=
  if s.bell.firstEdge || s.bell.restart.isSome then s.bell.now else s.bell.edgeAt + s.bell.len

/-- The bell ends and the next one begins. -/
def turn (s : State) : State :=
  let b := s.bell
  let first := b.firstEdge || b.restart.isSome
  let wraps := !b.firstEdge && b.number == BitVec.allOnes 48
  let s := modBell (fun b => { b with
    number := edgeNumber s, edges := b.edges + 1, edgeAt := edgeTick s, now := edgeTick s, firstEdge := false,
    restart := none, slot := 0, slotBegun := false, binLast := if first then none else b.binLast,
    binFrom := if first then edgeTick s else b.binFrom }) s
  let s := if wraps then record evBellWrap 0 0 s else s
  invokeDone b.restart stOk (bellNow s) s

/-- HOLDING.CADENCE takes the data handshakes of the bell just ended. -/
def cadenceEdge (s : State) : State :=
  let s := eachFin 32 (fun h t =>
    modHolding h (fun x => { x with
      cadence := if x.st == .dozing then 0
        else BitVec.ofNat 32 ((ownedPlots t h).map fun p => t.plots[p].cadence).sum }) t) s
  { s with plots := s.plots.map fun x => { x with cadence := 0 } }

/-- What is captured at the edge (Tables 05-7, 08-9) and the hold-off counts (R422). -/
def captureEdge (s : State) : State :=
  { s with
    qstore := { s.qstore with seenPages := BitVec.ofNat 16 s.qstore.freePages }
    host := { s.host with talliesSeen := BitVec.ofNat 16 s.host.talliesFree }
    rings := s.rings.map fun r => { r with hoCount := r.hoCount - 1 } }

/-- Closure and idle counts of every queue, and its releases. -/
def queuesEdge (s : State) : State :=
  eachFin 256 (fun q t => closeEdge q (judgeQueue t.bell.edges q (idleEdge q t))) s

/-- The RUNNING Holdings after a DEVICE_FATAL fault (R921). -/
def fatalEdge (s : State) : State :=
  if s.dev.quiesceAt.any (· ≤ s.bell.edges) then
    eachFin 32 fatalQuiesce { s with dev := { s.dev with quiesceAt := none } }
  else s

/-- The changes of state of every Holding. -/
def holdingsEdge (s : State) : State :=
  eachFin 32 (fun h t => wakeEdge h (actionsDue h (t.holdings[h].pend.length + 1) (freezeEdgeWork h t))) (fatalEdge s)

/-- The length of the bell that begins. -/
def lengthEdge (s : State) : State :=
  let n := bellLength s s.bell.period.toNat
  let slews := s.village.slewing && s.village.slewLeft != 0
  let s := modBell (fun b => { b with len := n, adj := if slews then b.adj else 0 }) s
  if slews then modVillage (fun v => { v with slewLeft := v.slewLeft - 1 }) s else s

/-- BELL_OUT: a wide pulse at muster bells. -/
def pulse (s : State) : State :=
  if s.bell.outEnable then emit (.bellOut (s.bell.number.toNat % 1024 == 0)) s else s

/-- A bell edge. Queues are judged with the states of the bell just ended; then the Holdings change state; maps, bindings
and a period change apply from the bell that begins; last come recovery or rebuilds and the faults of audits that failed. -/
def edge (s : State) : State :=
  let fails := auditFails s
  let s := pulse (turn s)
  let s := queuesEdge (cadenceEdge (captureEdge s))
  let s := eachFin 32 (fun u t => cvuEdge u t) s
  let s := holdingsEdge s
  let s := mapsEdge (eachFin 32 (fun h t => clearingEdge h t) s)
  let s := eachFin 256 (fun q t => bindEdge q t) s
  let s := eachFin 32 (fun h t => clearComplete h t) s
  let s := villageEdge (limvaEdge (loadEdge (periodEdge s)))
  let s := lengthEdge (derivedEdge s)
  limitFlush (failAudits fails (recoveryEdge fails s))

/-- The timebase runs: it has locked and is not stopped. -/
def ticking (s : State) : Bool := s.bell.locked && !s.bell.stopped

def execBellEdge (s : State) : Res := .next (if ticking s then edge s else s)

/-! Slot boundaries (R40, R46, R178, R480, R482, R795). -/

/-- The scrub unit of every Queue Store port in slot 15; `ces` single wrong bits were corrected. -/
def storeScrub (ces : Nat) (s : State) : State :=
  { s with qstore := { s.qstore with
    ceCount := satAdd s.qstore.ceCount (min ces 64), scrub := s.qstore.scrub.map fun k => (k + 16) % 131072 } }

/-- Slot j begins: every bank starts the units decided at the fence, the Limva framers send. -/
def beginSlot (j : Fin 16) (qsCe : Nat) (s : State) : State :=
  let t := s.bell.edgeAt + slotStart s.bell.len j.val
  let s := modBell (fun b => { b with slot := j, slotBegun := true, now := max b.now t }) s
  let s := { s with banks := s.banks.map fun b => { b with
    slotUnits := b.unitsNext, unitsNext := 0, fence := b.unitsNext != 0 } }
  limvaBoundary (if j.val = 15 && gleanerRuns s then storeScrub qsCe s else s)

/-- The next slot of the bell, or slot 0 after the edge. -/
def slotFollows (s : State) (j : Fin 16) : Bool :=
  if j.val = 0 then s.bell.slot.val == 0 && !s.bell.slotBegun else j.val == s.bell.slot.val + 1

def execSlotBoundary (j : Fin 16) (qsCe : Nat) (s : State) : Res :=
  .next (if !noEdge s && slotFollows s j then beginSlot j qsCe s else s)

/-! The timebase's requests (R37, R38, R48, R69, R72 to R74, R77, R78, R83, R905). -/

def villageBusy (s : State) : Bool := s.village.st != .none

def execBellPeriodWrite (rq : Req) (v : BitVec 16) (s : State) : Res :=
  .next (writePersist rq 0x2000 1 true (250 ≤ v.toNat && v.toNat ≤ 10000)
    (fun s => if anyHolding s [.loading, .running, .quiesced, .dozing] || villageBusy s then some stBusy else none)
    (.num v.toNat) s)

def execBellSourceWrite (rq : Req) (v : Byte) (s : State) : Res :=
  .next (writePersist rq 0x2000 3 true (decide (v.toNat ≤ 1))
    (fun s => if villageBusy s then some stBusy else none) (.num v.toNat) s)

def mapOf (bytes : List Byte) : Vector Byte 16 := Vector.ofFn fun i => (bytes[i.val]?).getD 0

def execSlotMapWrite (rq : Req) (m : Fin 18) (bytes : List Byte) (s : State) : Res :=
  .next (writeReq rq 0x2010 (m.val + 1) (bytes.length == 16) (mapBooks (mapOf bytes)) (fun _ => none)
    (fun s =>
      let n := edgesAway 16 s
      let b := bellAt s n
      let w : MapWrite := ⟨m, s.bell.edges + n, mapOf bytes⟩
      (afterArbiter 16 { s with slots := { s.slots with pend := s.slots.pend ++ [w] } }, b)) s)

/-- The response is sent at the first edge after lock. -/
def execBellRestart (rq : Req) (refOk : Bool) (s : State) : Res :=
  .next (invokeReq rq 0x2000 7 true
    (fun _ s =>
      if s.bell.stopped && refOk && !anyHolding s [.loading, .running, .clearing] then none else some stBusy)
    (fun _ s => (modBell (fun b => { b with stopped := false, restart := some rq }) s, none)) s)

/-! Lock and loss (R82, R87). -/

def execTimebaseLock (s : State) : Res :=
  .next (if s.bell.locked || s.bell.stopped then s else modBell (fun b => { b with locked := true }) s)

def execTimebaseLost (s : State) : Res :=
  .next (
    if !ticking s then s else
    let s := modBell (fun b => { b with stopped := true, locked := false, firstEdge := false }) s
    deviceFatal [.timebaseLost] (record evTimebaseLost 0 (s.bell.number.setWidth 48) s))

/-! BELL_IN (R67 to R69, R84 to R86, R88). -/

/-- How far the sampled edge lies after the device's own nearest edge, in ticks. -/
def offNearest (s : State) : Int :=
  let d : Int := Int.ofNat s.bell.now - Int.ofNat s.bell.edgeAt
  if 2 * d ≤ Int.ofNat s.bell.len then d else d - Int.ofNat s.bell.len

/-- The lock of BELL_IN after one more bell (R68, R85). -/
def binLock (near : Bool) (s : State) : State :=
  if !near then modBell (fun b => { b with aligned := 0, binLocked := false }) s else
  let n := min 64 (s.bell.aligned + 1)
  let s := modBell (fun b => { b with aligned := n }) s
  if n < 64 || s.bell.binLocked then s else
  let was := s.bell.holdover
  let s := modBell (fun b => { b with binLocked := true, holdover := false }) s
  if was then record evBellInRelocked 0 0 s else s

/-- A sampled rising edge of BELL_IN: ignored when it comes too soon; the first one after a direct selection draws the
next edge to itself. -/
def bellIn (s : State) : State :=
  let t := s.bell.now
  if s.bell.binLast.any fun l => 2 * (t - l) < s.bell.period.toNat then limited evBellInGlitch 0 1 s else
  let s := modBell (fun b => { b with binLast := some t }) s
  if s.bell.pendSource then
    modBell (fun b => { b with pendSource := false, adj := 0, len := t - b.edgeAt, aligned := 0 }) s
  else
    let d := offNearest s
    let adj : Int := if d < 0 then -1 else if 0 < d then 1 else 0
    binLock (decide (-1 ≤ d) && decide (d ≤ 1)) (modBell (fun b => { b with adj }) s)

def execBellInEdge (s : State) : Res := .next (if s.bell.source && !noEdge s then bellIn s else s)

def execHoldover (s : State) : Res :=
  .next (
    let b := s.bell
    if b.source && !noEdge s && !b.holdover && decide (b.binLast.getD b.binFrom + b.period.toNat + 8 ≤ b.now) then
      record evBellInLost 0 0
        (modBell (fun b => { b with holdover := true, binLocked := false, aligned := 0, adj := 0 }) s)
    else s)

end Sys2Proof.Machine
end

