-- ==== Sys2Proof/Machine/Dispatch.lean ====
section
/-! DEFINITION. One arm for each row of the opcode table: a direct call of the row's meaning. -/

namespace Sys2Proof.Machine

def exec (i : Instr) (s : State) : Host.Outcome State Fault Refusal :=
  match i with
  | .bellEdge => Sys2Proof.Machine.execBellEdge s
  | .lateRun q => Sys2Proof.Machine.execLateRun q s
  | .closeHandshake q => Sys2Proof.Machine.execCloseHandshake q s
  | .slotBoundary j qsCe => Sys2Proof.Machine.execSlotBoundary j qsCe s
  | .bellPeriodWrite rq v => Sys2Proof.Machine.execBellPeriodWrite rq v s
  | .slotMapWrite rq m bytes => Sys2Proof.Machine.execSlotMapWrite rq m bytes s
  | .bellSourceWrite rq v => Sys2Proof.Machine.execBellSourceWrite rq v s
  | .bellRestart rq refOk => Sys2Proof.Machine.execBellRestart rq refOk s
  | .timebaseLock => Sys2Proof.Machine.execTimebaseLock s
  | .timebaseLost => Sys2Proof.Machine.execTimebaseLost s
  | .bellInEdge => Sys2Proof.Machine.execBellInEdge s
  | .holdover => Sys2Proof.Machine.execHoldover s
  | .calibrationPassStart p => Sys2Proof.Machine.execCalibrationPassStart p s
  | .calibrationPassEnd p chain0 chain1 => Sys2Proof.Machine.execCalibrationPassEnd p chain0 chain1 s
  | .delayTrimApply p line => Sys2Proof.Machine.execDelayTrimApply p line s
  | .fabricCalibrate rq => Sys2Proof.Machine.execFabricCalibrate rq s
  | .fabricUnfitClear rq => Sys2Proof.Machine.execFabricUnfitClear rq s
  | .mulU p n a b upset => Sys2Proof.Machine.execMulU p n a b upset s
  | .mulS p n a b upset => Sys2Proof.Machine.execMulS p n a b upset s
  | .macU p n a b upset => Sys2Proof.Machine.execMacU p n a b upset s
  | .macS p n a b upset => Sys2Proof.Machine.execMacS p n a b upset s
  | .msuS p n a b upset => Sys2Proof.Machine.execMsuS p n a b upset s
  | .accRead p n => Sys2Proof.Machine.execAccRead p n s
  | .accClear p n => Sys2Proof.Machine.execAccClear p n s
  | .accReadClear p n => Sys2Proof.Machine.execAccReadClear p n s
  | .add p n a b => Sys2Proof.Machine.execAdd p n a b s
  | .sub p n a b => Sys2Proof.Machine.execSub p n a b s
  | .cmp p n a b => Sys2Proof.Machine.execCmp p n a b s
  | .shl p n a b => Sys2Proof.Machine.execShl p n a b s
  | .shrL p n a b => Sys2Proof.Machine.execShrL p n a b s
  | .shrA p n a b => Sys2Proof.Machine.execShrA p n a b s
  | .gfmul p n a b => Sys2Proof.Machine.execGfmul p n a b s
  | .quernReservedOp p n => Sys2Proof.Machine.execQuernReservedOp p n s
  | .binRead p b port addr => Sys2Proof.Machine.execBinRead p b port addr s
  | .binWrite p b port addr d => Sys2Proof.Machine.execBinWrite p b port addr d s
  | .granaryPortRead p port addr => Sys2Proof.Machine.execGranaryPortRead p port addr s
  | .granaryPortWrite p port addr d => Sys2Proof.Machine.execGranaryPortWrite p port addr d s
  | .granaryFence p => Sys2Proof.Machine.execGranaryFence p s
  | .granarySystemUnit p => Sys2Proof.Machine.execGranarySystemUnit p s
  | .scrubLineDue p => Sys2Proof.Machine.execScrubLineDue p s
  | .binScrubRow p b => Sys2Proof.Machine.execBinScrubRow p b s
  | .windowRead vf off len => Sys2Proof.Machine.execWindowRead vf off len s
  | .windowWrite vf off bytes => Sys2Proof.Machine.execWindowWrite vf off bytes s
  | .plotClearDone p ok => Sys2Proof.Machine.execPlotClearDone p ok s
  | .granaryClearRetry rq => Sys2Proof.Machine.execGranaryClearRetry rq s
  | .stageItem q it => Sys2Proof.Machine.execStageItem q it s
  | .commitUnit q n => Sys2Proof.Machine.execCommitUnit q n s
  | .releaseUnit q n wrong => Sys2Proof.Machine.execReleaseUnit q n wrong s
  | .itemAccept q => Sys2Proof.Machine.execItemAccept q s
  | .queueBind rq q => Sys2Proof.Machine.execQueueBind rq q s
  | .queueUnbind rq q => Sys2Proof.Machine.execQueueUnbind rq q s
  | .queueFlush rq q => Sys2Proof.Machine.execQueueFlush rq q s
  | .idleTimeout q => Sys2Proof.Machine.execIdleTimeout q s
  | .commonsParity stop q toConsumer => Sys2Proof.Machine.execCommonsParity stop q toConsumer s
  | .commonsRoute stop q => Sys2Proof.Machine.execCommonsRoute stop q s
  | .holdingRectWrite rq h v => Sys2Proof.Machine.execHoldingRectWrite rq h v s
  | .holdingMaskWrite rq h k v => Sys2Proof.Machine.execHoldingMaskWrite rq h k v s
  | .tallyQuotaWrite rq h v => Sys2Proof.Machine.execTallyQuotaWrite rq h v s
  | .queueQuotaWrite rq h v => Sys2Proof.Machine.execQueueQuotaWrite rq h v s
  | .holdingStart rq h => Sys2Proof.Machine.execHoldingStart rq h s
  | .holdingQuiesce rq h => Sys2Proof.Machine.execHoldingQuiesce rq h s
  | .holdingResume rq h => Sys2Proof.Machine.execHoldingResume rq h s
  | .holdingDoze rq h => Sys2Proof.Machine.execHoldingDoze rq h s
  | .holdingWake rq h => Sys2Proof.Machine.execHoldingWake rq h s
  | .holdingReset rq h => Sys2Proof.Machine.execHoldingReset rq h s
  | .holdingClear rq h => Sys2Proof.Machine.execHoldingClear rq h s
  | .hedgeCheck e => Sys2Proof.Machine.execHedgeCheck e s
  | .regFault p overCur => Sys2Proof.Machine.execRegFault p overCur s
  | .holdingVoltageMvWrite rq h v => Sys2Proof.Machine.execHoldingVoltageMvWrite rq h v s
  | .rampEnd p => Sys2Proof.Machine.execRampEnd p s
  | .islandSettled p mv => Sys2Proof.Machine.execIslandSettled p mv s
  | .holdingFreeze rq h => Sys2Proof.Machine.execHoldingFreeze rq h s
  | .freezeCut h => Sys2Proof.Machine.execFreezeCut h s
  | .freezeTimeout h => Sys2Proof.Machine.execFreezeTimeout h s
  | .holdingForceStop rq h => Sys2Proof.Machine.execHoldingForceStop rq h s
  | .holdingSnapshot rq h keyOk => Sys2Proof.Machine.execHoldingSnapshot rq h keyOk s
  | .snapshotRecord => Sys2Proof.Machine.execSnapshotRecord s
  | .snapshotTruncated restore => Sys2Proof.Machine.execSnapshotTruncated restore s
  | .holdingRestore rq h => Sys2Proof.Machine.execHoldingRestore rq h s
  | .restoreRecord part => Sys2Proof.Machine.execRestoreRecord part s
  | .entropyWaitExpiry => Sys2Proof.Machine.execEntropyWaitExpiry s
  | .linkUp rate width => Sys2Proof.Machine.execLinkUp rate width s
  | .pcieLinkLost => Sys2Proof.Machine.execPcieLinkLost s
  | .tlpError e f => Sys2Proof.Machine.execTlpError e f s
  | .barRegisterWrite f off width v => Sys2Proof.Machine.execBarRegisterWrite f off width v s
  | .ringEnable f q ctrl => Sys2Proof.Machine.execRingEnable f q ctrl s
  | .ringDisable f q ctrl => Sys2Proof.Machine.execRingDisable f q ctrl s
  | .ringDrained q => Sys2Proof.Machine.execRingDrained q s
  | .ringTailWrite f q v => Sys2Proof.Machine.execRingTailWrite f q v s
  | .ringErrorClear f q => Sys2Proof.Machine.execRingErrorClear f q s
  | .descriptorReadCompletion q ok descs => Sys2Proof.Machine.execDescriptorReadCompletion q ok descs s
  | .hostDmaUnit q k fcOk => Sys2Proof.Machine.execHostDmaUnit q k fcOk s
  | .dataReadCompletion q st words => Sys2Proof.Machine.execDataReadCompletion q st words s
  | .completionTimeout q => Sys2Proof.Machine.execCompletionTimeout q s
  | .msixHoldoffExpiry q => Sys2Proof.Machine.execMsixHoldoffExpiry q s
  | .msixUnmask f v => Sys2Proof.Machine.execMsixUnmask f v s
  | .pf0Submit slot len => Sys2Proof.Machine.execPf0Submit slot len s
  | .pf0RespReadyClear mask => Sys2Proof.Machine.execPf0RespReadyClear mask s
  | .mbxLostRead vf => Sys2Proof.Machine.execMbxLostRead vf s
  | .noticeLostRead => Sys2Proof.Machine.execNoticeLostRead s
  | .ringAbandonedRead f q => Sys2Proof.Machine.execRingAbandonedRead f q s
  | .functionLevelReset f => Sys2Proof.Machine.execFunctionLevelReset f s
  | .hotReset => Sys2Proof.Machine.execHotReset s
  | .d3hotEntry f => Sys2Proof.Machine.execD3hotEntry f s
  | .busMasterEnableChange f on => Sys2Proof.Machine.execBusMasterEnableChange f on s
  | .laneEnableWrite rq l v => Sys2Proof.Machine.execLaneEnableWrite rq l v s
  | .laneUp l => Sys2Proof.Machine.execLaneUp l s
  | .trainingRestart l => Sys2Proof.Machine.execTrainingRestart l s
  | .laneDown l cut => Sys2Proof.Machine.execLaneDown l cut s
  | .rxGroup l b0 b1 b2 => Sys2Proof.Machine.execRxGroup l b0 b1 b2 s
  | .rawRxWord l w => Sys2Proof.Machine.execRawRxWord l w s
  | .txGroup l => Sys2Proof.Machine.execTxGroup l s
  | .quadPllUnlock n pll => Sys2Proof.Machine.execQuadPllUnlock n pll s
  | .pllLock n pll => Sys2Proof.Machine.execPllLock n pll s
  | .prbsGenWrite rq l v => Sys2Proof.Machine.execPrbsGenWrite rq l v s
  | .prbsChkWrite rq l v => Sys2Proof.Machine.execPrbsChkWrite rq l v s
  | .prbsLock l bits => Sys2Proof.Machine.execPrbsLock l bits s
  | .prbsLockLoss l bits => Sys2Proof.Machine.execPrbsLockLoss l bits s
  | .loopbackWrite rq l v => Sys2Proof.Machine.execLoopbackWrite rq l v s
  | .laneModeWrite rq l v => Sys2Proof.Machine.execLaneModeWrite rq l v s
  | .limvaDataFrame l f => Sys2Proof.Machine.execLimvaDataFrame l f s
  | .limvaBellFrame l f => Sys2Proof.Machine.execLimvaBellFrame l f s
  | .limvaInitFrame l f => Sys2Proof.Machine.execLimvaInitFrame l f s
  | .limvaResyncFrame l f => Sys2Proof.Machine.execLimvaResyncFrame l f s
  | .limvaDown l => Sys2Proof.Machine.execLimvaDown l s
  | .cvuStart rq u => Sys2Proof.Machine.execCvuStart rq u s
  | .cvuStop rq u => Sys2Proof.Machine.execCvuStop rq u s
  | .cvuItem u => Sys2Proof.Machine.execCvuItem u s
  | .cvuFault u => Sys2Proof.Machine.execCvuFault u s
  | .hsTransfer t => Sys2Proof.Machine.execHsTransfer t s
  | .gateHsTimeout crossing plot => Sys2Proof.Machine.execGateHsTimeout crossing plot s
  | .ssp1Xfer rq => Sys2Proof.Machine.execSsp1Xfer rq s
  | .sspTransferEnd inst rx => Sys2Proof.Machine.execSspTransferEnd inst rx s
  | .sspRdyTimeout inst bitsDone rx => Sys2Proof.Machine.execSspRdyTimeout inst bitsDone rx s
  | .chainSelect => Sys2Proof.Machine.execChainSelect s
  | .chainRelease di => Sys2Proof.Machine.execChainRelease di s
  | .ssp1CmdRead block addr n => Sys2Proof.Machine.execSsp1CmdRead block addr n s
  | .ssp1CmdWrite block addr bytes cut => Sys2Proof.Machine.execSsp1CmdWrite block addr bytes cut s
  | .ssp1Submit len => Sys2Proof.Machine.execSsp1Submit len s
  | .ssp1AckResponse => Sys2Proof.Machine.execSsp1AckResponse s
  | .ssp1AckNotice => Sys2Proof.Machine.execSsp1AckNotice s
  | .ssp1Frame => Sys2Proof.Machine.execSsp1Frame s
  | .flashWindowRead addr => Sys2Proof.Machine.execFlashWindowRead addr s
  | .flashWindowWrite addr bytes => Sys2Proof.Machine.execFlashWindowWrite addr bytes s
  | .flashErase addr big => Sys2Proof.Machine.execFlashErase addr big s
  | .flashStatusPoll status readBack => Sys2Proof.Machine.execFlashStatusPoll status readBack s
  | .flashTimeout => Sys2Proof.Machine.execFlashTimeout s
  | .beaconReceived own => Sys2Proof.Machine.execBeaconReceived own s
  | .fnetPlcaLost => Sys2Proof.Machine.execFnetPlcaLost s
  | .transmitOpportunity => Sys2Proof.Machine.execTransmitOpportunity s
  | .dadComplete => Sys2Proof.Machine.execDadComplete s
  | .fnetDadFail => Sys2Proof.Machine.execFnetDadFail s
  | .neighbourSolicitation src target => Sys2Proof.Machine.execNeighbourSolicitation src target s
  | .echoRequest src payload => Sys2Proof.Machine.execEchoRequest src payload s
  | .announceTimer => Sys2Proof.Machine.execAnnounceTimer s
  | .announce path body => Sys2Proof.Machine.execAnnounce path body s
  | .neighbourExpiry src => Sys2Proof.Machine.execNeighbourExpiry src s
  | .hello path body => Sys2Proof.Machine.execHello path body s
  | .auth rq cred sigOk proofOk => Sys2Proof.Machine.execAuth rq cred sigOk proofOk s
  | .read rq ix sub off maxLen => Sys2Proof.Machine.execRead rq ix sub off maxLen s
  | .write rq ix sub off ty v => Sys2Proof.Machine.execWrite rq ix sub off ty v s
  | .subscribe rq ix sub period phase => Sys2Proof.Machine.execSubscribe rq ix sub period phase s
  | .unsubscribe rq subId => Sys2Proof.Machine.execUnsubscribe rq subId s
  | .keepalive rq => Sys2Proof.Machine.execKeepalive rq s
  | .close rq reason => Sys2Proof.Machine.execClose rq reason s
  | .subscriptionDue sess subId => Sys2Proof.Machine.execSubscriptionDue sess subId s
  | .sessionExpiry sess => Sys2Proof.Machine.execSessionExpiry sess s
  | .fnetMacWrite rq v => Sys2Proof.Machine.execFnetMacWrite rq v s
  | .fnetUdpPortWrite rq v => Sys2Proof.Machine.execFnetUdpPortWrite rq v s
  | .plcaEntryWrite rq k v => Sys2Proof.Machine.execPlcaEntryWrite rq k v s
  | .credEpochWrite rq h v => Sys2Proof.Machine.execCredEpochWrite rq h v s
  | .storeCompact sector => Sys2Proof.Machine.execStoreCompact sector s
  | .storeEraseAll rq => Sys2Proof.Machine.execStoreEraseAll rq s
  | .deviceColdReset slotA slotB => Sys2Proof.Machine.execDeviceColdReset slotA slotB s
  | .barrierRelease => Sys2Proof.Machine.execBarrierRelease s
  | .coreRelease core ok s2 => Sys2Proof.Machine.execCoreRelease core ok s2 s
  | .bootHealthCheck notReady => Sys2Proof.Machine.execBootHealthCheck notReady s
  | .slotWriterPacket items => Sys2Proof.Machine.execSlotWriterPacket items s
  | .bootUpdate rq scan => Sys2Proof.Machine.execBootUpdate rq scan s
  | .keyRotate rq hash sigOk => Sys2Proof.Machine.execKeyRotate rq hash sigOk s
  | .entropyBlock samples => Sys2Proof.Machine.execEntropyBlock samples s
  | .drbgReseed samples => Sys2Proof.Machine.execDrbgReseed samples s
  | .rngHealthFail => Sys2Proof.Machine.execRngHealthFail s
  | .rngBytesRead rq => Sys2Proof.Machine.execRngBytesRead rq s
  | .attestRun rq nonce => Sys2Proof.Machine.execAttestRun rq nonce s
  | .reeveCoreLost core => Sys2Proof.Machine.execReeveCoreLost core s
  | .coreRestartDone core ok => Sys2Proof.Machine.execCoreRestartDone core ok s
  | .holdingLoad rq h => Sys2Proof.Machine.execHoldingLoad rq h s
  | .imageBytesTaken n => Sys2Proof.Machine.execImageBytesTaken n s
  | .signatureVerified ok => Sys2Proof.Machine.execSignatureVerified ok s
  | .holdingImageChunkWrite rq h bytes => Sys2Proof.Machine.execHoldingImageChunkWrite rq h bytes s
  | .loadStall => Sys2Proof.Machine.execLoadStall s
  | .configScrubWord p => Sys2Proof.Machine.execConfigScrubWord p s
  | .ledgerScrub => Sys2Proof.Machine.execLedgerScrub s
  | .ledgerRecordWrite ue => Sys2Proof.Machine.execLedgerRecordWrite ue s
  | .ledgerLastGaspClear rq => Sys2Proof.Machine.execLedgerLastGaspClear rq s
  | .regulatorTrim p mv => Sys2Proof.Machine.execRegulatorTrim p mv s
  | .sensorSample v => Sys2Proof.Machine.execSensorSample v s
  | .thermalTrip p => Sys2Proof.Machine.execThermalTrip p s
  | .selftestShutdown rq => Sys2Proof.Machine.execSelftestShutdown rq s
  | .selftestStart => Sys2Proof.Machine.execSelftestStart s
  | .testUnitEnd o => Sys2Proof.Machine.execTestUnitEnd o s
  | .runRecord ok0 ok1 => Sys2Proof.Machine.execRunRecord ok0 ok1 s
  | .selftestFuseRepair rq => Sys2Proof.Machine.execSelftestFuseRepair rq s
  | .villageManifestWrite rq bytes sigOk => Sys2Proof.Machine.execVillageManifestWrite rq bytes sigOk s
  | .musterStart => Sys2Proof.Machine.execMusterStart s
  | .musterStep di => Sys2Proof.Machine.execMusterStep di s
  | .musterComplete => Sys2Proof.Machine.execMusterComplete s
  | .slewEnd => Sys2Proof.Machine.execSlewEnd s
  | .musterSilence => Sys2Proof.Machine.execMusterSilence s
  | .villageLeave rq => Sys2Proof.Machine.execVillageLeave rq s
  | .supplyGood r => Sys2Proof.Machine.execSupplyGood r s
  | .supplyFail r => Sys2Proof.Machine.execSupplyFail r s
  | .corePowerGood => Sys2Proof.Machine.execCorePowerGood s
  | .porstNLow ns => Sys2Proof.Machine.execPorstNLow ns s
  | .maintNChange low us => Sys2Proof.Machine.execMaintNChange low us s
  | .idcode => Sys2Proof.Machine.execIdcode s
  | .samplePreload v => Sys2Proof.Machine.execSamplePreload v s
  | .extest => Sys2Proof.Machine.execExtest s
  | .highz => Sys2Proof.Machine.execHighz s
  | .clamp => Sys2Proof.Machine.execClamp s
  | .extestPulse => Sys2Proof.Machine.execExtestPulse s
  | .extestTrain => Sys2Proof.Machine.execExtestTrain s
  | .bankcfg v => Sys2Proof.Machine.execBankcfg v s
  | .bypass opcode => Sys2Proof.Machine.execBypass opcode s
  | .tapReset => Sys2Proof.Machine.execTapReset s
  | .controllerHandshake p c cell x => Sys2Proof.Machine.execControllerHandshake p c cell x s
  | .plcaBeacon => Sys2Proof.Machine.execPlcaBeacon s
  | .vfEnableWrite enable ari numVfs => Sys2Proof.Machine.execVfEnableWrite enable ari numVfs s

end Sys2Proof.Machine
end

