-- ==== Sys2Proof/Machine/Step.lean ====
section
/-! DEFINITION. One step of the block: the command at the front of the queue takes effect on everything but the queue. -/

namespace Sys2Proof.Machine

/-- The block idles for one tick of 0.8 ns: nothing but the time moves, and it does not pass an edge that lies ahead
(assumption 13). -/
def idle (s : State) : State :=
  { s with bell := { s.bell with
      now := if noEdge s then s.bell.now + 1 else max s.bell.now (min (s.bell.now + 1) (s.bell.edgeAt + s.bell.len)) } }

/-- The command at the front executes with the queue's rest; with nothing waiting the block idles. -/
def step (s : State) : Host.Outcome State Fault Refusal :=
  match s.pending with
  | [] => .next (idle s)
  | c :: rest => exec c { s with pending := rest }

/-- The table gives its rows no bits, so no word spells a command: the state is unchanged. -/
def State.withFetchWord (s : State) (_nbits _w : Nat) : State := s

end Sys2Proof.Machine
end

