-- ==== Sys2Proof/Safety.lean ====
section
/-! DEFINITION. What the claims mean by a good state, by a request that executes, and by the answers and items that a
command adds. -/

namespace Sys2Proof.Safety

open Sys2Proof.Machine

/-! Good states. -/

/-- Table 02-3 and R44: each of bytes 0 to 14 names the system, a Holding or idle; byte 15 is background work. -/
def legalMap (m : Vector Byte 16) : Bool := mapBooks m

/-- No slot map in force, derived or scheduled holds a value that Table 02-3 does not allow (R44, R45, R74, R294). -/
def slotsLegal (s : State) : Bool :=
  s.slots.maps.all legalMap && s.slots.granary.all legalMap && s.slots.pend.all fun w => legalMap w.map

/-! Requests. -/

/-- A SEALED request executes now: the service runs, the session is open, its tag verifies and its counter is the next
(R640, R641, R643). -/
def accepts (s : State) (rq : Req) (se : Session) : Bool :=
  serving s && findSession s rq.sess == some se && rq.sealOk && rq.ctr == se.next

/-- The state in which it executes: the session expects the next counter and answers on the request's path. -/
def executing (rq : Req) (se : Session) (s : State) : State :=
  modSession se.id (fun _ => { se with next := se.next + 1, path := rq.path }) s

/-- Steps 1 to 7 of Table 13-3 pass for an access of the session's role, with TYPE, length and value in order. -/
def permits (s : State) (rq : Req) (se : Session) (ix : BitVec 16) (sub : Nat) (a : Access) : Bool :=
  checkEntry (executing rq se s) se.role ix sub a true true true == none

/-- A request that executes and passes the checks. -/
def granted (s : State) (rq : Req) (se : Session) (ix : BitVec 16) (sub : Nat) (a : Access) : Bool :=
  accepts s rq se && permits s rq se ix sub a

/-- The TYPE byte of an Action. -/
def actionType : Byte := 9

/-- An INVOKE is answered with a status and the bell b. -/
def answered (rq : Req) (st : Byte) (b : BellNo) (s : State) : State := respond rq opInvoke st actionType b [] s

/-- A WRITE of an entry is answered with OK and the bell b. -/
def written (rq : Req) (ix : BitVec 16) (sub : Nat) (b : BellNo) (s : State) : State :=
  respond rq opWrite stOk (typeByte opWrite ix sub) b [] s

/-- A request is answered with an error. -/
def refusedWith (rq : Req) (op st : Byte) (ix : BitVec 16) (sub : Nat) (s : State) : State :=
  respond rq op st (typeByte op ix sub) s.bell.number [] s

/-- An action of a Holding waits for its edge, and its response names the bell (R288). -/
def edgeTaken (rq : Req) (h : Fin 32) (k : TransKind) (s : State) : State :=
  answered rq stOk (addTrans h k none s).2 (addTrans h k none s).1

/-! Querns. -/

/-- A Quern emits items. -/
def emits (p : Fin 64) (n : Fin 16) (l : List QuernOut) (s : State) : State :=
  modQuern p n (fun q => { q with out := q.out ++ l }) s

/-- The accumulator takes a value. -/
def accTakes (p : Fin 64) (n : Fin 16) (v : BitVec 104) (s : State) : State :=
  modQuern p n (fun q => { q with acc := v }) s

/-- A flag item of Table 03-8, from the flags that are set: bit numbers. -/
def flagItem (l : List (Nat × Bool)) : QuernOut :=
  .f (BitVec.ofNat 8 (l.map fun e => if e.2 then 2 ^ e.1 else 0).sum)

end Sys2Proof.Safety
end

