-- ==== Sys2Proof/Certificates/Slice0/Obligations.lean ====
section
/-! DEFINITION. The statements for the provers, chapter by chapter of the spec. A statement whose conclusion is an equation
with a next state says everything the command changes: whatever the right side does not name stays as it was. -/

open Sys2Proof Sys2Proof.Machine Sys2Proof.Safety

/-! The queue of commands. -/

/-- A step takes the command at the front of the queue and runs it on the state with the queue's rest. -/
def Obligations.StepRunsFrontCommand : Prop :=
  ∀ (s : State) (c : Instr) (rest : List Instr),
    step { s with pending := c :: rest } = exec c { s with pending := rest }

/-! The bell (02). -/

/-- R38, R39, R40, R83, R87: at a bell edge the number goes up by 1 (the first edge after the first lock begins the number held),
slot 0 begins, a period whose edge has come is in force, and the new bell has the length of the period unless a slew or
BELL_IN changes it. A timebase that is stopped or has not locked makes no edge. -/
def Obligations.EdgeBeginsTheNextBell : Prop :=
  ∀ s : State, (ticking s = false → exec .bellEdge s = .next s) ∧
    (ticking s = true → ∃ t, exec .bellEdge s = .next t ∧
      t.bell.number = (if s.bell.firstEdge then s.bell.number else s.bell.number + 1) ∧
      t.bell.edges = s.bell.edges + 1 ∧ t.bell.firstEdge = false ∧ t.bell.restart = none ∧ t.bell.slot = 0 ∧
      t.bell.edgeAt = (if s.bell.firstEdge = true ∨ s.bell.restart ≠ none then s.bell.now
        else s.bell.edgeAt + s.bell.len) ∧
      t.bell.now = t.bell.edgeAt ∧
      t.bell.period = (match (s.bell.pendPeriod.filter fun x => x.1 ≤ s.bell.edges + 1).getLast? with
        | some x => x.2
        | none => s.bell.period) ∧
      (t.village.slewing = false → t.bell.source = false → t.bell.len = t.bell.period.toNat))

/-- R40, R46, R178, R180: the next slot of the bell begins at ⌊j·N/16⌋ ticks; every bank starts the units decided at its fence. A
slot that does not follow the one in progress does not begin.
R44, R48, R74, R78: a legal slot map 16 ticks or more before the edge is scheduled for it, and the response names the bell
that the edge begins; a map with a value that Table 02-3 does not allow is refused whole; at its edge a map takes the later of
the writes that are due. -/
def Obligations.SlotsFollowTheirMaps : Prop :=
  (∀ (s : State) (j : Fin 16) (ce : Nat), noEdge s = false →
    (slotFollows s j = true → ∃ t, exec (.slotBoundary j ce) s = .next t ∧
      t.bell = { s.bell with
        slot := j, slotBegun := true, now := max s.bell.now (s.bell.edgeAt + j.val * s.bell.len / 16) } ∧
      t.slots = s.slots ∧
      ∀ p : Fin 64, t.banks[p] = { s.banks[p] with
        slotUnits := s.banks[p].unitsNext, unitsNext := 0, fence := s.banks[p].unitsNext != 0 }) ∧
    (j.val ≠ s.bell.slot.val + 1 → j ≠ 0 → exec (.slotBoundary j ce) s = .next s)) ∧
  ((∀ (s : State) (rq : Req) (se : Session) (m : Fin 18) (b : List Byte),
    granted s rq se 0x2010 (m.val + 1) .w = true → b.length = 16 →
    let e := executing rq se s
    (legalMap (mapOf b) = true → noEdge s = false → 16 ≤ toEdge s →
      exec (.slotMapWrite rq m b) s = .next (written rq 0x2010 (m.val + 1) (s.bell.number + 1)
        { e with slots := { s.slots with pend := s.slots.pend ++ [⟨m, s.bell.edges + 1, mapOf b⟩] } })) ∧
    (legalMap (mapOf b) = false →
      exec (.slotMapWrite rq m b) s = .next (refusedWith rq opWrite stRange 0x2010 (m.val + 1) e))) ∧
  ∀ (s : State) (m : Fin 18),
    (mapsEdge s).slots.maps[m] =
      (match (s.slots.pend.filter fun w => w.m = m ∧ w.edge ≤ s.bell.edges).getLast? with
        | some w => w.map
        | none => s.slots.maps[m]) ∧
    (mapsEdge s).slots.pend = s.slots.pend.filter fun w => s.bell.edges < w.edge)

/-- R82, R83, R87, R921: the timebase locks when it is neither locked nor stopped; its loss stops it, holds the bell number, is
one DEVICE_FATAL fault and quiesces the RUNNING Holdings at once; a restart that R83 allows clears STOPPED and answers at the
first edge after lock.
R67, R68, R69, R84, R86: a rising edge of BELL_IN less than N/2 ticks after the previous one is ignored; the first one after a
direct selection draws the next edge to it; any other moves the length of the next bell by one tick towards it, and 64 in a
row within one tick lock. Without an edge for N + 8 ticks the device enters holdover. -/
def Obligations.TimebaseIsHeldAndAligned : Prop :=
  (∀ s : State,
    (s.bell.locked = false → s.bell.stopped = false →
      exec .timebaseLock s = .next (modBell (fun b => { b with locked := true }) s)) ∧
    (ticking s = true → ∃ t, exec .timebaseLost s = .next t ∧
      t.bell = { s.bell with stopped := true, locked := false, firstEdge := false } ∧
      t.dev.fatal = true ∧ t.dev.faults = s.dev.faults + 1 ∧
      ∀ h : Fin 32, h ≠ 0 → s.holdings[h].st = .running → t.holdings[h].st = .quiesced) ∧
    ∀ (rq : Req) (se : Session), granted s rq se 0x2000 7 .x = true → s.bell.stopped = true →
      (∀ h : Fin 32, h ≠ 0 → s.holdings[h].st ≠ .loading ∧ s.holdings[h].st ≠ .running ∧ s.holdings[h].st ≠ .clearing) →
      exec (.bellRestart rq true) s =
        .next (modBell (fun b => { b with stopped := false, restart := some rq }) (executing rq se s))) ∧
  (∀ s : State, s.bell.source = true → noEdge s = false →
    let b := s.bell
    let d := offNearest s
    (∀ l, b.binLast = some l → 2 * (b.now - l) < b.period.toNat →
      exec .bellInEdge s = .next (limited evBellInGlitch 0 1 s)) ∧
    (b.binLast = none → b.pendSource = true →
      exec .bellInEdge s = .next { s with bell := { b with
        binLast := some b.now, pendSource := false, adj := 0, len := b.now - b.edgeAt, aligned := 0 } }) ∧
    (b.binLast = none → b.pendSource = false → (d < -1 ∨ 1 < d) →
      exec .bellInEdge s = .next { s with bell := { b with
        binLast := some b.now, adj := if d < 0 then -1 else 1, aligned := 0, binLocked := false } }) ∧
    (b.binLast = none → b.pendSource = false → -1 ≤ d → d ≤ 1 → b.aligned < 63 →
      exec .bellInEdge s = .next { s with bell := { b with
        binLast := some b.now, adj := d, aligned := b.aligned + 1 } }) ∧
    (b.binLast = none → b.pendSource = false → d = 0 → b.aligned = 63 → b.binLocked = false → b.holdover = false →
      exec .bellInEdge s = .next { s with bell := { b with
        binLast := some b.now, adj := 0, aligned := 64, binLocked := true } }) ∧
    (∀ l, b.binLast = some l → b.holdover = false → l + b.period.toNat + 8 ≤ b.now →
      exec .holdover s = .next (record evBellInLost 0 0
        (modBell (fun b => { b with holdover := true, binLocked := false, aligned := 0, adj := 0 }) s))))

/-! Fabric (03). -/

/-- R125, Table 03-7: MUL_U and MUL_S of a Plot whose controllers run emit the product of exact integers, low word first, then the
flag item with ZERO; nothing else changes.
R127, Tables 03-7 and 03-8: MAC_U, MAC_S and MSU_S move ACC by the product modulo 2^104 and emit one flag item, with N, ZERO,
and V for a wrap of the exact sum; nothing else changes.
R126, Table 03-7: ACC_READ and ACC_READ_CLEAR emit ACC in three items, the third sign-extended from ACC[103]; ACC_CLEAR and
ACC_READ_CLEAR leave ACC 0; each emits one flag item; nothing else changes. -/
def Obligations.ProductsAndAccumulatorAreExact : Prop :=
  (∀ (s : State) (p : Fin 64) (n : Fin 16) (a b : Word), fabricRuns s p = true →
    (let x := BitVec.ofNat 96 (a.toNat * b.toNat)
     exec (.mulU p n a b 0) s =
      .next (emits p n [.z (x.extractLsb' 0 48), .z (x.extractLsb' 48 48), flagItem [(2, x == 0)]] s)) ∧
    (let x := BitVec.ofInt 96 (a.toInt * b.toInt)
     exec (.mulS p n a b 0) s =
      .next (emits p n [.z (x.extractLsb' 0 48), .z (x.extractLsb' 48 48), flagItem [(2, x == 0)]] s))) ∧
  (∀ (s : State) (p : Fin 64) (n : Fin 16) (a b : Word), fabricRuns s p = true →
    let acc := s.plots[p].querns[n].acc
    let done := fun (v : BitVec 104) (wrap : Bool) =>
      emits p n [flagItem [(3, v.getLsbD 103), (2, v == 0), (1, wrap)]] (accTakes p n v s)
    let leaves := fun (r : Int) => decide (r < -(2 ^ 103) ∨ 2 ^ 103 ≤ r)
    exec (.macU p n a b 0) s =
      .next (done (BitVec.ofNat 104 (acc.toNat + a.toNat * b.toNat))
        (decide (2 ^ 104 ≤ acc.toNat + a.toNat * b.toNat))) ∧
    exec (.macS p n a b 0) s =
      .next (done (BitVec.ofInt 104 (acc.toInt + a.toInt * b.toInt)) (leaves (acc.toInt + a.toInt * b.toInt))) ∧
    exec (.msuS p n a b 0) s =
      .next (done (BitVec.ofInt 104 (acc.toInt - a.toInt * b.toInt)) (leaves (acc.toInt - a.toInt * b.toInt)))) ∧
  (∀ (s : State) (p : Fin 64) (n : Fin 16), fabricRuns s p = true →
    let acc := s.plots[p].querns[n].acc
    let three : List QuernOut :=
      [.z (acc.extractLsb' 0 48), .z (acc.extractLsb' 48 48),
       .z ((if acc.getLsbD 103 then (0xFFFFFFFFFF#40) else 0#40) ++ acc.extractLsb' 96 8)]
    exec (.accRead p n) s = .next (emits p n (three ++ [flagItem [(2, acc == 0)]]) s) ∧
    exec (.accReadClear p n) s = .next (emits p n (three ++ [flagItem [(2, acc == 0)]]) (accTakes p n 0 s)) ∧
    exec (.accClear p n) s = .next (emits p n [flagItem [(2, true)]] (accTakes p n 0 s)))

/-- R131, R158: whatever single bit of a product is wrong, the residue shows it: the five product operations emit nothing, leave
ACC, record QUERN_RESIDUE and fault the owner. -/
def Obligations.WrongProductBitIsSuppressed : Prop :=
  ∀ (s : State) (p : Fin 64) (n : Fin 16) (a b : Word) (k : Fin 96), fabricRuns s p = true →
    let t := faultHolding s.plots[p].owner .quernResidue
      (record evQuernResidue s.plots[p].owner (datTop p.val n.val) s)
    let u : BitVec 96 := 1#96 <<< k.val
    exec (.mulU p n a b u) s = .next t ∧ exec (.mulS p n a b u) s = .next t ∧ exec (.macU p n a b u) s = .next t ∧
      exec (.macS p n a b u) s = .next t ∧ exec (.msuS p n a b u) s = .next t

/-- R124, Tables 03-7 and 03-8: ADD, SUB and CMP emit their result and one flag item whose carry, borrow and signed overflow are
those of the exact integers; a reserved OP emits ILLEGAL alone; nothing else changes.
R128, Tables 03-7 and 03-8: SHL, SHR_L and SHR_A shift by B[5:0], B[47:6] ignored; an amount of 48 or more gives 0, or copies
of A[47]; C is the last bit shifted out; nothing else changes. -/
def Obligations.WordOperationsAreExact : Prop :=
  (∀ (s : State) (p : Fin 64) (n : Fin 16) (a b : Word), fabricRuns s p = true →
    let beyond := fun (r : Int) => decide (r < -(2 ^ 47) ∨ 2 ^ 47 ≤ r)
    let put := fun (z : Word) (v c : Bool) =>
      emits p n [.z z, flagItem [(3, z.getLsbD 47), (2, z == 0), (1, v), (0, c)]] s
    exec (.add p n a b) s =
      .next (put (BitVec.ofNat 48 (a.toNat + b.toNat)) (beyond (a.toInt + b.toInt)) (decide (2 ^ 48 ≤ a.toNat + b.toNat))) ∧
    exec (.sub p n a b) s =
      .next (put (BitVec.ofInt 48 (a.toInt - b.toInt)) (beyond (a.toInt - b.toInt)) (decide (a.toNat < b.toNat))) ∧
    exec (.cmp p n a b) s =
      .next (emits p n [flagItem [(6, a.toInt < b.toInt), (5, a.toNat < b.toNat), (4, a == b)]] s) ∧
    exec (.quernReservedOp p n) s = .next (emits p n [flagItem [(7, true)]] s)) ∧
  (∀ (s : State) (p : Fin 64) (n : Fin 16) (a b : Word), fabricRuns s p = true →
    let k := b.toNat % 64
    let put := fun (z : Word) (c : Bool) => emits p n [.z z, flagItem [(3, z.getLsbD 47), (2, z == 0), (0, c)]] s
    exec (.shl p n a b) s =
      .next (put (if k < 48 then BitVec.ofNat 48 (a.toNat * 2 ^ k) else 0)
        (k != 0 && decide (k ≤ 48) && a.toNat / 2 ^ (48 - k) % 2 == 1)) ∧
    exec (.shrL p n a b) s =
      .next (put (if k < 48 then BitVec.ofNat 48 (a.toNat / 2 ^ k) else 0)
        (k != 0 && decide (k ≤ 48) && a.toNat / 2 ^ (k - 1) % 2 == 1)) ∧
    exec (.shrA p n a b) s =
      .next (put (if k < 48 then BitVec.ofInt 48 (a.toInt / 2 ^ k) else if a.toInt < 0 then BitVec.allOnes 48 else 0)
        (k != 0 && (if k ≤ 48 then a.toNat / 2 ^ (k - 1) % 2 == 1 else decide (a.toInt < 0)))))

/-- R129, R130: GFMUL multiplies the four pairs of symbols modulo x^10 plus GFPOLY, places each product in its own bits and 0 in
Z[47:40], and ignores A[47:40] and B[47:40]; nothing else changes.
R130: a product of two symbols is the remainder of their product of polynomials: shifting one factor by x multiplies the
result by x and reduces, and the product distributes over addition of symbols, under any GFPOLY. -/
def Obligations.GfmulWorksOnFieldSymbols : Prop :=
  (∀ (s : State) (p : Fin 64) (n : Fin 16) (a b : Word), fabricRuns s p = true →
    let poly := s.plots[p].querns[n].gfpoly
    ∃ z : Word, exec (.gfmul p n a b) s = .next (emits p n [.z z, flagItem [(2, z == 0)]] s) ∧
      z.extractLsb' 40 8 = 0 ∧
      ∀ k < 4, z.extractLsb' (10 * k) 10 = gfMul poly (a.extractLsb' (10 * k) 10) (b.extractLsb' (10 * k) 10)) ∧
  (∀ poly a b c : BitVec 10,
    gfMul poly a 1 = a ∧ gfMul poly 1 a = a ∧ gfMul poly a 0 = 0 ∧ gfMul poly 0 a = 0 ∧
    gfMul poly (a ^^^ b) c = gfMul poly a c ^^^ gfMul poly b c ∧
    gfMul poly c (a ^^^ b) = gfMul poly c a ^^^ gfMul poly c b ∧
    gfMul poly ((a <<< 1) ^^^ (if a.getLsbD 9 then poly else 0)) b =
      (gfMul poly a b <<< 1) ^^^ (if (gfMul poly a b).getLsbD 9 then poly else 0))

/-- R96, R98, R107, R159: a controller of a Plot whose controllers do not run does nothing; one that runs gives a next state in
which only the Plot's crofts and the count of arbiter decisions may differ.
R94, R98: a BIT cell that is at rest and whose used inputs all arrive at the Plot's edge takes them, holds bit T[index] of its
truth table and presents it; each input taken counts 1 in the cadence; the inputs it does not use stay. -/
def Obligations.ControllersWorkInTheirPlot : Prop :=
  (∀ (s : State) (p : Fin 64) (c : Fin 512) (cell : Fin 48) (x : CtlIn),
    (fabricRuns s p = false → exec (.controllerHandshake p c cell x) s = .next s) ∧
    (fabricRuns s p = true → ∃ y k,
      exec (.controllerHandshake p c cell x) s =
        .next { s with plots := s.plots.set p y, fresh := s.fresh + k } ∧ k ≤ 1 ∧
      y = { s.plots[p] with
        hold := y.hold, phase := y.phase, chans := y.chans, mergeLoser := y.mergeLoser, cadence := y.cadence })) ∧
  (∀ (s : State) (p : Fin 64) (c : Fin 512) (cell : Fin 48) (x : CtlIn) (v : Nat → Bool),
    fabricRuns s p = true → gateStands s s.plots[p].owner = false → x.extAck = false →
    let y := s.plots[p]
    let used := (List.range 4).filter (dependsOn (truthTable y c.val cell.val))
    crWord y c.val = false → used ≠ [] →
    (∀ ch ∈ y.chans, ch.owner ≠ 64 * c.val + cell.val) →
    (∀ j ∈ used, inSrc y c.val cell.val j = false ∧ croftAt c.val j 1 = none ∧
      x.bits.find? (fun b => b.1 == 96 * c.val + 24 * j + cell.val % 24) =
        some (96 * c.val + 24 * j + cell.val % 24, v j)) →
    let z := natBit (truthTable y c.val cell.val)
      (ofBits ((List.range 4).map fun j => used.contains j && v j))
    ∃ h : Word, exec (.controllerHandshake p c cell x) s =
      .next (modPlot p (fun y => { y with
        cadence := y.cadence + used.length, hold := memSet y.hold c.val h,
        chans := y.chans ++ [⟨64 * c.val + cell.val, BitVec.ofNat 48 (b2n z), 1, [], false, true⟩] }) s) ∧
      h.getLsbD cell.val = z ∧ ∀ k < 48, k ≠ cell.val → h.getLsbD k = (memGet y.hold c.val).getLsbD k)

/-- R116, R118, R119, R154: a pass starts in a Plot that can be calibrated; it ends with CYCLE at the slower chain, the trim moved
by at most four steps of 0.5 %, CALIBRATED set and the pass counted; a delay line whose channel is at rest takes the trim.
R155: chains that differ by more than 6 % of the faster set UNFIT, whatever else the pass finds, and an UNFIT Plot of no
Holding faults nothing. -/
def Obligations.CalibrationPassesRun : Prop :=
  ((∀ (s : State) (p : Fin 64), canCalibrate s p = true →
    exec (.calibrationPassStart p) s =
      .next (modPlot p (fun x => { x with
        calRunning := true, calDue := false
        passWait := if x.passWait = .start then .running else x.passWait }) s)) ∧
  (∀ (s : State) (p : Fin 64) (a b : BitVec 16), s.plots[p].calRunning = true → s.plots[p].owner = 0 →
    ∃ t, exec (.calibrationPassEnd p a b) s = .next t ∧
      let x := s.plots[p]
      let y := t.plots[p]
      y.cyclePs = (if a.toNat ≤ b.toNat then b else a) ∧ y.calibrated = true ∧ y.calRunning = false ∧
      y.calCount = satAdd x.calCount 1 ∧ y.lastCalTemp = x.temp ∧
      y.calTrim.toNat ≤ x.calTrim.toNat + 4 ∧ x.calTrim.toNat ≤ y.calTrim.toNat + 4 ∧
      (y.limit = true → x.limit = true ∨ (y.unfit = true ∧ (y.calTrim = 0 ∨ y.calTrim = 255))) ∧
      (∀ q, q ≠ p → t.plots[q] = s.plots[q]) ∧
      t = { s with plots := t.plots, ledger := t.ledger, fresh := t.fresh }) ∧
  (∀ (s : State) (p : Fin 64) (line : Nat), lineAtRest s p line = true →
    exec (.delayTrimApply p line) s =
      .next (modPlot p (fun x => { x with lineTrim := memSet x.lineTrim line (256#9 + x.calTrim.setWidth 9) }) s))) ∧
  (∀ (s : State) (p : Fin 64) (a b : BitVec 16), s.plots[p].calRunning = true → s.plots[p].owner = 0 →
    6 * min a.toNat b.toNat < 100 * (max a.toNat b.toNat - min a.toNat b.toNat) →
    ∃ t, exec (.calibrationPassEnd p a b) s = .next t ∧ t.plots[p].unfit = true ∧ t.holdings = s.holdings)

/-! Memory (04). -/

/-- A write gives its key the value written and leaves every other key as it was; the canonical form makes memories that read
alike equal data. Programming the flash only clears bits, from its address on; erasing gives 0xFF there and nowhere else
(model's choice: flash bytes are kept inverted, log entry 2). -/
def Obligations.MemoriesReadBackAndAreCanonical : Prop :=
  (∀ (w : Nat) (m : Mem w) (k : Nat) (v : BitVec w), memWf m = true →
    ∀ j, memGet (memSet m k v) j = if j = k then v else memGet m j) ∧
  (∀ (w : Nat) (a b : Mem w), memWf a = true → memWf b = true → (∀ k, memGet a k = memGet b k) → a = b) ∧
  ∀ m : Mem 8, memWf m = true →
    (∀ (a : Nat) (l : List Byte) (k : Nat), flashGet (flashProgram m a l) k =
      if a ≤ k ∧ k < a + l.length then flashGet m k &&& (l[k - a]?).getD 0 else flashGet m k) ∧
    ∀ a n k : Nat, flashGet (flashWipe m a n) k = if a ≤ k ∧ k < a + n then 0xFF else flashGet m k

/-- R167 to R170, R184, Table 04-3: a word as written reads clean; any single wrong bit is corrected; any two wrong bits are found
and not miscorrected; a poisoned word reads as such; and check-and-correct leaves the word as written in the first two cases,
a poisoned word in the third. -/
def Obligations.CheckCodeCorrectsOneFindsTwo : Prop :=
  ∀ d : Word,
    secRead (secWord d) = ⟨d, false, false, false⟩ ∧
    secRead (poisonWord d) = ⟨d, false, true, true⟩ ∧ secCorrect (poisonWord d) = poisonWord d ∧
    (∀ i : Fin 56, secRead (secWord d ^^^ (1#56 <<< i.val)) = ⟨d, true, false, false⟩ ∧
      secCorrect (secWord d ^^^ (1#56 <<< i.val)) = secWord d) ∧
    ∀ i j : Fin 56, i ≠ j →
      let w := secWord d ^^^ (1#56 <<< i.val) ^^^ (1#56 <<< j.val)
      (secRead w).ue = true ∧ (secRead w).ce = false ∧ (secRead w).data = secData w ∧
        secCorrect w = poisonWord (secData w)

/-- R163, R168, R172: a granted Plot-port write stores the word with its check bits at A[17:0], and changes no other word and
nothing else.
R180, R181, R182, R187, R188: a granted Plot-port read delivers what the check code gives. A clean word changes nothing else;
a CE counts in the bank and in the owner, is recorded under the limit of 1,024 bells, and queues the line once or, in a full
queue of 16, counts in WB_DROPPED; memory stays as it is.
R185, R188: a Plot-port read that finds a UE delivers DATA as read; under FAULT the owner then faults with cause MEM_UE, under
REPORT MEM_UE is posted; a GRANARY_UE record is written at most once per bell; the UE counts and the line is queued. -/
def Obligations.GranaryPortsWriteAndRead : Prop :=
  (∀ (s : State) (p : Fin 64) (port : Bool) (addr d : Word),
    portOpen s p = true → memWf s.banks[p].mem = true →
    ∃ m, exec (.granaryPortWrite p port addr d) s = .next (modBank p (fun b => { b with mem := m }) s) ∧
      memWf m = true ∧
      ∀ a, bankWord { s.banks[p] with mem := m } a =
        if a = addr.toNat % 2 ^ 18 then secWord d else bankWord s.banks[p] a) ∧
  (∀ (s : State) (p : Fin 64) (port : Bool) (addr : Word), portOpen s p = true →
    let a := addr.toNat % 2 ^ 18
    let f := secRead (bankWord s.banks[p] a)
    let h := s.plots[p].owner
    (f.ce = false → f.ue = false →
      exec (.granaryPortRead p port addr) s = .next (emit (.portData p f.data) s)) ∧
    (f.ce = true → f.ue = false →
      let counted := modHolding h (fun x => { x with memCe := satAdd x.memCe 1 })
        (modBank p (fun b => { b with ceCount := satAdd b.ceCount 1 }) s)
      let t := emit (.portData p f.data) (limited evGranaryCe p.val 1 counted)
      exec (.granaryPortRead p port addr) s = .next (
        if (s.banks[p].wbq.any fun e => e.1 == a / 4) then t
        else if 16 ≤ s.banks[p].wbq.length then modBank p (fun b => { b with wbDropped := satAdd b.wbDropped 1 }) t
        else modBank p (fun b => { b with wbq := b.wbq ++ [(a / 4, s.bell.now)] }) t))) ∧
  (∀ (s : State) (p : Fin 64) (port : Bool) (addr : Word), portOpen s p = true →
    let a := addr.toNat % 2 ^ 18
    let f := secRead (bankWord s.banks[p] a)
    let h := s.plots[p].owner
    f.ue = true →
    let t := recordUe p a (queueLine p (a / 4) (emit (.portData p f.data) (countFound p f s)))
    exec (.granaryPortRead p port addr) s =
      .next (if s.holdings[h].memUeReport then mailbox evMemUe h (datTop p.val a) t else faultHolding h .memUe t))

/-- R194, R197, R198: after a write to a Bin port, a read of the same address delivers the written bits of the Bin's width, finds
no error, counts nothing and changes no memory; the write changes one row of one Bin.
R189, R191, R199, R200: a due scrub line is counted and the next falls due I bells later; a Bin scrub of a SECDED row with no
uncorrectable error leaves it corrected and moves to the next row, wrapping at 1,024. -/
def Obligations.BinsReadBackAndScrub : Prop :=
  (∀ (s : State) (p : Fin 64) (b : Fin 24) (port port' : Bool) (addr d : Word),
    fabricRuns s p = true → memWf s.plots[p].binMem = true →
    let x := s.plots[p]
    let width := if x.bins[b].shape = 0 then 48 else if x.bins[b].shape = 1 then 24 else 12
    let row := if x.bins[b].shape = 0 then addr.toNat % 1024
      else if x.bins[b].shape = 1 then addr.toNat / 2 % 1024 else addr.toNat / 4 % 1024
    ∃ m, exec (.binWrite p b port addr d) s = .next (modPlot p (fun y => { y with binMem := m }) s) ∧
      (∀ k, k ≠ 1024 * b.val + row → memGet m k = memGet x.binMem k) ∧
      exec (.binRead p b port' addr) (modPlot p (fun y => { y with binMem := m }) s) =
        .next (emit (.portData p (BitVec.ofNat 48 (d.toNat % 2 ^ width))) (modPlot p (fun y => { y with binMem := m }) s))) ∧
  ((∀ (s : State) (p : Fin 64),
    s.banks[p].cleared = true → s.pins.vgran = true → gleanerRuns s = true → underTest s p = false →
    s.banks[p].nextDue ≤ s.bell.edges →
    exec (.scrubLineDue p) s = .next (modBank p (fun b => { b with
      scrubDue := b.scrubDue + 1,
      nextDue := b.nextDue + max 1 (s.scrubS.toNat * 10000000000 / (65536 * s.bell.period.toNat * 8)) }) s)) ∧
  (∀ (s : State) (p : Fin 64) (b : Fin 24),
    let x := s.plots[p]
    let k := 1024 * b.val + x.bins[b].scrubRow
    let w := memGet x.binMem k
    let f := secRead w
    binScrubbed s p = true → x.bins[b].shape = 0 → x.bins[b].check = 0 → f.ue = false →
    exec (.binScrubRow p b) s = .next (modPlot p (fun y => { y with
        binMem := memSet y.binMem k (secCorrect w),
        bins := upd y.bins b fun z => { z with scrubRow := (z.scrubRow + 1) % 1024 } })
      (countHolding p f s))))

/-- R176 to R179, R183: at the fence point the bank decides how many units of 14 ticks it will start in the next slot, no more
than fit or than wait, and raises the fence when there is one.
R179, R183, R203, R207: a unit of the system port, by the slot in progress: in slot 15 the oldest queued line is checked and
corrected, or a due scrub line when none is queued; in a system slot the oldest line of a load is written; in a Holding's slot
the oldest window request, when no earlier one of its VF waits, is served. Each takes one unit of the slot. -/
def Obligations.SystemUnitsFitTheirSlot : Prop :=
  (∀ (s : State) (p : Fin 64), noEdge s = false → s.pins.vgran = true → s.bell.slot.val ≠ 15 →
    ∃ k, exec (.granaryFence p) s =
        .next (modBank p (fun b => { b with unitsNext := k, fence := b.fence || k != 0 }) s) ∧
      14 * k ≤ (s.bell.slot.val + 2) * s.bell.len / 16 - (s.bell.slot.val + 1) * s.bell.len / 16 ∧
      (s.bell.slot.val = 14 →
        k ≤ (s.banks[p].wbq.filter fun e =>
          e.2 + 16 ≤ s.bell.edgeAt + 15 * s.bell.len / 16).length + s.banks[p].scrubDue) ∧
      (s.bell.slot.val ≠ 14 →
        (s.slots.granary[p].toList[s.bell.slot.val + 1]?).getD 0 = 0 → s.banks[p].sys = [] → k = 0) ∧
      (s.bell.slot.val ≠ 14 →
        (s.slots.granary[p].toList[s.bell.slot.val + 1]?).getD 0 ≠ 0 → k ≤ s.banks[p].win.length)) ∧
  (∀ (s : State) (p : Fin 64), s.banks[p].slotUnits ≠ 0 → s.pins.vgran = true →
    let took := fun t : State => modBank p (fun b => { b with
      slotUnits := b.slotUnits - 1, fence := b.slotUnits != 1 || b.unitsNext != 0 }) t
    (∀ line tick l, s.bell.slot.val = 15 → s.banks[p].wbq = (line, tick) :: l →
      exec (.granarySystemUnit p) s =
        .next (took (modBank p (fun b => { b with wbq := l }) (correctLine false p line s)))) ∧
    (s.bell.slot.val = 15 → s.banks[p].wbq = [] → s.banks[p].scrubDue ≠ 0 →
      exec (.granarySystemUnit p) s = .next (took (scrubUnit p s)) ∧
      (scrubUnit p s).banks[p].scrubLine = s.banks[p].scrubLine + 1 ∧
      (scrubUnit p s).banks[p].scrubDue = s.banks[p].scrubDue - 1) ∧
    (∀ o l, s.bell.slot.val ≠ 15 → (s.slots.granary[p])[s.bell.slot] = 0 → s.banks[p].sys = o :: l →
      (∀ x, l.head? = some x → x.addr / 4 ≠ o.addr / 4) →
      exec (.granarySystemUnit p) s =
        .next (took (bankWrite p o.addr (secWord o.w) (modBank p (fun b => { b with sys := l }) s)))) ∧
    (∀ o l, s.bell.slot.val ≠ 15 → (s.slots.granary[p])[s.bell.slot] ≠ 0 → s.banks[p].win = o :: l →
      windowTurn s o = true → windowServes s s.plots[p].owner o.isWrite = true →
      let t := modBank p (fun b => { b with win := l }) s
      exec (.granarySystemUnit p) s =
        .next (took (if o.isWrite then windowWriteUnit p o t else windowReadUnit p o t))))

/-- R202, R205, R206: a host request that lies in one line of a window that serves it waits at the bank that the rectangle gives,
behind the earlier ones; one that reaches no bank or whose window does not serve it is answered with zero bytes, or discarded,
and noted under a limit.
R203, Table 04-3: the bytes that a window read of a clean word returns are DATA little-endian in bytes 0 to 5 and 0 in bytes 6
and 7, and a full write of them stores the word again. -/
def Obligations.WindowRequestsAreServed : Prop :=
  (∀ (s : State) (vf : Fin 33) (off : BitVec 27) (bytes : List Byte) (n : Nat),
    windowArrives vf s = true → 0 < n → off.toNat % 32 + n ≤ 32 → bytes.length = n →
    let h := vfHolding s vf
    let waits := fun (p : Fin 64) (o : WinOp) =>
      let t := modBank p (fun b => { b with win := b.win ++ [o] }) s
      { t with host := { t.host with winSeq := s.host.winSeq + 1 } }
    (∀ p, rectBank s.holdings[h].rect (off.toNat / 2 ^ 21) = some p →
      (windowServes s h false = true →
        exec (.windowRead vf off n) s =
          .next (waits p ⟨vf, s.host.winSeq, false, off.toNat % 2 ^ 21, n, []⟩)) ∧
      (windowServes s h true = true →
        exec (.windowWrite vf off bytes) s =
          .next (waits p ⟨vf, s.host.winSeq, true, off.toNat % 2 ^ 21, n, bytes⟩))) ∧
    (∀ w : Bool, (rectBank s.holdings[h].rect (off.toNat / 2 ^ 21) = none ∨ windowServes s h w = false) →
      let t := if h = 0 then s else limited evWindowMiss h.val 1 s
      (w = false → exec (.windowRead vf off n) s = .next (emit (.windowCpl vf (List.replicate n 0) false) t)) ∧
      (w = true → exec (.windowWrite vf off bytes) s = .next t))) ∧
  (∀ (s : State) (p : Fin 64) (vf : Fin 33) (a : Nat) (d : Word),
    bankWord s.banks[p] a = secWord d → memWf s.banks[p].mem = true →
    let l : List Byte := (List.range 8).map fun k => if k < 6 then BitVec.ofNat 8 (d.toNat / 256 ^ k) else 0
    windowReadUnit p ⟨vf, 0, false, 8 * a, 8, []⟩ s = emit (.windowCpl vf l false) s ∧
    ∀ (e : Word) (k : Nat), bankWord (bankWrite p a (secWord e) s).banks[p] k =
      bankWord (windowWriteUnit p
        ⟨vf, 0, true, 8 * a, 8, (List.range 8).map fun k => BitVec.ofNat 8 (e.toNat / 256 ^ k)⟩ s).banks[p] k)

/-! Queues (05) and their closure (02). -/

/-- R247, R261, Table 05-5: an offered item takes a free credit of a producer attachment that carries traffic and joins its
staging; the rest of a flushed packet is discarded and counted in FLUSH_COUNT up to its LAST.
R250, R277: a release unit moves committed items into the consumer buffer against free credits; a slot that reads
uncorrectable gives its item BAD and is counted and recorded, and the item keeps its place.
R237, R250, R251, R265: a consumer port that may accept takes the item behind the open gate: the item is delivered, its slot
and credit are free, and an idle episode ends. -/
def Obligations.ItemsPassThroughTheQueue : Prop :=
  (∀ (s : State) (q : Fin 256) (it : Item) (ep : Endpoint),
    carries s.queues[q] = true → endpoint s.queues[q].producer = some ep →
    (∀ p port, ep = .plotPort p port → fabricRuns s p = true) →
    (s.queues[q].discarding = false → s.queues[q].arrLosing = false → s.queues[q].prodFree ≠ 0 →
      exec (.stageItem q it) s = .next (modQueue q (fun x => { x with
        staging := x.staging ++ [.item it], prodFree := x.prodFree - 1 }) s)) ∧
    (s.queues[q].discarding = true →
      exec (.stageItem q it) s = .next (modQueue q (fun x => { x with
        flushCount := satAdd x.flushCount 1, discarding := !itLast it }) s))) ∧
  (∀ (s : State) (q : Fin 256),
    (∀ n, canRelease s q n = true →
      exec (.releaseUnit q n []) s =
        .next (modQueue q (fun x => { x with buf := x.buf + n, consFree := x.consFree - n }) s)) ∧
    (∀ w, 2 ≤ w → canRelease s q 1 = true →
      exec (.releaseUnit q 1 [w]) s = .next (record evQstoreUe (queueOwner s q) (datTop q.val 0)
        { modQueue q (fun x => { x with
            items := x.items.modify x.buf (fun c => { c with it := setBad c.it }),
            buf := x.buf + 1, consFree := x.consFree - 1 }) s with
          qstore := { s.qstore with ueCount := satAdd s.qstore.ueCount 1 } }))) ∧
  (∀ (s : State) (q : Fin 256) (it : Item), offered s.queues[q] = some it → delivers s q = true →
    portAccepts s q = true → s.queues[q].heldGap = 0 →
    exec (.itemAccept q) s = .next (emit (.deliver q it) (modQueue q (fun x => { x with
      items := x.items.drop 1, vis := x.vis - 1, buf := x.buf - 1, consFree := x.consFree + 1, runLen := x.runLen - 1,
      closeLen := x.closeLen.map (· - 1), closeNext := x.closeNext.map (· - 1), accepted := true, idle := false,
      reqUp := false }) s)))

/-- R49, R56, R226 to R228, R232, R249: a commit unit of one staged item, with room and 2 ticks or more before the edge: FIRST is
1 exactly on the first item of its packet, a LAST item makes the packet whole, and only a free queue releases it at once; its
credit is free again.
R229, R255, R256, R259: at its commit, a LAST item with BAD takes its whole packet away without a marker, and counts one
rewind; an item without room is lost with what was committed of its packet, each counted in DROP_COUNT and in one GAP marker
in the reserve, and so is the rest of the packet. -/
def Obligations.CommitUnitsKeepPacketsWhole : Prop :=
  (∀ (s : State) (q : Fin 256) (it : Item) (l : List Staged),
    let x := s.queues[q]
    canCommit s q 1 = true → x.staging = .item it :: l → l.all isStagedItem = true →
    x.losing = false → roomFor x = true → (itLast it && itBad it) = false →
    (∀ u : Fin 32, tapSees s.cvus[u] (tapCode 1 q.val) = false) →
    (∀ c, endpoint x.producer ≠ some (.laneRx c)) →
    (∀ p port, endpoint x.producer = some (.plotPort p port) → s.plots[p].freezeRegs[port] = none) →
    2 ≤ toEdge s →
    let cell : QCell := ⟨setFirst x.openPk.isEmpty (storedMarker it), s.bell.edges + 1, false, false⟩
    let whole := freeReserve x.items ++ x.openPk ++ [cell]
    exec (.commitUnit q 1) s = .next (modQueue q (fun x => { x with
      staging := l, prodFree := x.prodFree + 1,
      items := if itLast it then whole else freeReserve x.items,
      openPk := if itLast it then [] else x.openPk ++ [cell],
      vis := if itLast it && !x.locked then whole.length else x.vis }) s)) ∧
  (∀ (s : State) (q : Fin 256) (it : Item) (cb : Nat),
    let x := s.queues[q]
    x.losing = false → (∀ u : Fin 32, tapSees s.cvus[u] (tapCode 1 q.val) = false) →
    (itLast it = true → itBad it = true →
      (commitItem cb q it s).queues[q] = { x with openPk := [], rewindCount := satAdd x.rewindCount 1 }) ∧
    (itLast it = false → roomFor x = false → x.heldGap = 0 → x.items.any (·.res) = false →
      (∀ c, x.items.getLast? = some c → c.gap = false) → restoring s q = false → x.locked = true → ownerRuns s q = true →
      let n := x.openPk.length + 1
      (commitItem cb q it s).queues[q] = { x with
        openPk := [], losing := true, dropCount := satAdd x.dropCount n,
        items := x.items ++ [⟨marker 0x01 n, commitEdge s, true, true⟩] }))

/-- R52 to R54, R56, R58, R60: a close handshake 2 ticks or more before an edge covers what is committed, for that edge. There a
closed bell-locked queue of a running design releases the packets committed before the close that count for the edge, and
clears LATE_RUN; a late one under STALL releases nothing and adds 1 to LATE_COUNT and LATE_RUN.
R61, R264, R265: at 16 late edges LATE_RUN is posted and recorded once for the run; at IDLE_BELLS idle edges IDLE is set and
IDLE_TIMEOUT posted and recorded, and under FLUSH the queue is then flushed. -/
def Obligations.ClosureDecidesReleases : Prop :=
  (∀ (s : State) (q : Fin 256), carries s.queues[q] = true → s.queues[q].locked = true →
    isDesign s.queues[q].producer = true →
    (designRuns s q = true → noEdge s = false → 2 ≤ toEdge s →
      exec (.closeHandshake q) s = .next (modQueue q (fun x => { x with closeLen := some x.items.length }) s)) ∧
    (ownerRuns s q = true → gated s q = false →
      (∀ e n, s.queues[q].closeLen = some n → s.queues[q].lateRun.toNat < 16 →
        judgeQueue e q s = modQueue q (fun x => { x with
          vis := max x.vis ((x.items.take n).takeWhile fun c => c.cb ≤ e).length, lateRun := 0,
          runPosted := false }) s) ∧
      (∀ e, s.queues[q].closeLen = none → s.queues[q].mark = false →
        judgeQueue e q s = modQueue q (fun x => { x with
          lateCount := satAdd x.lateCount 1, lateRun := satAdd x.lateRun 1 }) s))) ∧
  (∀ (s : State) (q : Fin 256),
    let x := s.queues[q]
    let h := queueOwner s q
    (16 ≤ x.lateRun.toNat → x.runPosted = false →
      exec (.lateRun q) s = .next (post evLateRun h (datTop q.val x.lateRun.toNat)
        (modQueue q (fun x => { x with runPosted := true }) s))) ∧
    (x.lateRun.toNat < 16 → exec (.lateRun q) s = .next s) ∧
    (carries x = true → x.idleBells ≠ 0 → x.idle = false → x.idleBells.toNat ≤ x.idleCnt →
      let t := post evIdleTimeout h (datTop q.val (min x.idleCnt 0xFFFF)) (modQueue q (fun x => { x with idle := true }) s)
      exec (.idleTimeout q) s = .next (if x.idleFlush then flushQueue q t else t)))

/-- R235, R243, R245, R267: a bind that every condition of R241 allows counts at once: its pages are reserved, its counters are 0
and it takes effect at the edge of the bell that the response names; an unbind of a bound queue counts at once and gives its
pages back at its edge. Other queues stay as they are.
R260, R262: a flush of a bound queue, no tally of its ring being issued and no loss waiting in it, discards every item, leaves
one FLUSH marker that counts them, adds them to FLUSH_COUNT and frees their credits. -/
def Obligations.BindUnbindAndFlush : Prop :=
  (∀ (s : State) (rq : Req) (se : Session) (q : Fin 256), noEdge s = false → 16 ≤ toEdge s →
    let x := s.queues[q]
    (granted s rq se (qix q) 9 .x = true →
      bindRefusal s q (holdOf x.owner) x.depthLog2.toNat x.producer x.consumer = none → x.unbindEdge = none →
      ∃ t, exec (.queueBind rq q) s = .next (answered rq stOk (s.bell.number + 1) t) ∧
        t.queues[q] = { x with
          bound := true, bindEdge := some (s.bell.edges + 1), decl := none, pages := 2 ^ x.depthLog2.toNat / 64,
          dropCount := 0, rewindCount := 0, flushCount := 0, lateCount := 0, lateRun := 0, runPosted := false,
          idleCnt := 0, idle := false } ∧
        t.qstore.freePages = s.qstore.freePages - 2 ^ x.depthLog2.toNat / 64 ∧
        ∀ r, r ≠ q → t.queues[r] = s.queues[r]) ∧
    (granted s rq se (qix q) 10 .x = true → x.bound = true → x.bindEdge = none → s.rings[q].tallies = [] →
      (queueOwner s q = 0 ∨ unbindable s.holdings[queueOwner s q].st = true) →
      ∃ t, exec (.queueUnbind rq q) s = .next (answered rq stOk (s.bell.number + 1) t) ∧
        t.queues[q] = { x with
          bound := false, unbindEdge := some (s.bell.edges + 1), unbindPages := x.unbindPages + x.pages, pages := 0 } ∧
        t.qstore = s.qstore ∧ ∀ r, r ≠ q → t.queues[r] = s.queues[r])) ∧
  (∀ (s : State) (rq : Req) (se : Session) (q : Fin 256), granted s rq se (qix q) 11 .x = true →
    let x := s.queues[q]
    x.bound = true → (queueOwner s q = 0 ∨ jobHolds s (queueOwner s q) = false) → s.rings[q].tallies = [] →
    lossesHeld x = 0 → (∀ u : Fin 32, tapSees s.cvus[u] (tapCode 1 q.val) = false) →
    2 ≤ x.depthLog2.toNat → ownerRuns s q = true → x.locked = false →
    ∃ t, exec (.queueFlush rq q) s = .next (answered rq stOk s.bell.number t) ∧
      let n := x.items.length + x.openPk.length + (x.staging.filter isStagedItem).length
      let y := t.queues[q]
      y.items.map (·.it) = [marker 0x04 n] ∧ y.vis = 1 ∧ y.openPk = [] ∧ y.staging = [] ∧ y.buf = 0 ∧
      y.flushCount = satAdd x.flushCount n ∧ y.dropCount = x.dropCount ∧ y.rewindCount = x.rewindCount ∧
      y.prodFree = x.prodFree + (x.staging.filter isStagedItem).length ∧ y.consFree = x.consFree + x.buf ∧
      ∀ r, r ≠ q → t.queues[r] = s.queues[r])

/-- R278, R279: a data parity error on the ring gives the item BAD and is recorded, and nothing else changes; a route parity error
discards the item, is recorded, and is one DEVICE_FATAL fault.
R919 to R921, R938, Table 19-2: a DEVICE_FATAL fault sets FATAL, counts, adds its cause, and fixes the next edge for the
quiescing of the RUNNING Holdings; FATAL_CODE and FATAL_BELL keep the first fault. -/
def Obligations.RingErrorsAndFatalFaults : Prop :=
  (∀ (s : State) (stop : Byte) (q : Fin 256),
    (exec (.commonsParity stop q true) s = .next (record evCommonsParity 0 (BitVec.ofNat 48 stop.toNat)
      (modQueue q (fun x => { x with items := x.items.zipIdx.map fun c =>
        if c.2 + 1 = x.buf then { c.1 with it := setBad c.1.it } else c.1 }) s))) ∧
    (∀ it l, s.queues[q].staging = l ++ [.item it] →
      exec (.commonsParity stop q false) s = .next (record evCommonsParity 0 (BitVec.ofNat 48 stop.toNat)
        (modQueue q (fun x => { x with staging := l ++ [.item (setBad it)] }) s)) ∧
      exec (.commonsRoute stop q) s = .next (deviceFatal [.commonsRoute]
        (record evCommonsRoute 0 (BitVec.ofNat 48 stop.toNat)
          (modQueue q (fun x => { x with staging := l, prodFree := x.prodFree + 1 }) s))))) ∧
  (∀ (s : State) (c : FatalCause), c ≠ .timebaseLost →
    let d := (deviceFatal [c] s).dev
    d.fatal = true ∧ d.faults = s.dev.faults + 1 ∧ d.quiesceAt = some (s.bell.edges + 1) ∧
      (∃ r, d.causes = s.dev.causes ++ [⟨c, r⟩]) ∧
      (s.dev.faults = 0 → d.code = BitVec.ofNat 16 (causeCode c) ∧ d.bell = s.bell.number) ∧
      (s.dev.faults ≠ 0 → d.code = s.dev.code ∧ d.bell = s.dev.bell))

/-! Holdings (06). -/

/-- R77, R288, R321: an action that waits for an edge takes the coming one when at least 16 ticks remain and no earlier action
waits, else no earlier one's; it stands last in the Holding's queue of actions, and its bell is the one that edge begins.
R290, R292, R337, R346: what START, RESUME, QUIESCE and FORCE_STOP do at their edge: the Holding changes to the state that
Table 06-3 gives, STATE_BELL takes the bell that the edge begins; a forced stop also sets FREEZE_STATE to FORCED. -/
def Obligations.HoldingActionsTakeEffect : Prop :=
  (∀ (s : State) (h : Fin 32) (k : TransKind),
    let r := addTrans h k none s
    let l := s.holdings[h].pend
    ∃ e, r.1.holdings[h].pend = l ++ [⟨k, e, r.2, none⟩] ∧ s.bell.edges < e ∧ (∀ t ∈ l, t.edge ≤ e) ∧
      r = ({ modHolding h (fun x => { x with pend := l ++ [⟨k, e, r.2, none⟩] }) s with fresh := r.1.fresh },
        if s.bell.firstEdge then s.bell.number + BitVec.ofNat 48 (e - s.bell.edges - 1)
        else s.bell.number + BitVec.ofNat 48 (e - s.bell.edges)) ∧
      (l = [] → noEdge s = false → 16 ≤ toEdge s → e = s.bell.edges + 1 ∧ r.1.fresh = s.fresh) ∧
      (l = [] → e ≤ s.bell.edges + 2)) ∧
  (∀ (s : State) (h : Fin 32) (t : Trans), h ≠ 0 →
    (t.kind = .start → s.holdings[h].st = .ready →
      (actAtEdge h t s).holdings[h].st = .running ∧ (actAtEdge h t s).holdings[h].stateBell = s.bell.number) ∧
    (t.kind = .resume → s.holdings[h].st = .quiesced →
      (actAtEdge h t s).holdings[h].st = .running ∧ (actAtEdge h t s).holdings[h].freeze ≠ .cut) ∧
    (t.kind = .quiesce → s.holdings[h].st = .running →
      (actAtEdge h t s).holdings[h].st = .quiesced ∧ (actAtEdge h t s).holdings[h].stateBell = s.bell.number) ∧
    (t.kind = .forceStop →
      (actAtEdge h t s).holdings[h].freeze = .forced ∧ (actAtEdge h t s).holdings[h].st ≠ .running))

/-- R288, R289, R334, R346, R89, R901: START, QUIESCE, RESUME and FORCE_STOP that the rules accept wait for their edge, and their
responses name its bell; FREEZE waits for its edge and answers later.
R313, R314, R291, R326, R321: with no action waiting, DOZE without a cut begins an attempt of its own, WAKE ramps to
VOLTAGE_MV, RESET leaves the Holding READY, CLEAR leaves it CLEARING; RESET and CLEAR answer at once. -/
def Obligations.HoldingActionsAnswer : Prop :=
  (∀ (s : State) (rq : Req) (se : Session) (h : Fin 32),
    let j := judged s h
    let x := s.holdings[h]
    let e := executing rq se s
    (granted s rq se (hix h 0x10) 5 .x = true → j.st = .ready → j.sn ≠ .restoring → j.sn ≠ .restoreFailed →
      s.dev.fatal = false → s.test.accepted = false → shareBusy s h = false →
      1 ≤ vfCount x → vfCount x ≤ 4 → s.bell.locked = true →
      (∀ p ∈ ownedPlots s h, s.plots[p].calibrated = true) → (∀ i : Fin 112, breached s.hedges[i] = false) →
      exec (.holdingStart rq h) s = .next (edgeTaken rq h .start e)) ∧
    (granted s rq se (hix h 0x10) 6 .x = true → j.st = .running →
      exec (.holdingQuiesce rq h) s = .next (edgeTaken rq h .quiesce e)) ∧
    (granted s rq se (hix h 0x10) 7 .x = true → j.st = .quiesced → j.fr ≠ .forced → j.sn ≠ .moved →
      s.dev.fatal = false → s.test.accepted = false → shareBusy s h = false →
      exec (.holdingResume rq h) s = .next (edgeTaken rq h .resume e)) ∧
    (granted s rq se (hix h 0x60) 2 .x = true → (j.st = .running ∨ j.st = .quiesced) → j.fr = .none →
      exec (.holdingForceStop rq h) s = .next (edgeTaken rq h .forceStop e)) ∧
    (granted s rq se (hix h 0x60) 1 .x = true → (j.st = .running ∨ j.st = .quiesced) → j.fr = .none →
      exec (.holdingFreeze rq h) s =
        .next (addTrans h .freeze none (modHolding h (fun x => { x with freezeRq := some rq }) e)).1)) ∧
  (∀ (s : State) (rq : Req) (se : Session) (h : Fin 32), s.holdings[h].pend = [] →
    let x := s.holdings[h]
    let e := executing rq se s
    (granted s rq se (hix h 0x10) 8 .x = true → (x.st = .running ∨ x.st = .quiesced) → x.freeze = .none →
      x.snap ≠ .moved → x.dozeRq = none →
      exec (.holdingDoze rq h) s =
        .next (addTrans h .freeze none (modHolding h (fun x => { x with dozeRq := some rq }) e)).1) ∧
    (granted s rq se (hix h 0x10) 9 .x = true → x.st = .dozing → x.waking = false → x.dozing = false →
      s.dev.fatal = false → s.test.accepted = false →
      exec (.holdingWake rq h) s = .next (rampAwaited h x.voltage.toNat (modHolding h (fun x => { x with
        dozing := false, dozeRq := none, waking := true, wakeReady := none, wakeRq := some rq }) e))) ∧
    (granted s rq se (hix h 0x10) 0x0A .x = true →
      (x.st = .running ∨ x.st = .quiesced ∨ (x.st = .faulted ∧ resetCause x.cause = true)) → x.snap ≠ .moved →
      exec (.holdingReset rq h) s = .next (answered rq stOk (resetHolding h e).bell.number (resetHolding h e)) ∧
        (h ≠ 0 → (resetHolding h e).holdings[h].st = .ready)) ∧
    (granted s rq se (hix h 0x10) 0x0B .x = true →
      (x.st = .empty ∨ x.st = .ready ∨ x.st = .quiesced ∨ x.st = .dozing ∨ x.st = .faulted) →
      exec (.holdingClear rq h) s = .next (answered rq stOk (enterClearing h e).bell.number (enterClearing h e)) ∧
        (h ≠ 0 → (enterClearing h e).holdings[h].st = .clearing)))

/-- R162: a Holding reset brings the crofts and Querns of each of the Holding's Plots to rest, with the initial hold values and
every ACC 0, and leaves configuration, Bins, calibration and GFPOLY, and every other Plot's crofts and Querns. -/
def Obligations.HoldingResetRestsItsPlots : Prop :=
  ∀ (s : State) (h : Fin 32) (p : Fin 64), h ≠ 0 →
    let x := s.plots[p]
    let y := (resetHolding h s).plots[p]
    y.config = x.config ∧ y.binMem = x.binMem ∧ y.calTrim = x.calTrim ∧ y.cyclePs = x.cyclePs ∧
      y.calibrated = x.calibrated ∧ y.querns.map (·.gfpoly) = x.querns.map (·.gfpoly) ∧
    (x.owner = h → y.chans = [] ∧ y.phase = [] ∧ y.hold = initialHold x ∧ ∀ n : Fin 16, y.querns[n].acc = 0) ∧
    (x.owner ≠ h → y.chans = x.chans ∧ y.phase = x.phase ∧ y.hold = x.hold ∧ y.querns = x.querns)

/-- R283 to R286, R295, R298, R299, R309, R311: the placement and binding entries take the values that the rules accept and answer
with the bell in progress.
R298, R301, R309: a value outside an entry's range is answered RANGE, and one that would break a quota QUOTA; the entry and
everything but the session and the response stays as it was. -/
def Obligations.HoldingEntriesAreJudged : Prop :=
  (∀ (s : State) (rq : Req) (se : Session) (h : Fin 32),
    let e := executing rq se s
    let x := s.holdings[h]
    (∀ v, granted s rq se (hix h 0x10) 1 .w = true → rectValid v = true → rectRefusal s h v = none →
      exec (.holdingRectWrite rq h v) s = .next (written rq (hix h 0x10) 1 s.bell.number (assignRect h v e))) ∧
    (∀ k v, granted s rq se (hix h 0x20) (maskIx k) .w = true → maskFits k v = true →
      maskRefusal s h k v.toNat = none →
      exec (.holdingMaskWrite rq h k v) s =
        .next (written rq (hix h 0x20) (maskIx k) s.bell.number (setMask h k v.toNat e))) ∧
    (∀ v : BitVec 16, granted s rq se (hix h 0x20) 4 .w = true → v.toNat ≤ 4096 →
      (x.rect = 0 ∨ tallySum s h v.toNat ≤ 7680) →
      exec (.tallyQuotaWrite rq h v) s = .next (written rq (hix h 0x20) 4 s.bell.number
        (modHolding h (fun x => { x with tallyQuota := v }) e))) ∧
    (∀ v : BitVec 32, granted s rq se (hix h 0x20) 5 .w = true → v.toNat ≤ 524288 → v.toNat % 64 = 0 →
      x.itemsHeld.toNat ≤ v.toNat →
      exec (.queueQuotaWrite rq h v) s = .next (written rq (hix h 0x20) 5 s.bell.number
        (modHolding h (fun x => { x with queueQuota := v }) e))) ∧
    (∀ v : BitVec 16, granted s rq se (hix h 0x50) 1 .w = true → v.toNat % 5 = 0 → x.vmin.toNat ≤ v.toNat →
      v.toNat ≤ x.vmax.toNat → x.st ≠ .clearing →
      let t := modHolding h (fun x => { x with voltage := v }) e
      exec (.holdingVoltageMvWrite rq h v) s = .next (written rq (hix h 0x50) 1 s.bell.number
        (if x.st = .empty ∨ (x.st = .dozing ∧ x.waking = false) then t else rampHolding h v.toNat t)))) ∧
  (∀ (s : State) (rq : Req) (se : Session) (h : Fin 32),
    let e := executing rq se s
    let x := s.holdings[h]
    (∀ v : BitVec 16, granted s rq se (hix h 0x20) 4 .w = true → 4096 < v.toNat →
      exec (.tallyQuotaWrite rq h v) s = .next (refusedWith rq opWrite stRange (hix h 0x20) 4 e)) ∧
    (∀ v : BitVec 16, granted s rq se (hix h 0x20) 4 .w = true → v.toNat ≤ 4096 → x.rect ≠ 0 →
      7680 < tallySum s h v.toNat →
      exec (.tallyQuotaWrite rq h v) s = .next (refusedWith rq opWrite stQuota (hix h 0x20) 4 e)) ∧
    (∀ v : BitVec 32, granted s rq se (hix h 0x20) 5 .w = true → v.toNat ≤ 524288 → v.toNat % 64 = 0 →
      v.toNat < x.itemsHeld.toNat →
      exec (.queueQuotaWrite rq h v) s = .next (refusedWith rq opWrite stQuota (hix h 0x20) 5 e)) ∧
    (∀ v : BitVec 16, granted s rq se (hix h 0x50) 1 .w = true →
      (v.toNat % 5 ≠ 0 ∨ v.toNat < x.vmin.toNat ∨ x.vmax.toNat < v.toNat) →
      exec (.holdingVoltageMvWrite rq h v) s = .next (refusedWith rq opWrite stRange (hix h 0x50) 1 e)))

/-- R306, R327: a check of a Hedge that is open, or sealed and at rest, changes nothing; a breach is sealed again, counted, and
recorded for and faults each Holding that owns a Plot of the Hedge.
R310, R328, R329, R116: an overcurrent of an unowned Plot turns its regulator off, is recorded and leaves it UNFIT; a ramp
that ends leaves the island settling; a settled island within 10 mV of its target reports its voltage and is due a pass. -/
def Obligations.HedgesSealAndIslandsSettle : Prop :=
  (∀ (s : State) (i : Fin 112), gleanerRuns s = true →
    (breached s.hedges[i] = false → exec (.hedgeCheck i) s = .next s) ∧
    (breached s.hedges[i] = true →
      let a := s.plots[(hedgePlots i).1].owner
      let b := s.plots[(hedgePlots i).2].owner
      let t := { modHedge i (fun x => { x with sealHolds := true, atRest := true }) s with
        breaches := satAdd s.breaches 1 }
      let noted := fun h t => record evHedgeBreach h (BitVec.ofNat 48 i.val) t
      exec (.hedgeCheck i) s = .next (
        if a = b then faultHolding a .hedgeBreach (noted a t)
        else faultHolding b .hedgeBreach (faultHolding a .hedgeBreach (noted b (noted a t)))))) ∧
  (∀ (s : State) (p : Fin 64),
    (s.plots[p].regOn = true → s.plots[p].owner = 0 → ∃ l,
      exec (.regFault p true) s = .next { modPlot p (fun x => { x with
        overcur := true, unfit := true, regOn := false, ramping := false, settling := false, calibrated := false,
        calRunning := false, calDue := false, passWait := .none, voltMv := 0 }) s with ledger := l }) ∧
    (s.plots[p].ramping = true → s.holdings[s.plots[p].owner].dozing = false →
      exec (.rampEnd p) s = .next (modPlot p (fun x => { x with ramping := false, settling := true }) s)) ∧
    (∀ mv : BitVec 16, s.plots[p].settling = true → s.plots[p].target ≤ mv.toNat + 10 →
      mv.toNat ≤ s.plots[p].target + 10 →
      exec (.islandSettled p mv) s =
        .next (modPlot p (fun x => { x with
          settling := false, voltMv := mv, calDue := true
          passWait := if x.passWait = .settle then .start else x.passWait }) s)))

/-- R159, R218, R219: a Plot whose clearing has been verified is blank: its crofts unconfigured and at rest, every ACC 0, every
GFPOLY 0x009, its Bins and its bank 0; a clearing that fails for the first time sets CLEAR_FAIL, is recorded and repeats.
R157, R218, Table 03-10: FABRIC.CALIBRATE starts a pass in every Plot that can be calibrated; FABRIC.UNFIT_CLEAR clears UNFIT
and LIMIT of the unowned Plots whose regulators are on; GRANARY.CLEAR_RETRY clears again the unowned banks with CLEAR_FAIL. No
other Plot changes. -/
def Obligations.PlotsAreClearedAndCalibrated : Prop :=
  (∀ (s : State) (p : Fin 64), s.plots[p].clearing = true → s.plots[p].tripWait = false → s.pins.vgran = true →
    (∃ t, exec (.plotClearDone p true) s = .next t ∧
      let y := t.plots[p]
      y.config = [] ∧ y.hold = [] ∧ y.phase = [] ∧ y.chans = [] ∧ y.binMem = [] ∧ y.clearing = false ∧
      (∀ n : Fin 16, y.querns[n].acc = 0 ∧ y.querns[n].gfpoly = 0x009) ∧
      t.banks[p].cleared = true ∧ (∀ a, bankWord t.banks[p] a = 0) ∧ t.banks[p].wbq = [] ∧
      ∀ q, q ≠ p → t.banks[q] = s.banks[q]) ∧
    (s.plots[p].clearRetry = false → ∃ l,
      exec (.plotClearDone p false) s = .next { modPlot p (fun x => { x with clearRetry := true })
        (modBank p (fun b => { b with clearFail := true }) s) with ledger := l })) ∧
  (∀ (s : State) (rq : Req) (se : Session),
    (granted s rq se 0x1200 1 .x = true → ∃ v,
      exec (.fabricCalibrate rq) s =
        .next (answered rq stOk s.bell.number { executing rq se s with plots := v }) ∧
      ∀ p : Fin 64, v[p] = if canCalibrate s p then startPass s.plots[p] else s.plots[p]) ∧
    (granted s rq se 0x1200 2 .x = true → ∃ v,
      exec (.fabricUnfitClear rq) s =
        .next (answered rq stOk s.bell.number { executing rq se s with plots := v }) ∧
      ∀ p : Fin 64, (s.plots[p].owner ≠ 0 → v[p] = s.plots[p]) ∧
        (s.plots[p].owner = 0 → s.plots[p].regOn = true → s.plots[p].restart = false →
          v[p] = { s.plots[p] with unfit := false, limit := false }) ∧
        (s.plots[p].owner = 0 → s.plots[p].regOn = false → v[p].clearing = true ∧ v[p].limit = false)) ∧
    (granted s rq se 0x1300 3 .x = true → ∃ v,
      exec (.granaryClearRetry rq) s =
        .next (answered rq stOk s.bell.number { executing rq se s with plots := v }) ∧
      ∀ p : Fin 64, v[p] = if s.plots[p].owner = 0 ∧ s.banks[p].clearFail = true then
        { s.plots[p] with clearing := true, clearRetry := false } else s.plots[p]))

/-! Freeze, snapshot and restore (07). -/

/-- R336 to R339: an attempt whose channels are all at rest at least 16 ticks before an edge no later than f+4 reaches the cut,
held from that edge; an attempt past it ends without one, FREEZE_TIMEOUT being recorded, posted and answered. -/
def Obligations.FreezeEndsInCutOrTimeout : Prop :=
  ∀ (s : State) (h : Fin 32), s.holdings[h].freeze = .attempt →
    (s.holdings[h].cutEdge = none → holdingAtRest s h = true → noEdge s = false → 16 ≤ toEdge s →
      s.bell.edges + 1 ≤ s.holdings[h].freezeEdge + 4 →
      exec (.freezeCut h) s = .next (modHolding h (fun x => { x with cutEdge := some (s.bell.edges + 1) }) s)) ∧
    (s.holdings[h].cutEdge = none → s.holdings[h].freezeEdge + 4 ≤ s.bell.edges →
      s.holdings[h].dozeRq = none → ∀ rq, s.holdings[h].freezeRq = some rq →
      exec (.freezeTimeout h) s = .next (
        let t := post evFreezeTimeout h (datTop h.val 0)
          (modHolding h (fun x => { x with freeze := .none, freezeRq := none, dozeRq := none }) s)
        answered rq stFreezeTimeout t.bell.number t))

/-- R349, R350, R364, R733: SNAPSHOT and RESTORE of a Holding that meets their conditions wait for the edge at which they begin
and answer when they end; a snapshot before the DRBG is seeded first waits for it.
R349, R364, R362: the conditions of a snapshot and of a restore, and the status of the first that fails: a Holding without a
cut or forced stop is BUSY, one whose queue entry names no fit queue NOT_READY; the request leaves all else unchanged. -/
def Obligations.SnapshotAndRestoreAreJudged : Prop :=
  (∀ (s : State) (rq : Req) (se : Session) (h : Fin 32),
    let e := executing rq se s
    let job := { e with snap := { s.snap with job := some (newJob h rq) } }
    (granted s rq se (hix h 0x60) 4 .x = true → snapshotRefusal s h true = none →
      exec (.holdingSnapshot rq h true) s = .next (
        if s.boot.seeded then (addTrans h .snapshot none job).1
        else { job with boot := { s.boot with waiting := s.boot.waiting ++ [.snapshot h] } })) ∧
    (granted s rq se (hix h 0x60) 6 .x = true → restoreRefusal s h = none →
      exec (.holdingRestore rq h) s = .next
        (addTrans h .restore none { e with snap := { s.snap with restore := some (newRestore h rq) } }).1)) ∧
  (∀ (s : State) (rq : Req) (se : Session) (h : Fin 32) (keyOk : Bool),
    granted s rq se (hix h 0x60) 4 .x = true →
    let e := executing rq se s
    let j := judged s h
    let ready := j.st = .quiesced ∧ (j.fr = .cut ∨ j.fr = .forced) ∧ j.sn ≠ .moved
    (¬ ready → exec (.holdingSnapshot rq h keyOk) s = .next (refusedWith rq opInvoke stBusy (hix h 0x60) 4 e)) ∧
    (ready → s.dev.fatal = false → serviceQueue s s.snap.outQueue 0x5007 false = false →
      exec (.holdingSnapshot rq h keyOk) s = .next (refusedWith rq opInvoke stNotReady (hix h 0x60) 4 e)))

/-- R357, R361, R379: the stream goes on: with room in SNAP.OUT_QUEUE the header is committed as one packet and the job moves to
its first record; a snapshot or a restore of 65,536 bells without progress ends with TRUNCATED and its record.
R365, R366, Table 07-4: the first packet of a restore is the header: one that names another device or format ends the restore
with MISMATCH, one that fits is kept; a record whose tag does not verify ends it with AUTH. -/
def Obligations.SnapshotStreamsRunAndEnd : Prop :=
  ((∀ (s : State) (j : SnapJob), s.snap.job = some j → j.begun = true → j.next = 0 →
    serviceQueue s s.snap.outQueue 0x5007 false = true →
    let q : Fin 256 := Fin.ofNat 256 s.snap.outQueue.toNat
    packetRoom s.queues[q] 43 = true →
    ∃ t b, exec .snapshotRecord s = .next t ∧ b.length = 256 ∧
      t = commitPacket q (packetOf b) { countSnapshotReads j.h s with snap := { s.snap with
        job := some { j with next := 1, lastProgress := s.bell.edges } } }) ∧
  (∀ (s : State) (j : SnapJob), s.snap.job = some j → j.begun = true → j.lastProgress + 65536 ≤ s.bell.edges →
    exec (.snapshotTruncated false) s =
      .next (endSnapshot .failed stSnapTruncated (record evSnapshotFail j.h (datS j.h.val stSnapTruncated 0) s))) ∧
  (∀ (s : State) (j : RestoreJob), s.snap.restore = some j → j.begun = true → j.lastProgress + 65536 ≤ s.bell.edges →
    exec (.snapshotTruncated true) s =
      .next (endRestore (if j.taken = 0 then .failed else .restoreFailed) stSnapTruncated
        (record evRestoreFail j.h (datS j.h.val stSnapTruncated 0) s)))) ∧
  (∀ (s : State) (j : RestoreJob) (l : List Item), s.snap.restore = some j → j.begun = true →
    serviceQueue s s.snap.inQueue 0x5006 true = true →
    let q : Fin 256 := Fin.ofNat 256 s.snap.inQueue.toNat
    let k := { j with lastProgress := s.bell.edges }
    let t := takePacket q l.length { s with snap := { s.snap with restore := some k } }
    frontPacket s.queues[q] = some l → 1 < l.length →
    (∀ x, j.hdr = none →
      exec (.restoreRecord (.header x)) s = .next (match headerRefusal t j.h x with
        | some e => endRestore .failed e t
        | none => { t with snap := { t.snap with restore := some { k with hdr := some x } } }) ∧
      (x.magic ≠ 0x5647534E ∨ x.format ≠ 1 ∨ x.family ≠ 0x56 ∨ x.deviceCode ≠ 0x4896 →
        headerRefusal t j.h x = some stMismatch)) ∧
    (∀ x plain, j.hdr = some x → j.taken = 0 →
      exec (.restoreRecord (.record false plain)) s = .next (endRestore .failed stSnapAuth t)))

/-! The host interface (08). -/

/-- R435, R446, R447, R451: at link-up LINK shows rate and width and the event is recorded, with DMA_UNIT_UNFIT when a unit fits
no slot; a link that goes down without a reset is a DEVICE_FATAL fault, recorded, that leaves no tally issued.
R445, Table 08-12: errors are reported on the function named; the uncorrectable fatal ones are one DEVICE_FATAL fault. -/
def Obligations.LinkEventsAndErrorsAct : Prop :=
  ((∀ (s : State) (rate : Fin 6) (width : Fin 17),
    s.host.rate = 0 → rate ≠ 0 → width.val ∈ [1, 2, 4, 8, 16] → s.pins.vsd = true → s.pins.vsdt = true →
    let t := record evPcieLinkUp 0 (BitVec.ofNat 48 (width.val * 256 + rate.val))
      { s with host := { s.host with rate, width } }
    exec (.linkUp rate width) s = .next (if s.bell.period.toNat / 16 < unitTicks t then
      record evDmaUnitUnfit 0 (BitVec.ofNat 48 (unitTicks t)) t else t)) ∧
  (∀ s : State, s.host.rate ≠ 0 → ∃ t, exec .pcieLinkLost s = .next t ∧ t.host.rate = 0 ∧ t.host.resetSince = false ∧
    t.dev.fatal = true ∧ t.dev.faults = s.dev.faults + 1 ∧ ∀ q : Fin 256, t.rings[q].tallies = [])) ∧
  (∀ (s : State) (f : Fin 33), s.host.rate ≠ 0 →
    (∀ e ∈ [TlpErr.receiverError, .badTlp, .badDllp, .replayTimeout, .replayRollover],
      exec (.tlpError e f) s = .next (emit (.aer 0 (aerNum e)) s)) ∧
    (∀ e ∈ [TlpErr.poisonedBarWrite, .ecrc], exec (.tlpError e f) s = .next (emit (.aer f (aerNum e)) s)) ∧
    (∀ e ∈ [TlpErr.malformed, .dlProtocol, .fcProtocol, .rxOverflow],
      exec (.tlpError e f) s = .next (deviceFatal [.fatalAer] (emit (.aer 0 (aerNum e)) s))))

/-- R396, R397, R399, Tables 08-4 and 08-5: ENABLE, DISABLE, the last tally, TAIL and the clearing of an error move a ring between
DISABLED, ACTIVE, DRAINING and ERROR as the table says; SIZE_LOG2 changes only while it is DISABLED; RING_ABANDONED clears
when it is read. -/
def Obligations.RingsFollowTheirStateMachine : Prop :=
  ∀ (s : State) (f : Fin 33) (q : Fin 256), ringOf s f q = true →
    let r := s.rings[q]
    (∀ v : BitVec 32, v.getLsbD 31 = true → r.st = .disabled →
      exec (.ringEnable f q v) s = .next (modRing q (fun r => { r with
        st := .active, enable := true, head := 0, tail := 0, readIx := 0, asked := 0, cache := [],
        holdoff := v.extractLsb' 8 8, vector := v.extractLsb' 0 6,
        sizeLog2 := if 6 ≤ v.toNat / 2 ^ 16 % 16 then v.extractLsb' 16 4 else r.sizeLog2 }) s)) ∧
    (∀ v : BitVec 32, v.getLsbD 31 = true → r.st = .draining →
      exec (.ringEnable f q v) s = .next (modRing q (fun r => { r with
        st := .active, enable := true, holdoff := v.extractLsb' 8 8, vector := v.extractLsb' 0 6 }) s)) ∧
    (∀ v : BitVec 32, v.getLsbD 31 = false → r.st = .active →
      exec (.ringDisable f q v) s = .next (modRing q (fun r => { r with
        st := .draining, enable := false, holdoff := v.extractLsb' 8 8, vector := v.extractLsb' 0 6 }) s)) ∧
    (r.st = .draining → r.tallies = [] →
      exec (.ringDrained q) s = .next (modRing q (fun r => { r with
        st := .disabled, enable := false, cause := 0, cache := [], asked := 0 }) s)) ∧
    (∀ v : BitVec 16, (v - r.head).toNat ≤ 2 ^ r.sizeLog2.toNat →
      exec (.ringTailWrite f q v) s = .next (modRing q (fun r => { r with tail := v }) s)) ∧
    (∀ v : BitVec 16, r.st = .active → 2 ^ r.sizeLog2.toNat < (v - r.head).toNat →
      exec (.ringTailWrite f q v) s = .next (post evRingError (queueOwner s q) (datTop q.val 1)
        (modRing q (fun r => { r with st := .error, enable := false, cause := 1, asked := 0 }) s))) ∧
    (r.st = .error → r.tallies = [] →
      exec (.ringErrorClear f q) s = .next (modRing q (fun r => { r with
        st := .disabled, enable := false, cause := 0, cache := [], asked := 0 }) s)) ∧
    exec (.ringAbandonedRead f q) s = .next (emit (.regRead (r.abandoned.setWidth 64))
      (modRing q (fun r => { r with abandoned := 0 }) s))

/-- R389 to R391, R395, Tables 08-2 and 08-4: an aligned write of 4 or 8 bytes reaches the register at its offset; a narrower one,
an unaligned one and one at an offset that no table lists are discarded.
R420 to R423: a message that the hold-off count held back is sent when the count is 0, and the count restarts at HOLDOFF; a
vector that is unmasked sends its pending message, and only then. -/
def Obligations.RegistersAndMessagesAct : Prop :=
  (∀ (s : State) (q : Fin 256) (v : BitVec 64), hostReaches s 0 = true →
    exec (.barRegisterWrite 0 0x020000 4 v) s =
      exec (.pf0Submit (Fin.ofNat 8 (v.toNat % 8)) (v.extractLsb' 16 16)) s ∧
    exec (.barRegisterWrite 0 0x020004 4 v) s = exec (.pf0RespReadyClear (v.extractLsb' 0 8)) s ∧
    exec (.barRegisterWrite 0 0x020044 4 v) s =
      .next { s with host := { s.host with noticeCons := v.extractLsb' 0 16 } } ∧
    (ringOf s 0 q = true →
      (v.getLsbD 31 = true → exec (.barRegisterWrite 0 (BitVec.ofNat 24 (0x200008 + 32 * q.val)) 4 v) s =
        exec (.ringEnable 0 q (v.extractLsb' 0 32)) s) ∧
      (v.getLsbD 31 = false → exec (.barRegisterWrite 0 (BitVec.ofNat 24 (0x200008 + 32 * q.val)) 4 v) s =
        exec (.ringDisable 0 q (v.extractLsb' 0 32)) s) ∧
      exec (.barRegisterWrite 0 (BitVec.ofNat 24 (0x20000C + 32 * q.val)) 4 v) s =
        exec (.ringTailWrite 0 q (v.extractLsb' 0 16)) s ∧
      (s.rings[q].st = .disabled →
        exec (.barRegisterWrite 0 (BitVec.ofNat 24 (0x200000 + 32 * q.val)) 8 v) s =
          .next (modRing q (fun r => { r with base := v.extractLsb' 12 52 }) s))) ∧
    (∀ (off : BitVec 24) (w : Nat), w < 4 → exec (.barRegisterWrite 0 off w v) s = .next s) ∧
    (∀ off : BitVec 24, off.toNat % 4 ≠ 0 → exec (.barRegisterWrite 0 off 4 v) s = .next s) ∧
    ∀ off : BitVec 24, 0x30000 ≤ off.toNat → off.toNat < 0x100000 → exec (.barRegisterWrite 0 off 4 v) s = .next s) ∧
  (∀ s : State,
    (∀ q : Fin 256, s.rings[q].due = true → s.rings[q].hoCount = 0 →
      let r := s.rings[q]
      let t := modRing q (fun r => { r with hoCount := r.holdoff.toNat, due := false }) s
      exec (.msixHoldoffExpiry q) s = .next (
        if ringVector r.fn r.vector.toNat && s.fns[r.fn].msixEnable then
          if s.fns[r.fn].masked.getLsbD r.vector.toNat then
            modFn r.fn (fun n => { n with pba := n.pba ||| (1#64 <<< r.vector.toNat) }) t
          else emit (.msix r.fn r.vector.toNat) t
        else t)) ∧
    (∀ (f : Fin 33) (v : Fin 64), hostReaches s f = true → v.val < (if f = 0 then 64 else 8) →
      let t := modFn f (fun n => { n with
        msixEnable := true, masked := n.masked &&& ~~~(1#64 <<< v.val), pba := n.pba &&& ~~~(1#64 <<< v.val) }) s
      exec (.msixUnmask f v) s = .next (if s.fns[f].pba.getLsbD v.val then emit (.msix f v.val) t else t)))

/-- R424 to R426, R429, R432, Table 08-9: a valid submit makes its slot busy and queues its message behind the others; a bad
length or a busy slot sets its bit and is discarded; RESP_READY written 1 frees the slots whose response was ready; the lost
counts clear when they are read. -/
def Obligations.MailboxTakesAndFreesSlots : Prop :=
  ∀ (s : State) (k : Fin 8) (n : BitVec 16), hostReaches s 0 = true →
    (n ≠ 0 → n.toNat ≤ 2048 → s.host.busy.getLsbD k.val = false →
      exec (.pf0Submit k n) s = .next { s with host := { s.host with
        busy := s.host.busy ||| (1#8 <<< k.val),
        requests := s.host.requests ++ [(k, (padTo 2048 s.host.reqSlots[k]).take n.toNat)] } }) ∧
    (n = 0 ∨ 2048 < n.toNat → ∃ b, exec (.pf0Submit k n) s =
      .next { s with host := { s.host with badLength := true, slotBusy := b } }) ∧
    (n ≠ 0 → n.toNat ≤ 2048 → s.host.busy.getLsbD k.val = true →
      exec (.pf0Submit k n) s = .next { s with host := { s.host with slotBusy := true } }) ∧
    (∀ m : Byte, exec (.pf0RespReadyClear m) s = .next { s with host := { s.host with
      respReady := s.host.respReady &&& ~~~(m &&& s.host.respReady),
      busy := s.host.busy &&& ~~~(m &&& s.host.respReady) } }) ∧
    exec .noticeLostRead s = .next (emit (.regRead (s.host.noticeLost.setWidth 64))
      { s with host := { s.host with noticeLost := 0 } }) ∧
    ∀ f : Fin 33, f ≠ 0 → hostReaches s f = true →
      exec (.mbxLostRead f) s = .next (emit (.regRead (s.fns[f].mbxLost.setWidth 64))
        (modFn f (fun n => { n with mbxLost := 0 }) s))

/-- R400, R403, R404, R407 to R413, R417: a unit of the host DMA engine that is ready in its owner's slot and turn: a descriptor
read asks for what TAIL covers; a data read asks for what R408 allows; a data write of the one released item takes it from the
queue; a write-back of a completed descriptor passes HEAD; without flow-control credits the unit's time is idle and FC_STALLS
counts. -/
def Obligations.DmaUnitsMoveTheRing : Prop :=
  ∀ (s : State) (q : Fin 256), dmaSlot s q = true → ringTurn s q = true →
    let r := s.rings[q]
    let x := s.queues[q]
    (unitReady s q .descRead = true →
      exec (.hostDmaUnit q .descRead true) s = .next (spend q (emit
        (.tlpRead r.fn (BitVec.ofNat 64 (r.base.toNat * 4096 + 32 * (r.readIx.toNat % 2 ^ r.sizeLog2.toNat)))
          (32 * descReadCount s r))
        (modRing q (fun r => { r with asked := descReadCount s s.rings[q] }) s)))) ∧
    (∀ t, unitReady s q .dataRead = true → r.tallies.find? wantsData = some t →
      let n := min (min (8 * (x.prodFree - inFlight r / 8)) 512) (min s.host.mrrs (t.len - t.asked))
      exec (.hostDmaUnit q .dataRead true) s = .next (spend q (modTallies q wantsData
        (fun t => { t with asked := t.asked + n }) (emit (.tlpRead r.fn (t.addr + BitVec.ofNat 64 t.asked) n) s)))) ∧
    (∀ t c l, unitReady s q .dataWrite = true → r.tallies.find? openTally = some t → t.pack = false →
      x.items = c :: l → sendable x = 1 → 16 ≤ unitBytes s → t.sent + 16 ≤ t.len →
      exec (.hostDmaUnit q .dataWrite true) s = .next (spend q (modTallies q openTally
        (fun t => { t with
          sent := t.sent + 8, code := if itLast c.it then some 0x00 else none, lastSent := itLast c.it })
        (takeItem q (emit (.tlpWrite r.fn (t.addr + BitVec.ofNat 64 t.sent) (leBytes 8 c.it.toNat)) s))))) ∧
    (∀ t l code, unitReady s q .writeBack = true → r.tallies = t :: l → t.code = some code → t.irq = false → r.holder = 0 →
      exec (.hostDmaUnit q .writeBack true) s = .next (spend q (
        let u := emit (.tlpWrite r.fn
          (BitVec.ofNat 64 (r.base.toNat * 4096 + 32 * (r.head.toNat % 2 ^ r.sizeLog2.toNat) + 16))
          (writeBackBytes r t code s.bell.number)) s
        let u := modRing q (fun r => { r with head := r.head + 1, tallies := l, resumed := false }) u
        { u with host := { u.host with talliesFree := s.host.talliesFree + 1 } }))) ∧
    ∀ k, unitReady s q k = true →
      exec (.hostDmaUnit q k false) s =
        .next (spend q { s with host := { s.host with fcStalls := satAdd s.host.fcStalls 1 } })

/-- R401, R402, R410, R442, R443: descriptors that arrive join the ring's cache; an item word that arrives enters staging, and the
descriptor completes with OK when its buffer has been accepted whole; a data read that fails or times out completes its
descriptor with HOST_ERROR, rewinds the open packet, reports through AER and is recorded; a failed descriptor read puts an
active ring into ERROR. -/
def Obligations.CompletionsReachTheirRing : Prop :=
  ∀ (s : State) (q : Fin 256),
    let r := s.rings[q]
    let failed := fun (aer : Nat) => record evDmaHostError (queueOwner s q) (datTop q.val r.fn.val) (emit (.aer r.fn aer)
      (modTallies q waitsData (fun t => { t with code := some 0x03 }) (rewindPlace q s)))
    (∀ l, r.asked = l.length → l ≠ [] → (∀ d ∈ l, d.length = 32) →
      exec (.descriptorReadCompletion q true l) s = .next (modRing q (fun r => { r with
        cache := r.cache ++ l, readIx := r.readIx + BitVec.ofNat 16 l.length, asked := 0 }) s)) ∧
    (∀ l, r.asked ≠ 0 → r.st = .active →
      exec (.descriptorReadCompletion q false l) s = .next (post evRingError (queueOwner s q) (datTop q.val 2)
        (modRing q (fun r => { r with st := .error, enable := false, cause := 2, asked := 0 })
          (emit (.aer r.fn 13) s)))) ∧
    (∀ t w, r.tallies = [t] → waitsData t = true → t.sent + 8 ≤ t.asked → s.queues[q].discarding = false →
      s.queues[q].arrLosing = false → s.queues[q].prodFree ≠ 0 →
      let it : Item := w.extractLsb' 0 52
      exec (.dataReadCompletion q .ok [w]) s = .next (modRing q (fun r => { r with tallies := [{ t with
          sent := t.sent + 8, whole := if itLast it then t.sent + 8 else t.whole, lastSent := itLast it,
          code := if t.sent + 8 = t.len then some 0x00 else none }] })
        (modQueue q (fun x => { x with staging := x.staging ++ [.item it], prodFree := x.prodFree - 1 }) s))) ∧
    (∀ l, r.tallies.any waitsData = true →
      exec (.dataReadCompletion q .ur l) s = .next (failed 13) ∧
      exec (.dataReadCompletion q .ca l) s = .next (failed 14) ∧
      exec (.completionTimeout q) s = .next (failed 12))

/-- R282, R385, R386, R440, R450, R451, Table 08-13: a function-level reset, a hot reset, D3hot and a change of VF Enable leave
the function's rings DISABLED with no tally and its Bus Master Enable 0 where the table says so, and keep every queue's
binding; Bus Master Enable and the SR-IOV control take what is written.
R90, R221, R282: a Holding reset, a VF function-level reset and a hot reset leave the bell, the slot maps, the banks and the
Bins as they were. -/
def Obligations.ResetsKeepBellAndMemory : Prop :=
  (∀ s : State, s.host.rate ≠ 0 →
    (∀ f : Fin 33, vfOn s f = true → ∃ t, exec (.functionLevelReset f) s = .next t ∧
      t.fns[f].busMaster = false ∧ t.fns[f].d3hot = false ∧ t.host.rate = s.host.rate ∧
      (∀ q : Fin 256, s.rings[q].fn = f → t.rings[q].st = .disabled ∧ t.rings[q].tallies = []) ∧
      ∀ q : Fin 256, t.queues[q].bound = s.queues[q].bound) ∧
    (∃ t, exec .hotReset s = .next t ∧ t.host.rate = 0 ∧ t.host.vfEnable = false ∧ t.host.busy = 0 ∧
      t.fnet.sessions = s.fnet.sessions ∧
      (∀ q : Fin 256, t.rings[q].st = .disabled ∧ t.rings[q].tallies = [] ∧ t.rings[q].abandoned = 0) ∧
      ∀ q : Fin 256, t.queues[q].bound = s.queues[q].bound) ∧
    (∀ f : Fin 33, vfOn s f = true → ∃ t, exec (.d3hotEntry f) s = .next t ∧ t.fns[f].d3hot = true ∧
      (∀ q : Fin 256, s.rings[q].fn = f →
        t.rings[q].st = .disabled ∧ t.rings[q].tallies = [] ∧ t.rings[q].base = s.rings[q].base) ∧
      ∀ q : Fin 256, t.queues[q].bound = s.queues[q].bound) ∧
    (∀ f : Fin 33, vfOn s f = true →
      exec (.busMasterEnableChange f false) s = .next (modFn f (fun n => { n with busMaster := false }) s) ∧
      ∃ t, exec (.busMasterEnableChange f true) s = .next t ∧ t.fns[f].busMaster = true ∧ t.fns[f].d3hot = false) ∧
    ∀ (on ari : Bool) (n : BitVec 16), ∃ t, exec (.vfEnableWrite on ari n) s = .next t ∧
      t.host.vfEnable = on ∧ t.host.ari = ari ∧ t.host.numVfs = n ∧
      ∀ (f : Fin 33) (q : Fin 256), f ≠ 0 → vfOn s f = true → vfOn t f = false → s.rings[q].fn = f →
        t.rings[q].st = .disabled ∧ t.rings[q].tallies = []) ∧
  (∀ s : State,
    let kept := fun t : State => t.bell = s.bell ∧ t.slots = s.slots ∧ t.banks = s.banks ∧
      ∀ p : Fin 64, t.plots[p].binMem = s.plots[p].binMem ∧ t.plots[p].bins = s.plots[p].bins
    (∀ h, kept (resetHolding h s)) ∧
    (∀ f, ∃ t, exec (.functionLevelReset f) s = .next t ∧ kept t) ∧
    (∃ t, exec .hotReset s = .next t ∧ kept t))

/-! Serial lanes and Limva (09). -/

/-- R453, R454, R461, R463, R466, R476, R495, R498, Table 09-2: the states of a lane. ENABLE with a locked PLL begins training and
FALSE turns it OFF; a trained lane is UP, which is recorded and posted; an UP lane that fails trains again and counts; a PLL
that locks or unlocks takes its lanes along; a change to or from NEAR_PMA and FAR retrains; a lane that is an end of a bound
queue keeps its mode.
R472 to R474: PRBS_GEN and PRBS_CHK take a pattern; a new pattern of the checker clears its counts; the checker locks at the
64th bit in a row that fits, and at the 32nd mismatch of 64 bits it counts that one and loses its lock. -/
def Obligations.LanesFollowTheirStates : Prop :=
  (∀ (s : State) (l : Fin 48),
    let x := s.lanes[l]
    (∀ (rq : Req) (se : Session), granted s rq se (lix l) 1 .w = true →
      (pllLocked s l = true → s.test.accepted = false → x.st = .off →
        exec (.laneEnableWrite rq l 1) s = .next (written rq (lix l) 1 s.bell.number
          (modLane l (fun x => { x with enable := true, st := .training, shWindow := [], part := [] })
            (executing rq se s)))) ∧
      (∃ t, exec (.laneEnableWrite rq l 0) s = .next (written rq (lix l) 1 s.bell.number t) ∧
        t.lanes[l].enable = false ∧ t.lanes[l].st = .off ∧ ∀ k, k ≠ l → t.lanes[k] = s.lanes[k])) ∧
    (x.st = .training → x.limvaMode = false →
      exec (.laneUp l) s = .next (post evLaneUp (laneHolding s l) (laneDat l)
        (modLane l (fun x => { x with st := .up, blockLocked := x.b66, shWindow := [], part := [] }) s))) ∧
    (x.st = .training →
      exec (.trainingRestart l) s = .next (modLane l (fun x => { x with trainings := x.trainings + 1 }) s)) ∧
    (∀ cut, x.st = .up → ∃ t, exec (.laneDown l cut) s = .next t ∧
      t.lanes[l].st = .training ∧ t.lanes[l].blockLocked = false ∧ t.lanes[l].limva ≠ .active ∧
      t.lanes[l].downCount = satAdd x.downCount 1 ∧
      t.lanes[l].rxDiscarded = (if (cut = true ∨ x.part ≠ []) ∧ x.b66 = true ∧ x.limvaMode = false
        then satAdd x.rxDiscarded 4 else x.rxDiscarded) ∧
      ∀ k, k ≠ l → t.lanes[k] = s.lanes[k]) ∧
    (∀ n : Fin 12, canLock s n false = true → ∃ t, exec (.pllLock n .a) s = .next t ∧ t.quads[n].aLocked = true ∧
      (quadOf l = n → x.pllB = false → x.enable = true → s.test.accepted = false → x.st = .off →
        t.lanes[l].st = .training)) ∧
    (∀ n : Fin 12, s.quads[n].aLocked = true → ∃ t, exec (.quadPllUnlock n .a) s = .next t ∧
      t.quads[n].aLocked = false ∧ t.quads[n].bLocked = s.quads[n].bLocked ∧
      (quadOf l = n → x.pllB = false → t.lanes[l].st = .off)) ∧
    (∀ (rq : Req) (se : Session) (v : Byte), granted s rq se (lix l) 8 .w = true → v.toNat ≤ 4 →
      (v.toNat < 3 → x.loopback.toNat < 3 →
        exec (.loopbackWrite rq l v) s = .next (written rq (lix l) 8 s.bell.number
          (modLane l (fun x => { x with loopback := v, part := [] }) (executing rq se s)))) ∧
      (3 ≤ v.toNat → v ≠ x.loopback → x.st = .up → ∃ t,
        exec (.loopbackWrite rq l v) s = .next (written rq (lix l) 8 s.bell.number t) ∧
        t.lanes[l].loopback = v ∧ t.lanes[l].st = .training)) ∧
    ∀ (rq : Req) (se : Session), granted s rq se (lix l) 3 .w = true →
      (laneBoundEnd s l = true → ∀ v : Byte, v.toNat ≤ 1 →
        exec (.laneModeWrite rq l v) s = .next (refusedWith rq opWrite stBusy (lix l) 3 (executing rq se s))) ∧
      (laneBoundEnd s l = false → laneTapped s l = false → x.st ≠ .up →
        exec (.laneModeWrite rq l 1) s = .next (written rq (lix l) 3 s.bell.number
          (modLane l (fun x => { x with limvaMode := true, part := [] }) (executing rq se s))))) ∧
  (∀ (s : State) (l : Fin 48),
    let x := s.lanes[l]
    let n := (prbsTaps x.prbsChk.toNat).1
    let m := (prbsTaps x.prbsChk.toNat).2
    let want := xor ((x.prbsReg[n - 1]?).getD false) ((x.prbsReg[m - 1]?).getD false)
    let reg := want :: x.prbsReg.take (n - 1)
    (∀ (rq : Req) (se : Session) (v : Byte), v.toNat % 128 ≤ 5 →
      (granted s rq se (lix l) 9 .w = true →
        exec (.prbsGenWrite rq l v) s = .next (written rq (lix l) 9 s.bell.number
          (modLane l (fun x => { x with prbsGen := v }) (executing rq se s)))) ∧
      (granted s rq se (lix l) 10 .w = true → v.toNat % 8 ≠ 0 →
        exec (.prbsChkWrite rq l v) s = .next (written rq (lix l) 10 s.bell.number
          (modLane l (fun x => { x with
            prbsChk := v, prbsBits := 0, prbsErrors := 0, prbsLocked := false, prbsReg := [], prbsMatch := 0,
            prbsWindow := [] }) (executing rq se s))))) ∧
    (x.st ≠ .off → 1 ≤ x.prbsChk.toNat → x.prbsChk.toNat ≤ 5 → n ≤ x.prbsReg.length →
      (x.prbsLocked = false → x.prbsMatch = 63 →
        exec (.prbsLock l [want]) s = .next (modLane l (fun x => { x with
          prbsReg := reg, prbsMatch := 0, prbsLocked := true, prbsWindow := [] }) s)) ∧
      (x.prbsLocked = true → ((x.prbsWindow.take 63).filter id).length = 31 →
        exec (.prbsLockLoss l [!want]) s = .next (modLane l (fun x => { x with
          prbsLocked := false, prbsReg := [], prbsMatch := 0, prbsWindow := [],
          prbsBits := satAdd x.prbsBits 1, prbsErrors := satAdd x.prbsErrors 1 }) s))))

/-- R457, R462, R464, R465, R467: the descrambler gives back what the scrambler sent; the gearbox gives back the four items of a
group, FIRST and LAST by place, MARK and BAD of the first three.
R462 to R464, R467, R469, R470: a coded lane that is UP and locked hands the four items of a group with good headers to its
receive attachment, a raw lane one item a word; a lane sends a group that is ready as three blocks, and a fill block or word
when nothing is. -/
def Obligations.LanesCodeAndMoveItems : Prop :=
  ((∀ (r : BitVec 58) (p : BitVec 64),
    scrambleWith false r (scrambleWith true r p).2 = ((scrambleWith true r p).1, p)) ∧
  ∀ a b c d : Item,
    let back := fun (first : Bool) (i : Item) => mkItem first false (itMark i) (itBad i && !itMark i) (itData i)
    groupItems (groupBlocks [a, b, c, d]) = [back true a, back false b, back false c, mkItem false true false false (itData d)]) ∧
  (∀ (s : State) (l : Fin 48),
    let x := s.lanes[l]
    (x.st = .up → x.loopback = 0 → x.polarity = 0 → x.prbsChk = 0 → x.limvaMode = false →
      (∀ b0 b1 b2 : Block, x.b66 = true → x.blockLocked = true → validSh b0.sh = true → validSh b1.sh = true →
        validSh b2.sh = true → x.shWindow = [] →
        let d := descramble x.rxScr [b0, b1, b2]
        exec (.rxGroup l b0 b1 b2) s = .next (eachOf (groupItems d.2) (gearboxItem l)
          (modLane l (fun x => { x with rxScr := d.1, shWindow := [false, false, false] }) s))) ∧
      (∀ w : Word, x.b66 = false →
        exec (.rawRxWord l w) s = .next (gearboxItem l (mkItem true true false false w) s))) ∧
    (x.st = .up → x.loopback = 0 → x.polarity = 0 → x.prbsGen = 0 → x.limvaMode = false →
      (∀ q its, x.b66 = true → txQueue s l = some q → readyGroup s.queues[q] = some its →
        exec (.txGroup l) s = .next (eachOf (groupBlocks its) (sendBlock l) (takeItems l q 4 s))) ∧
      (txQueue s l = none → x.b66 = true →
        let y := scrambleWith true x.txScr x.txFill
        exec (.txGroup l) s = .next (emit (.laneBlock l 0b10 y.2) (modLane l (fun x => { x with txScr := y.1 }) s))) ∧
      (txQueue s l = none → x.b66 = false →
        exec (.txGroup l) s = .next (emit (.laneRaw l (x.txFill.setWidth 48)) s))))

/-- R479, R485 to R489, Tables 09-5 to 09-7: a frame with a wrong CRC is counted and answered with NAK; a DATA frame with the
expected SEQ is received, one ahead of it asks for a replay, one behind only tells CREDIT and ACK; a BELL frame gives the
peer's bell; an INIT frame names the peer and starts afresh one not seen for 1,024 bells; RESYNC stages its markers; eight
replays of one SEQ end ACTIVE. -/
def Obligations.LimvaFramesAreJudged : Prop :=
  ∀ (s : State) (l : Fin 48) (f : Frame),
    let x := s.lanes[l]
    x.limvaMode = true → x.st = .up → pinsReach x = true →
    (x.limva = .active →
      (crcGood f = false → exec (.limvaDataFrame l f) s =
        .next (modLane l (fun x => { x with crcErrors := satAdd x.crcErrors 1, nak := true }) s)) ∧
      (crcGood f = true → formGood f = true →
        (hdKind f = 0 →
          (hdSeq f = x.expect → hdCount f ≠ 0 → exec (.limvaDataFrame l f) s =
            .next (eachOf (f.body.map bodyItem) (laneReceive l)
              (modLane l (fun x => { heard f s x with expect := x.expect + 1 }) s))) ∧
          (hdSeq f ≠ x.expect → (hdSeq f - x.expect).toNat < 2048 → exec (.limvaDataFrame l f) s =
            .next (modLane l (fun x => { heard f s x with nak := true }) s)) ∧
          (2048 ≤ (hdSeq f - x.expect).toNat → exec (.limvaDataFrame l f) s = .next (modLane l (heard f s) s))) ∧
        (hdKind f = 1 → hdSeq f = x.expect →
          let n := (bodyWord f).setWidth 48
          exec (.limvaBellFrame l f) s =
            .next (modLane l (fun x => { heard f s x with peerBell := n, bellDelta := n - s.bell.number }) s)) ∧
        (hdKind f = 3 → ∀ q, queueFrom s (laneRxCode l) = some q → carries s.queues[q] = true →
          exec (.limvaResyncFrame l f) s = .next (commitN q 0 (modQueue q (fun y => { y with
            staging := y.staging ++ [.mark ((bodyWord f).toNat % 2 ^ 40) x.wasActive] })
              (modLane l (heard f s) s))))) ∧
      (8 ≤ x.replayCount → ∃ t, exec (.limvaDown l) s = .next t ∧ t.lanes[l].limva = .down ∧
        t.lanes[l].replay = x.replay ∧ t.lanes[l].leftActive = some s.bell.edges)) ∧
    (x.limva = .init → crcGood f = true → formGood f = true → hdKind f = 2 →
      (bodyWord f).extractLsb' 56 8 = 1 →
      let peer := ((bodyWord f).extractLsb' 0 54).setWidth 64
      ((bodyWord f).getLsbD 54 = false → exec (.limvaInitFrame l f) s =
        .next (modLane l (fun x => { x with peer, seen := true }) s)) ∧
      ((bodyWord f).getLsbD 54 = true → x.peer ≠ peer → ∃ t, exec (.limvaInitFrame l f) s = .next t ∧
        t.lanes[l].limva = .active ∧ t.lanes[l].peer = peer ∧ t.lanes[l].seq = 0 ∧ t.lanes[l].expect = 0 ∧
        t.lanes[l].replay = [] ∧ t.lanes[l].lost = satAdd x.lost (replayItems x) ∧
        t.lanes[l].resync = some (BitVec.ofNat 40 (min (replayItems x) (2 ^ 40 - 1)))))

/-! Check-value units and boundary gates (10). -/

/-- R535, R539, R544, R545, R549, Table 10-7: START of a unit that R539 allows begins a computation; the unit takes an item of its
input queue when its output has room; STOP with nothing open leaves it IDLE; a fault with nothing open leaves it in FAULT, is
recorded and faults its Holding.
R520 to R526, R528: over a packet the unit computes the check value of all its bytes, in order, whatever came before; it
counts the packet, and under COMPARE a mismatch when the value is not the expected one.
R510, R550, R551, R792: an HS transfer lands its word of configuration, with its check bits, in a Plot whose island supply is
good; one that times out counts, is recorded, and is a DEVICE_FATAL fault when it crosses no Plot and leaves the Plot that it
crosses UNFIT. -/
def Obligations.CheckUnitsAndTransfersWork : Prop :=
  (∀ (s : State) (u : Fin 32),
    let x := s.cvus[u]
    (∀ (rq : Req) (se : Session), granted s rq se (cix u) 0x0A .x = true → cvuRefusal (executing rq se s) u = none →
      exec (.cvuStart rq u) s = .next (answered rq stOk s.bell.number (modCvu u cvuStarted (executing rq se s))) ∧
      (cvuStarted x).st = .running ∧ (cvuStarted x).reg = crcInit (cvuCrc x) ∧ (cvuStarted x).skipped = 0) ∧
    (∀ (rq : Req) (se : Session), granted s rq se (cix u) 0x0A .x = true → cvuRefusal (executing rq se s) u = some stBusy →
      exec (.cvuStart rq u) s = .next (refusedWith rq opInvoke stBusy (cix u) 0x0A (executing rq se s))) ∧
    (∀ (rq : Req) (se : Session), granted s rq se (cix u) 0x0B .x = true → x.isOpen = false →
      exec (.cvuStop rq u) s = .next (answered rq stOk s.bell.number (modCvu u (fun x => { x with
        st := .idle, dropping := if x.st = .running then false else x.dropping,
        taps := if x.st = .running then [] else x.taps }) (executing rq se s)))) ∧
    (∀ q it, x.st = .running → cvuSnoops x = false → unitOffer s u = some (q, it) →
      outputTakes s u (cvuStep x it).2.length = true → (cvuStep x it).1.bellMiss = x.bellMiss →
      exec (.cvuItem u) s =
        .next (commitOut u (cvuStep x it).2 (modCvu u (fun _ => (cvuStep x it).1) (takeItem q s)))) ∧
    (x.st = .running → x.isOpen = false →
      exec (.cvuFault u) s = .next (
        let h := cvuHolding s u
        faultHolding h .cvu (record evCvuFault h (BitVec.ofNat 48 u.val)
          (modCvu u (fun x => { x with st := .fault, taps := [] }) s))))) ∧
  (∀ (x : Cvu) (a : Item) (l : List Item) (z : Item),
    x.boundary = 0 → x.skip = 0 → x.dropping = false → (x.mode = 1 ∨ x.mode = 2) →
    let its := a :: l ++ [z]
    a.getLsbD 51 = true → itLast a = false → (∀ i ∈ l, i.getLsbD 51 = false ∧ itLast i = false) →
    z.getLsbD 51 = false → itLast z = true →
    let y := its.foldl (fun y i => (cvuStep y i).1) x
    let v := crc (cvuCrc x) ((its.map (cvuBytes x)).flatten)
    y.result = v ∧ y.packets = satAdd x.packets 1 ∧ y.isOpen = false ∧
      y.mismatches = (if x.mode = 1 ∧ x.expect.toNat % 2 ^ (cvuCrc x).width ≠ v.toNat
        then satAdd x.mismatches 1 else x.mismatches)) ∧
  (∀ s : State,
    (∀ (p : Fin 64) (a : BitVec 24) (v : Word), islandGood s.plots[p] = true → memWf s.plots[p].config = true →
      ∃ m, exec (.hsTransfer (.plotCfg p a v)) s = .next (modPlot p (fun x => { x with config := m }) s) ∧
        memWf m = true ∧ memGet m a.toNat = secWord v ∧
        ∀ k, k ≠ a.toNat → memGet m k = memGet s.plots[p].config k) ∧
    (∀ (p : Fin 64) (a : BitVec 24) (v : Word), islandGood s.plots[p] = false →
      exec (.hsTransfer (.plotCfg p a v)) s = .next s) ∧
    (∀ c : BitVec 16,
      let t := { s with gates := { s.gates with hsTimeouts := satAdd s.gates.hsTimeouts 1 } }
      exec (.gateHsTimeout c none) s =
        .next (deviceFatal [.hsTimeout] (record evGateHsTimeout 0 (datTop 0 c.toNat) t)) ∧
      ∀ p : Fin 64, exec (.gateHsTimeout c (some p)) s =
        .next (faultHolding s.plots[p].owner .plotUnfit
          (modPlot p (fun x => { x with unfit := true }) (record evGateHsTimeout 0 (datTop p.val c.toNat) t)))))

/-! The Serial Select Ports (11). -/

/-- R563 to R571, R600, R604: SSP1 as master sends the first LENGTH bits of XFER_TX and answers when the select is released, or
with an error when RDY stays low; as a CHAIN stage outside a village it sends its stage while it takes in new bits, and a full
shift is latched.
R572 to R584, R607, Tables 11-3 to 11-5: SSP1 as a CMD slave reads out a block from an address that wraps, takes the bytes of
block 0x01, takes a SUBMIT of a good length when it has room and refuses any other, and frees its response and its oldest
notice when they are acknowledged; a select released within a header is counted and recorded. -/
def Obligations.SspServesMasterAndSlave : Prop :=
  (∀ s : State,
    (∀ (rq : Req) (se : Session), granted s rq se 0x6200 0x19 .x = true → s.ssp.slave = false → s.ssp.xferBusy = false →
      chainOwned s = false →
      exec (.ssp1Xfer rq) s = .next (emit (.sspSend true (firstBits (xferLength s) s.ssp.xferTx))
        (modSsp (fun x => { x with xferBusy := true, xferRq := some rq }) (executing rq se s)))) ∧
    (∀ rq rx, s.ssp.xferBusy = true → s.ssp.xferRq = some rq →
      exec (.sspTransferEnd true rx) s = .next (answered rq stOk s.bell.number (modSsp (fun x => { x with
        xferBusy := false, xferRq := none, xferRx := firstBits (xferLength s) rx }) s)) ∧
      (s.ssp.chain = false → ∀ n, exec (.sspRdyTimeout true n rx) s =
        .next (answered rq stSspTimeout s.bell.number (modSsp (fun x => { x with
          xferBusy := false, xferRq := none, xferRx := firstBits (min n (xferLength s)) rx })
          (record evSspRdyTimeout 0 1 (modSsp (fun x => { x with errors := satAdd x.errors 1 }) s)))))) ∧
    (∀ n rx, exec (.sspRdyTimeout false n rx) s = .next (record evSspRdyTimeout 0 0
      (modSsp (fun x => { x with flashErrors := satAdd x.flashErrors 1 }) s))) ∧
    (isChainSlave s = true → isStage s = false →
      (s.ssp.selected = false → exec .chainSelect s = .next (modSsp (fun x => { x with
        selected := true, stage := (bitsOf (padTo 512 x.chainTx)).take x.chainBits.toNat }) s)) ∧
      (∀ di : List Bool, s.ssp.selected = true → s.ssp.stage.length = di.length →
        exec (.chainRelease di) s = .next (
          let t := emit (.sspSend true (bytesOf s.ssp.stage)) s
          if s.ssp.chainBits.toNat ≤ di.length then modSsp (fun x => { x with
            selected := false, stage := di, chainLatches := satAdd x.chainLatches 1, chainRx := bytesOf di }) t
          else modSsp (fun x => { x with selected := false, stage := di, errors := satAdd x.errors 1 }) t)))) ∧
  (∀ s : State, isCmdSlave s = true →
    (∀ (b : BitVec 7) (a : BitVec 16) (n : Nat), b.toNat < 4 →
      let size := if b = 0 then 64 else 2048
      ∃ l, exec (.ssp1CmdRead b a n) s = .next (emit (.sspSend true (sspStatus s :: 0 :: 0 :: l)) s) ∧ l.length = n ∧
        ∀ i, i < n → l[i]? = some (((sspBlock s b.toNat)[(a.toNat + i) % size]?).getD 0)) ∧
    (∀ (a : BitVec 16) (l : List Byte), l ≠ [] → a.toNat + l.length ≤ 2048 →
      ∃ r, exec (.ssp1CmdWrite 1 a l false) s = .next (modSsp (fun x => { x with request := r, submitHi := none }) s) ∧
        ∀ k < 2048, r[k]? = if a.toNat ≤ k ∧ k < a.toNat + l.length then l[k - a.toNat]?
          else (padTo 2048 s.ssp.request)[k]?) ∧
    (∀ hi lo : Byte, s.ssp.submitHi = none →
      exec (.ssp1CmdWrite 0 0x10 [hi, lo] false) s = exec (.ssp1Submit (hi ++ lo)) s) ∧
    (∀ n : BitVec 16, n ≠ 0 → n.toNat ≤ 2048 →
      (s.ssp.reqBusy = false → s.ssp.respReady = false → bootHalted s = false →
        exec (.ssp1Submit n) s = .next (modSsp (fun x => { x with
          reqBusy := true, requests := x.requests ++ [padTo n.toNat x.request] }) s)) ∧
      ((s.ssp.reqBusy = true ∨ s.ssp.respReady = true ∨ bootHalted s = true) →
        exec (.ssp1Submit n) s = .next (modSsp (fun x => { x with refused := true }) s))) ∧
    (∀ n : BitVec 16, (n = 0 ∨ 2048 < n.toNat) → ∃ t, exec (.ssp1Submit n) s = .next t ∧
      t.ssp.badLength = true ∧ t.ssp.reqBusy = s.ssp.reqBusy ∧ t.ssp.requests = s.ssp.requests) ∧
    exec .ssp1AckResponse s = .next (modSsp (fun x => { x with respReady := false, respLen := 0 }) s) ∧
    exec .ssp1AckNotice s = .next (modSsp (fun x => { x with notices := x.notices.drop 1 }) s) ∧
    exec .ssp1Frame s = .next (limited evSsp1Frame 0 1 (modSsp (fun x => { x with errors := satAdd x.errors 1 }) s)))

/-- R587 to R593, R598, R605, R703: a window read passes at once while the flash is idle and waits while it is not; a write or
erase begins with WREN, and is refused and recorded on a protected range; polling goes on while the flash is busy; a page that
reads back as programmed counts and stays programmed, one that does not is an error; a timeout stops programming. -/
def Obligations.FlashOperationsRunInOrder : Prop :=
  ∀ s : State,
    (s.ssp.op = none → s.ssp.ops = [] → s.ssp.writeBusy = false → ∀ a : BitVec 26,
      exec (.flashWindowRead a) s = .next (emit (.flashCmd (flashOpCmd (.read (a.toNat / 32 * 32)))) s) ∧
      (∀ l : List Byte, l ≠ [] → flashProtected s a.toNat l.length = false →
        let o := FlashOp.program a.toNat l .window
        exec (.flashWindowWrite a l) s = .next (emit (.flashCmd (flashOpCmd o)) (emit (.flashCmd [0x06])
          (modSsp (fun x => { x with op := some o }) s)))) ∧
      (∀ big : Bool,
        let n := if big then 65536 else 4096
        (a.toNat % n ≠ 0 → exec (.flashErase a big) s = .next s) ∧
        (a.toNat % n = 0 → flashProtected s a.toNat n = true →
          exec (.flashErase a big) s = .next (record evFlashRejected 0 (BitVec.ofNat 48 a.toNat) s)) ∧
        (a.toNat % n = 0 → flashProtected s a.toNat n = false →
          exec (.flashErase a big) s = .next (emit (.flashCmd (flashOpCmd (.erase a.toNat n))) (emit (.flashCmd [0x06])
            (modSsp (fun x => { x with op := some (.erase a.toNat n) }) s)))))) ∧
    (∀ o, s.ssp.op = some o →
      (∀ a : BitVec 26, exec (.flashWindowRead a) s =
        .next (modSsp (fun x => { x with ops := x.ops ++ [.read (a.toNat / 32 * 32)] }) s)) ∧
      (∀ (st : Byte) (l : List Byte), st.getLsbD 0 = true →
        exec (.flashStatusPoll st l) s = .next (emit (.flashCmd [0x05]) s))) ∧
    (∀ a l, s.ssp.op = some (.program a l .window) → s.ssp.ops = [] → s.store.waits = [] → s.ssp.writeBusy = false →
      (l.length ≤ 256 - a % 256 →
        exec (.flashStatusPoll 0 l) s = .next (modSsp (fun x => { x with
          flash := flashProgram x.flash a l, programs := satAdd x.programs 1, op := none })
            (emit (.flashCmd ([if a < 0x1000000 then 0x03 else 0x13] ++ flashAddr a)) (emit (.flashCmd [0x05]) s))) ∧
        ∀ m : List Byte, m.length = l.length → m ≠ l → ∃ t, exec (.flashStatusPoll 0 m) s = .next t ∧
          t.ssp.op = none ∧ t.ssp.programs = s.ssp.programs ∧ t.ssp.flashErrors = satAdd s.ssp.flashErrors 1) ∧
      ∃ t, exec .flashTimeout s = .next t ∧ t.ssp.writeBusy = true ∧ t.ssp.flashReady = false ∧ t.ssp.op = none ∧
        t.ssp.flashErrors = satAdd s.ssp.flashErrors 1 ∧ t.ssp.flash = s.ssp.flash)

/-! The field network (12). -/

/-- R615, R616, R661: a BEACON makes PLCA good at a follower, and a foreign one is a conflict at the coordinator; the loss of PLCA
is recorded; an opportunity sends the oldest frame that may leave, and while PLCA is not good none.
R617, R618, R623 to R625, R655, R659: duplicate address detection makes the address valid or fails; a solicitation of the own
address and an echo request are answered; ANNOUNCE bodies are kept, at most 64, the newest last, and expire. -/
def Obligations.FieldNetworkKeepsItsSegment : Prop :=
  (∀ s : State, fnetRuns s = true →
    (s.fnet.nodeId ≠ 0 →
      (∀ own, exec (.beaconReceived own) s = .next { s with fnet := { s.fnet with plcaOk := true } }) ∧
      (s.fnet.plcaOk = true →
        exec .fnetPlcaLost s = .next (record evFnetPlcaLost 0 0 { s with fnet := { s.fnet with plcaOk := false } })) ∧
      (s.fnet.plcaOk = false → exec .transmitOpportunity s = .next s)) ∧
    (s.fnet.nodeId = 0 →
      exec (.beaconReceived false) s =
        .next (limited evFnetPlcaConflict 0 1 { s with fnet := { s.fnet with conflict := true } }) ∧
      (s.fnet.enable = true →
        exec .plcaBeacon s = .next (emit .beacon { s with fnet := { s.fnet with plcaOk := true } }))) ∧
    ∀ o l, mayTransmit s = true → s.fnet.burstCount = 0 → s.fnet.txq = o :: l → frameReady s o = true →
      exec .transmitOpportunity s = .next (emit o { s with fnet := { s.fnet with txq := l } })) ∧
  (∀ s : State,
    (s.fnet.dadRunning = true →
      exec .dadComplete s = .next { s with fnet := { s.fnet with
        dadRunning := false, addrValid := true, txq := s.fnet.txq ++ [.mldReport] } } ∧
      exec .fnetDadFail s = .next (record evFnetDadFail 0 0 { s with fnet := { s.fnet with
        dadRunning := false, addrValid := false, dadFail := true } })) ∧
    (s.fnet.addrValid = true → ∀ src : BitVec 64,
      exec (.neighbourSolicitation src (ownIid s)) s = .next (enqueue (.neighbourAdvert src) s) ∧
      (∀ b, exec (.echoRequest src b) s = .next (enqueue (.echoReply src b) s)) ∧
      ∀ a, a ≠ ownIid s → exec (.neighbourSolicitation src a) s = .next s) ∧
    (announces s = true → s.boot.seeded = true →
      exec .announceTimer s = .next (enqueue (.multicast (announceBody s)) (drbgDraw s))) ∧
    (∀ (src : BitVec 64) (b : List Byte), fnetRuns s = true → b.length = 24 → ((b[23]?).getD 0).getLsbD 2 = false →
      s.fnet.neighbours.length ≤ 64 → ∃ l, l.length ≤ 63 ∧ (∀ n ∈ l, n ∈ s.fnet.neighbours ∧ n.iid ≠ src) ∧
        exec (.announce (.fnet src) b) s = .next { s with fnet := { s.fnet with neighbours := l ++ [⟨src, b⟩] } }) ∧
    ∀ src : BitVec 64, ∃ l, exec (.neighbourExpiry src) s = .next { s with fnet := { s.fnet with neighbours := l } } ∧
      ∀ n, n ∈ l ↔ n ∈ s.fnet.neighbours ∧ n.iid ≠ src)

/-- R628, R632: a HELLO opens a PUBLIC session with both counters at 1 and an ID that is not 0 and not in use; a 65th session is
refused with NO_SLOT; before the DRBG is seeded the HELLO waits.
R633, R634, R645, R646, Table 12-5: a credential that fits gives a PUBLIC session its role; one that does not is counted,
recorded and answered DENIED; KEEPALIVE is answered; CLOSE answers and closes; a session whose client is silent closes. -/
def Obligations.SessionsOpenAndClose : Prop :=
  (∀ (s : State) (p : Path) (b : List Byte), serving s = true → b.length = 113 →
    (64 ≤ s.fnet.sessions.length → exec (.hello p b) s = .next (refuse p stNoSlot s)) ∧
    (s.fnet.sessions.length < 64 → s.boot.seeded = false → exec (.hello p b) s =
      .next { s with boot := { s.boot with waiting := s.boot.waiting ++ [.hello p b] } }) ∧
    (s.fnet.sessions.length < 64 → s.boot.seeded = true → ∃ t se, exec (.hello p b) s = .next t ∧
      t.fnet.sessions = s.fnet.sessions ++ [se] ∧ se.id ≠ 0 ∧ (∀ x ∈ s.fnet.sessions, x.id ≠ se.id) ∧
      se.role = .pub ∧ se.path = p ∧ se.next = 1 ∧ se.dev = 1 ∧ se.subs = [] ∧ t.holdings = s.holdings ∧
      t.queues = s.queues ∧ t.bell = s.bell)) ∧
  (∀ (s : State) (rq : Req) (se : Session), accepts s rq se = true →
    let e := executing rq se s
    let say := fun st body t => respond rq opAuth st (Config.respType opAuth) s.bell.number body t
    (∀ (c : Cred) (r : Role), se.role = .pub → s.boot.revokePending = false → credRole c = some r →
      (c.serial = 0 ∨ c.serial = Config.serial) → c.epoch = epochOf s r →
      exec (.auth rq c true true) s = .next (say stOk [c.role, c.holding]
        (record evSessionOpen (roleOwner r) (sessionData r se.id) (modSession se.id (fun x => { x with role := r }) e)))) ∧
    (∀ (c : Cred) (sigOk proofOk : Bool), se.role = .pub → s.boot.revokePending = false → se.authFails < 2 →
      (sigOk = false ∨ proofOk = false ∨ credRole c = none) →
      exec (.auth rq c sigOk proofOk) s = .next (say stDenied [] (record evAuthFail 0
        (BitVec.ofNat 48 (c.role.toNat * 2 ^ 32 + se.id.toNat)) (modSession se.id (fun x => { x with
          authFails := se.authFails + 1 }) { e with fnet := { e.fnet with authFails := satAdd e.fnet.authFails 1 } })))) ∧
    exec (.keepalive rq) s =
      .next (respond rq opKeepalive stOk (Config.respType opKeepalive) s.bell.number [] e) ∧
    (∀ reason, ∃ t, exec (.close rq reason) s = .next t ∧ ∀ x ∈ t.fnet.sessions, x.id ≠ se.id) ∧
    exec (.sessionExpiry rq.sess) s = .next (closeSession se crExpired s))

/-- R647 to R649, R651: SUBSCRIBE takes an ID that the session does not use and names the first due bell, at most one period
ahead; UNSUBSCRIBE removes the subscription; when it falls due, the report waits for its path with the value of that bell, in
place of one not yet sent, which counts in SKIPPED. -/
def Obligations.SubscriptionsReportWhenDue : Prop :=
  (∀ (s : State) (rq : Req) (se : Session) (ix : BitVec 16) (sub : Byte) (period phase : BitVec 32),
    granted s rq se ix sub.toNat .r = true → subOk ix sub.toNat period.toNat phase.toNat = true →
    se.subs.length < 16 → subCount s < 256 → ∃ k, (∀ x ∈ se.subs, x.id ≠ k) ∧
      exec (.subscribe rq ix sub period phase) s =
        .next (respond rq opSubscribe stOk (typeByte opSubscribe ix sub.toNat) s.bell.number
          ([k] ++ beBytes 6 (firstDue s.bell.number.toNat period.toNat phase.toNat))
          (modSession se.id (fun y => { y with subs := y.subs ++ [⟨k, ix, sub, period, phase, none, 0⟩] })
            (draw (executing rq se s))))) ∧
  (∀ n period phase : Nat, phase < period → n + period < 2 ^ 48 →
    let b := firstDue n period phase
    n < b ∧ b ≤ n + period ∧ b % period = phase) ∧
  (∀ (s : State) (rq : Req) (se : Session) (k : Byte), accepts s rq se = true → se.subs.any (·.id == k) = true →
    exec (.unsubscribe rq k) s =
      .next (respond rq opUnsubscribe stOk (Config.respType opUnsubscribe) s.bell.number []
        (modSession se.id (fun y => { y with subs := y.subs.filter fun x => x.id != k }) (executing rq se s)))) ∧
  ∀ (s : State) (se : Session) (x : Subn) (id : BitVec 32), serving s = true → findSession s id = some se →
    se.subs.find? (·.id == x.id) = some x → s.bell.number.toNat % x.period.toNat = x.phase.toNat →
    checkEntry s se.role x.ix x.sub.toNat .r true true true = none → onFnet se.path = true →
    exec (.subscriptionDue id x.id) s = .next (modSub id x.id (fun y => { y with
      unsent := some (reportBody x stOk s.bell.number (entryBytes s se.role x.ix x.sub.toNat)),
      skipped := if y.unsent.isSome then satAdd y.skipped 1 else y.skipped }) s)

/-! The object dictionary (13). -/

/-- R637, R638, R666 to R674, R688, R732: a READ that the checks permit answers the length of the value and the value; a volatile
WRITE changes its entry and answers with the bell in progress; a request that a check fails is answered with its status and
changes nothing else; RNG.BYTES gives 48 fresh bytes, or NOT_READY before seeding.
R636, R641 to R644: a response changes the session, its path and what the path shows the host, and the Ledger when a session
closes with it; nothing else of the device. -/
def Obligations.RequestsPassTheChecks : Prop :=
  (∀ (s : State) (rq : Req) (se : Session) (ix : BitVec 16) (sub : Byte), accepts s rq se = true →
    let e := executing rq se s
    let n := sub.toNat
    (∀ a m, attrOf ix n = some a → isWhole a.ty = true → permits s rq se ix n .r = true →
      let b := entryBytes e se.role ix n
      exec (.read rq ix sub 0 m) s =
        .next (respond rq opRead stOk (typeByte opRead ix n) s.bell.number (beBytes 4 b.length ++ b) e)) ∧
    (∀ m st, checkEntry e se.role ix n .r true true true = some st →
      exec (.read rq ix sub 0 m) s = .next (refusedWith rq opRead st ix n e)) ∧
    (∀ a v, attrOf ix n = some a → permits s rq se ix n .w = true → writeLenOk ix n 0 a v = true →
      writeValOk e ix n a v = true → ownRow ix n = false → writeCond e ix n v = none → a.persistent = false →
      exec (.write rq ix sub 0 (BitVec.ofNat 8 (tyCode a.ty)) v) s =
        .next (written rq ix n s.bell.number (volatileWrite ix n 0 v e))) ∧
    (∀ a v off ty, attrOf ix n = some a → permits s rq se ix n .w = true → ty.toNat ≠ tyCode a.ty →
      exec (.write rq ix sub off ty v) s = .next (refusedWith rq opWrite stDenied ix n e)) ∧
    (permits s rq se 0x7030 2 .r = true →
      exec (.rngBytesRead rq) s = .next (
        let ty := typeByte opRead 0x7030 2
        let b := entryBytes e se.role 0x7030 2
        if s.boot.seeded then respond rq opRead stOk ty s.bell.number (beBytes 4 b.length ++ b) (drbgDraw e)
        else respond rq opRead stNotReady ty s.bell.number (beBytes 4 0) e))) ∧
  (∀ (rq : Req) (op st ty : Byte) (b : BellNo) (body : List Byte) (s : State),
    let t := respond rq op st ty b body s
    t = { s with fnet := t.fnet, host := t.host, ssp := t.ssp, fns := t.fns, ledger := t.ledger, out := t.out })

/-- R679, R681, R72, R635, R652, R654, R882: a write of a persistent entry that its checks allow goes to the Store, its value with
it; a bell period outside 250 to 10,000 is refused with RANGE and nothing is stored, and a manifest that a check of Table 18-2
refuses is answered with that check's status and recorded.
R680, R681, R690: a value that differs from the one in force is laid down as a record at the end of the open sector, with the
next sequence number, and the flash begins to program it; the response waits. A value that is already in force is answered at
once; a second write of the entry waits behind the first.
R38, R635, R654, R655, R680: when its record has been programmed a value takes effect and is answered: a UDP port at once, a
bell period at its edge, a MAC address with duplicate address detection, an epoch by closing the sessions it governs. -/
def Obligations.PersistentValuesGoThroughTheStore : Prop :=
  (∀ (s : State) (rq : Req) (se : Session),
    let e := executing rq se s
    let stored := fun (ix : BitVec 16) (sub : Nat) (v : Val) =>
      (Host.Outcome.next (persist rq ix sub se.role v e) : Res)
    (∀ v : BitVec 16, granted s rq se 0x2000 1 .w = true → 250 ≤ v.toNat → v.toNat ≤ 10000 →
      anyHolding s [.loading, .running, .quiesced, .dozing] = false → s.village.st = .none →
      exec (.bellPeriodWrite rq v) s = stored 0x2000 1 (.num v.toNat)) ∧
    (∀ v : BitVec 16, granted s rq se 0x2000 1 .w = true → (v.toNat < 250 ∨ 10000 < v.toNat) →
      exec (.bellPeriodWrite rq v) s = .next (refusedWith rq opWrite stRange 0x2000 1 e)) ∧
    (∀ v : Byte, granted s rq se 0x2000 3 .w = true → v.toNat ≤ 1 → s.village.st = .none →
      exec (.bellSourceWrite rq v) s = stored 0x2000 3 (.num v.toNat)) ∧
    (∀ v : BitVec 48, granted s rq se 0x6300 2 .w = true →
      exec (.fnetMacWrite rq v) s = stored 0x6300 2 (.num v.toNat)) ∧
    (∀ v : BitVec 16, granted s rq se 0x6300 3 .w = true → 1024 ≤ v.toNat →
      exec (.fnetUdpPortWrite rq v) s = stored 0x6300 3 (.num v.toNat)) ∧
    (∀ (k : Fin 5) (v : Byte), granted s rq se 0x6300 (4 + k.val) .w = true → (v ≠ 0 ∨ k = 0 ∨ k = 3) →
      exec (.plcaEntryWrite rq k v) s = stored 0x6300 (4 + k.val) (.num v.toNat)) ∧
    (∀ v : BitVec 32, granted s rq se 0x6300 0x10 .w = true →
      exec (.credEpochWrite rq 0 v) s = stored 0x6300 0x10 (.num v.toNat)) ∧
    (∀ (h : Fin 32) (v : BitVec 32), h ≠ 0 → granted s rq se (hix h 0x80) 1 .w = true →
      exec (.credEpochWrite rq h v) s = stored (hix h 0x80) 1 (.num v.toNat)) ∧
    ∀ b : List Byte, granted s rq se 0x7C00 2 .w = true → b ≠ [] → b.length ≤ 1024 →
      exec (.villageManifestWrite rq b true) s = match manifestRefusal e b true with
        | none => stored 0x7C00 2 (.bytes b)
        | some st => .next (respond rq opWrite st (typeByte opWrite 0x7C00 2) s.bell.number []
            (if st = stNotReady then e else record evManifestRejected 0 (datS 0 st 0) e))) ∧
  (∀ (s : State) (rq : Req) (ix : BitVec 16) (sub : Nat) (role : Role) (v : Val) (a : Area) (r : Attr),
    areaOf ix = some a → attrOf ix sub = some r →
    let ty := typeByte opWrite ix sub
    let b := valBytes r.ty v
    let c : StoreRec := ⟨0x5352, ix, BitVec.ofNat 8 sub, ty, s.store.nextSeq, b, s.store.openSector, true⟩
    let at_ := storeBase + 4096 * s.store.openSector + s.store.openUsed
    let o := FlashOp.program at_ (recordBytes c) (.store ⟨rq, c, v⟩)
    (entryPending s ix sub = true →
      persist rq ix sub role v s = modStore (fun x => { x with waits := x.waits ++ [⟨rq, ix, sub, role, v⟩] }) s) ∧
    (entryPending s ix sub = false → valBytes r.ty (entryVal s role a sub) = b →
      persist rq ix sub role v s = respond rq opWrite stOk ty s.bell.number [] s) ∧
    (entryPending s ix sub = false → valBytes r.ty (entryVal s role a sub) ≠ b → s.ssp.flashReady = true →
      s.store.failed = false → s.store.sectors ≠ [] → s.store.openUsed + recSize c ≤ 4096 →
      s.ssp.op = none → s.ssp.ops = [] → s.ssp.writeBusy = false →
      persist rq ix sub role v s = emit (.flashCmd (flashOpCmd o)) (emit (.flashCmd [0x06])
        { s with
          ssp := { s.ssp with op := some o }
          store := { s.store with
            nextSeq := s.store.nextSeq + 1, openUsed := s.store.openUsed + recSize c } }))) ∧
  (∀ (s : State) (w : StorePend),
    let x := valNum w.v
    let kept := fun (t : State) => modStore (fun y => { y with recs := y.recs ++ [w.record] }) t
    let say := fun (b : BellNo) (t : State) => respond w.rq opWrite stOk w.record.ty b [] t
    (w.record.ix = 0x6300 → w.record.sub = 3 → flashDone (.store w) s =
      say s.bell.number { kept s with fnet := { s.fnet with port := BitVec.ofNat 16 x } }) ∧
    (w.record.ix = 0x2000 → w.record.sub = 1 → noEdge s = false → 16 ≤ toEdge s → flashDone (.store w) s =
      say (s.bell.number + 1) { kept s with bell := { s.bell with
        pendPeriod := s.bell.pendPeriod ++ [(s.bell.edges + 1, BitVec.ofNat 16 x)] } }) ∧
    (w.record.ix = 0x6300 → w.record.sub = 2 → flashDone (.store w) s =
      startDad (say s.bell.number { kept s with fnet := { s.fnet with mac := BitVec.ofNat 48 x } })) ∧
    (w.record.ix = 0x6300 → w.record.sub = 0x10 →
      (flashDone (.store w) s).fnet.credEpoch = BitVec.ofNat 32 x ∧
      ∀ se ∈ (flashDone (.store w) s).fnet.sessions, se.role ≠ .operator ∧ se.role ≠ .maint))

/-- R685, R686, R800: a compaction of the oldest sector, when fewer than 8 are free, erases it once; when it holds no live record
nothing is copied. STORE.ERASE_ALL keeps only the records of the replay list. -/
def Obligations.StoreSpaceIsReclaimed : Prop :=
  (∀ (s : State) (i : Fin 1024), freeSectors s < 8 → oldestSector s = some i.val → s.ssp.flashReady = true →
    s.store.failed = false → s.store.waits = [] →
    (∀ r ∈ s.store.recs, r.sector = i.val → recLive s r = false) →
    ∃ t, exec (.storeCompact i) s = .next t ∧ (∀ x ∈ t.store.sectors, x.1 ≠ i.val) ∧
      (∀ r ∈ t.store.recs, r.sector ≠ i.val) ∧ t.ssp.erases = satAdd s.ssp.erases 1 ∧
      t.store.openSector = s.store.openSector ∧ t.store.openUsed = s.store.openUsed) ∧
  ∀ (s : State) (rq : Req) (se : Session), granted s rq se 0x1100 6 .x = true → s.ssp.flashReady = true →
    storeProgramming s = false →
    ∃ t, exec (.storeEraseAll rq) s = .next (answered rq stOk s.bell.number t) ∧
      (∀ r ∈ t.store.recs, r.tag = 0x5250) ∧ t.fnet = (executing rq se s).fnet ∧ t.bell = s.bell

/-! Boot and trust (14). -/

/-- R701, R702, R709 to R714, R747, R749, Table 14-4: with no valid slot directory a cold reset tries slot A and then slot B: the
first that passes boots, a rejected one makes it a fallback, and with none boot halts; key fuses that fail their check and a
device identity that does not verify halt it as well. The barrier and the releases follow in order; a section that fails
resets the device; a health check that finds every core ready and nothing to settle ends boot, any other resets the device. -/
def Obligations.BootGoesStepByStep : Prop :=
  ∀ s : State,
    (∀ x y : SlotScan, s.boot.phase = .atReset → s.pins.vreeve = true → s.pins.vaux18 = true →
      (fusesBad s = true → ∃ t, exec (.deviceColdReset x y) s = .next t ∧ t.boot.phase = .halted 2) ∧
      (fusesBad s = false → readDir s.ssp.flash 0 = none → readDir s.ssp.flash 0x1000 = none → s.boot.rejected = [] →
        ∃ t, exec (.deviceColdReset x y) s = .next t ∧
        if Config.identityOk s.boot.cold = true then
          (bootCheck s x = none → t.boot.phase = .romPassed ∧ t.boot.bootedB = false ∧ t.boot.fallback = false ∧
            t.boot.fw = x.fwVersion ∧ t.boot.rejected = []) ∧
          (∀ e, bootCheck s x = some e →
            (bootCheck s y = none → t.boot.phase = .romPassed ∧ t.boot.bootedB = true ∧ t.boot.fallback = true ∧
              t.boot.fw = y.fwVersion ∧ t.boot.rejected = [(false, e)]) ∧
            (∀ f, bootCheck s y = some f → t.boot.phase = .halted 0 ∧ t.boot.rejected = [(false, e), (true, f)]))
        else t.boot.phase = .halted 1)) ∧
    (s.boot.phase = .romPassed → exec .barrierRelease s = .next (modBoot (fun b => { b with phase := .released }) s)) ∧
    (∀ (c : Fin 4) (d : Digest), s.boot.phase = .released → s.boot.cores[c].released = false → lowerReleased s c = true →
      (∃ t, exec (.coreRelease c true d) s = .next t ∧
        t.boot.cores[c] = { s.boot.cores[c] with released := true, ready := true } ∧
        (∀ k, k ≠ c → t.boot.cores[k] = s.boot.cores[k]) ∧ t.boot.phase = .released ∧
        t.boot.m = (extendM 2 d (if c = 0 then eachOf s.boot.s3 (extendM 3) s else s)).boot.m) ∧
      ∃ t, exec (.coreRelease c false d) s = .next t ∧ t.boot.phase = .atReset) ∧
    (s.boot.phase = .released →
      ((∀ c : Fin 4, s.boot.cores[c].ready = true) → s.store.ready = true → s.boot.bootTrial = false →
        s.boot.fallback = false → s.boot.dir0.isSome = true → s.boot.dir1.isSome = true →
        (curDir s).activeB = s.boot.bootedB → s.boot.bootRollback.toNat ≤ rollbackRun s.boot.thermo →
        exec (.bootHealthCheck 0) s = .next (record evBootDone 0 (slotDat s.boot.bootedB s.boot.fw.toNat)
          (modBoot (fun b => { b with phase := .running }) s))) ∧
      ∀ n : BitVec 4, n &&& 0xE ≠ 0 → ∃ t, exec (.bootHealthCheck n) s = .next t ∧ t.boot.phase = .atReset)

/-- R707, R718 to R726, R739, R740: a page packet out of order or form is rejected and recorded, the next in order is written to
the inactive slot; BOOT.UPDATE verifies that slot and puts it on trial, or marks it BAD; KEY.ROTATE commits the next
generation, revokes the one in force and closes every session with a role. -/
def Obligations.SlotsAndKeysAreRenewed : Prop :=
  (∀ (s : State) (q : Fin 256) (l : List Item), slotQueue s = some q → serving s = true →
    frontPacket s.queues[q] = some l →
    let t := takePacket q l.length s
    let rejected := record evSlotWriteReject 0 (BitVec.ofNat 48 (packetOffset l)) t
    (pagePacket l = false → exec (.slotWriterPacket l) s = .next rejected) ∧
    (pagePacket l = true → packetOffset l ≠ 0 →
      (s.boot.writing = false ∨ packetOffset l ≤ s.boot.lastOffset) → exec (.slotWriterPacket l) s = .next rejected) ∧
    (pagePacket l = true → s.boot.lastOffset < packetOffset l → s.boot.writing = true →
      stOf (curDir s) (!s.boot.bootedB) = .writing →
      exec (.slotWriterPacket l) s = .next (writePage (packetOffset l) (pageBytes (l.drop 1)) t) ∧
      (writePage (packetOffset l) (pageBytes (l.drop 1)) t).boot.lastOffset = packetOffset l)) ∧
  (∀ (s : State) (rq : Req) (se : Session) (x : SlotScan), granted s rq se 0x7000 7 .x = true →
    slotWriterBusy s = false → s.ssp.writeBusy = false → (curDir s).seq ≠ BitVec.allOnes 32 →
    let other := !s.boot.bootedB
    stOf (curDir s) other ≠ .empty →
    (updateCheck s x = none → ∃ t, exec (.bootUpdate rq x) s = .next (answered rq stOk s.bell.number t) ∧
      (curDir t).trial = true ∧ stOf (curDir t) other = .verified ∧ (curDir t).seq = (curDir s).seq + 1 ∧
      (curDir t).activeB = (curDir s).activeB) ∧
    (∀ e, updateCheck s x = some e → e ≠ stTruncated → ∃ t,
      exec (.bootUpdate rq x) s = .next (answered rq e s.bell.number t) ∧ stOf (curDir t) other = .bad ∧
      (curDir t).trial = (curDir s).trial)) ∧
  ∀ (s : State) (rq : Req) (se : Session) (d : Digest), granted s rq se 0x7020 4 .x = true →
    rotateRefusal true (executing rq se s) = none →
    ∃ t, exec (.keyRotate rq d true) s = .next t ∧
      t.boot.gens[Fin.ofNat 8 (topGen s + 1)] = ⟨d, true, true, true, true, false⟩ ∧
      t.boot.gens[rootGen s].revoke = true ∧ ∀ x ∈ t.fnet.sessions, x.role = .pub

/-- R729 to R734, R744, R946 to R948: the first good block of samples is the start-up test, the next seeds the DRBG; a bad block
stops it and counts; ATTEST.RUN leaves a report once seeded, and waits before; what has waited 50 ms is refused with ENTROPY.
A lost core is one DEVICE_FATAL fault, a second loss within 10 s or a failed restart resets the device. -/
def Obligations.EntropyAndCoresAreWatched : Prop :=
  ∀ s : State,
    (entropyRuns s = true →
      (∀ l, s.boot.seeded = false → samplesPass l = true → s.boot.startTest = false →
        exec (.entropyBlock l) s = .next (modBoot (fun b => { b with startTest := true }) s)) ∧
      (∀ l, s.boot.seeded = false → samplesPass l = true → s.boot.startTest = true → s.boot.waiting = [] →
        exec (.entropyBlock l) s = .next (modBoot (fun b => { b with seeded := true, generates := 0, waiting := [] }) s)) ∧
      (∀ l, s.boot.seeded = true → samplesPass l = true →
        exec (.drbgReseed l) s = .next (modBoot (fun b => { b with generates := 0 }) s)) ∧
      (∀ l, samplesPass l = false → s.boot.seeded = true → exec (.drbgReseed l) s = exec .rngHealthFail s) ∧
      exec .rngHealthFail s = .next (record evRngHealthFail 0 ((satAdd s.boot.fails 1).setWidth 48)
        (modBoot (fun b => { b with
          seeded := false, startTest := false, healthFail := true, fails := satAdd b.fails 1, generates := 0 }) s))) ∧
    (∀ (rq : Req) (se : Session) (nonce : BitVec 256), granted s rq se 0x7040 1 .x = true →
      let e := executing rq se s
      (s.boot.seeded = true →
        exec (.attestRun rq nonce) s = .next (answered rq stOk s.bell.number (attest se.role nonce e))) ∧
      (s.boot.seeded = false → exec (.attestRun rq nonce) s =
        .next (modBoot (fun b => { b with waiting := b.waiting ++ [.attest rq nonce] }) e))) ∧
    (∀ p b l, s.boot.waiting = .hello p b :: l →
      exec .entropyWaitExpiry s = .next (refuse p stEntropy (modBoot (fun x => { x with waiting := l }) s))) ∧
    (∀ c : Fin 4, s.boot.cores[c].released = true → s.boot.cores[c].lost = false →
      (s.boot.cores[c].lostAt = none → ∃ t, exec (.reeveCoreLost c) s = .next t ∧ t.boot.cores[c].lost = true ∧
        t.dev.fatal = true ∧ t.dev.faults = s.dev.faults + 1 ∧ (c = 3 → t.boot.seeded = false)) ∧
      (∀ k, s.boot.cores[c].lostAt = some k → s.bell.now < k + 12500000000 → ∃ t,
        exec (.reeveCoreLost c) s = .next t ∧ t.boot.phase = .atReset)) ∧
    ∀ c : Fin 4, s.boot.cores[c].lost = true →
      (∃ t, exec (.coreRestartDone c true) s = .next t ∧ t.boot.cores[c].lost = false ∧
        (∀ k, k ≠ c → t.boot.cores[k] = s.boot.cores[k]) ∧ t.queues = s.queues ∧ t.holdings = s.holdings) ∧
      ∃ t, exec (.coreRestartDone c false) s = .next t ∧ t.boot.phase = .atReset ∧ t.ssp.flash = s.ssp.flash

/-! Images (15). -/

/-- R767 to R773, R777, R779, R782, R787, Table 15-7: LOAD that the checks allow waits for the edge at which LOADING begins; the
verdict on the signature lets the load go on or ends it; a chunk joins the stream and its response waits until it has been
taken; the loader takes what the stream holds up to the header, whose mismatch ends the load; 65,536 bells without a byte end
it with TRUNCATED. -/
def Obligations.LoadsRunTheirSteps : Prop :=
  (∀ (s : State) (rq : Req) (se : Session) (h : Fin 32), granted s rq se (hix h 0xA0) 1 .x = true →
    let e := executing rq se s
    (loadRefusal e h = none → exec (.holdingLoad rq h) s =
      .next (addTrans h .load none { e with load := some (newLoad e h rq) }).1) ∧
    (∀ st, loadRefusal e h = some st → exec (.holdingLoad rq h) s =
      .next (refusedWith rq opInvoke st (hix h 0xA0) 1 e))) ∧
  (∀ (s : State) (l : Load), s.load = some l → l.begun = true → l.step = 1 → s.boot.revokePending = false →
    exec (.signatureVerified true) s =
      .next { s with load := some { l with step := 2, lastProgress := s.bell.edges } } ∧
    exec (.signatureVerified false) s = .next (failLoad stSignature false s)) ∧
  (∀ (s : State) (rq : Req) (se : Session) (h : Fin 32) (l : Load) (b : List Byte),
    granted s rq se (hix h 0xA0) 3 .w = true → s.load = some l → l.chunk = true → l.h = h → b ≠ [] → b.length ≤ 1024 →
    exec (.holdingImageChunkWrite rq h b) s = .next { executing rq se s with load := some { l with
      avail := l.avail ++ b, chunks := l.chunks ++ [(rq, l.taken.length + l.avail.length + b.length)],
      lastProgress := s.bell.edges } }) ∧
  (∀ (s : State) (l : Load) (n : Nat), s.load = some l → l.chunk = true → l.begun = true → l.step = 0 →
    (l.taken.length + l.avail.length < 352 → l.avail ≠ [] → l.ended = false → l.chunks = [] →
      exec (.imageBytesTaken n) s = .next (modHolding l.h (fun x => { x with
          loadBytes := BitVec.ofNat 32 (l.taken.length + l.avail.length) })
        { s with load := some { l with
          taken := l.taken ++ l.avail, avail := [], lastProgress := s.bell.edges } })) ∧
    (l.taken.length = 352 → headerOk s l = false → ∃ t, exec (.imageBytesTaken n) s = .next t ∧
      t = failLoad stMismatch false s ∧ t.load = none)) ∧
  ∀ (s : State) (l : Load), s.load = some l → l.begun = true → l.step < 8 → loaderWaits s l = false →
    l.lastProgress + 65536 ≤ s.bell.edges →
    exec .loadStall s = .next (failLoad stTruncated false s)

/-! Background work, self-test and villages (16 to 18). -/

/-- R792 to R797, R804, R807 to R809, R820, R822, R989, Table 16-4: the configuration scrub corrects a word with one wrong bit and
counts it, and faults the owner of one with two; a record is written to the next slot of a good page and counted for its
owner; a last-gasp clear empties the latch and is recorded; a trim moves one step when the voltage is 3 mV or more off; a Plot
at 1,512 trips. -/
def Obligations.BackgroundWorkIsDone : Prop :=
  ∀ s : State,
    (∀ p : Fin 64, configScrubbed s p = true →
      let x := s.plots[p]
      let a := cfgPlace x.scrubWord
      let f := secRead (memGet x.config a)
      let on := fun m => modPlot p (fun x => { x with config := m, scrubWord := (x.scrubWord + 1) % 16464 }) s
      (f.ce = false → f.ue = false → exec (.configScrubWord p) s = .next (on x.config)) ∧
      (f.ce = true → exec (.configScrubWord p) s =
        .next (limited evConfigCe p.val 1 (on (memSet x.config a (secWord f.data))))) ∧
      (f.ce = false → f.ue = true → exec (.configScrubWord p) s =
        .next (setUnfit p (record evConfigUe x.owner (BitVec.ofNat 48 (p.val * 2 ^ 40 + a)) (on x.config))))) ∧
    (∀ r l, s.ledger.intake = r :: l → s.ledger.lostRecs = 0 → s.ledger.lostPages.contains (s.ledger.pos / 256) = false →
      let o : Fin 32 := Fin.ofNat 32 r.owner.toNat
      exec (.ledgerRecordWrite false) s = .next { s with ledger := { s.ledger with
        intake := l, pages := memSet s.ledger.pages s.ledger.pos (ledgerSlot r), pos := (s.ledger.pos + 1) % 16384,
        written := s.ledger.written.set o (s.ledger.written[o] + 1) } }) ∧
    (gleanerRuns s = true → memWf s.ledger.pages = true → (∀ e ∈ s.ledger.pages, slotUe e.2 = false) →
      ∃ m, exec .ledgerScrub s = .next { s with ledger := { s.ledger with pages := m } } ∧
        (∀ e ∈ s.ledger.pages, memGet m e.1 = slotCorrected e.2) ∧
        ∀ k, (∀ e ∈ s.ledger.pages, e.1 ≠ k) → memGet m k = 0) ∧
    (∀ (rq : Req) (se : Session), granted s rq se 0x7800 6 .x = true →
      exec (.ledgerLastGaspClear rq) s = .next (answered rq stOk s.bell.number
        (record evLastGaspCleared 0 (BitVec.ofNat 48 (min s.ledger.gaspCount 0xFFFF)) { executing rq se s with
          ledger := { s.ledger with gasp := Vector.replicate 8 0, gaspCount := 0 } }))) ∧
    (∀ (p : Fin 64) (mv : BitVec 16), s.plots[p].regOn = true → s.plots[p].ramping = false → s.plots[p].owner = 0 →
      gleanerRuns s = true →
      exec (.regulatorTrim p mv) s = .next (modPlot p (fun x => { x with
        voltMv := mv,
        refSteps := if mv.toNat + 3 ≤ x.target then x.refSteps + 1
          else if x.target + 3 ≤ mv.toNat then x.refSteps - 1 else x.refSteps }) s)) ∧
    (∀ v : Sensors, ∃ t, exec (.sensorSample v) s = .next t ∧ t.tele.package = v.package ∧ t.tele.vinMa = v.vinMa ∧
      (∀ p : Fin 64, t.plots[p].temp = v.plotTemp[p] ∧ t.plots[p].owner = s.plots[p].owner) ∧
      ∀ q : Fin 256, t.queues[q] = s.queues[q]) ∧
    ∀ p : Fin 64, s.plots[p].regOn = true → 1512 ≤ s.plots[p].temp.toNat → s.plots[p].owner = 0 → ∃ t,
      exec (.thermalTrip p) s = .next t ∧ t.plots[p].regOn = false ∧ t.plots[p].tripped = true ∧
      t.plots[p].unfit = true ∧ t.plots[p].voltMv = 0 ∧ ∀ k, k ≠ p → t.plots[k] = s.plots[k]

/-- R829 to R833, R841, R846, R855 to R857, R863, R864: a shut-down that nothing forbids is accepted, turns every lane OFF and
answers later; with the test not enabled the shut state follows when every Holding is EMPTY or kept; a unit of the test that
passes is charged and counted; the run record ends the slice in the shut state; fuse repair blows the pending repairs. -/
def Obligations.ShutDownTestsAndRepairs : Prop :=
  ∀ s : State,
    (∀ (rq : Req) (se : Session), granted s rq se 0x7900 3 .x = true → shutdownRefusal s = none → ∃ t,
      exec (.selftestShutdown rq) s = .next t ∧ t.test.accepted = true ∧ t.test.rq = some rq ∧
      ∀ l : Fin 48, t.lanes[l].st = .off) ∧
    (s.test.accepted = true → s.test.shut = false → s.test.slice = none → allKept s = true →
      (∀ rq, s.test.enable = false → s.test.rq = some rq →
        exec .selftestStart s = .next (answered rq stOk s.bell.number
          (modTest (fun t => { t with shut := true, rq := none, slice := none }) s))) ∧
      (s.test.enable = true → ∃ t x, exec .selftestStart s = .next t ∧ t.test.slice = some x ∧
        x.budget = 1000 * s.test.sliceMs.toNat ∧ t.test.shut = false)) ∧
    (∀ x k, s.test.slice = some x → x.current = some k → x.abandon = false → x.kept = false → ∃ t y,
      exec (.testUnitEnd .pass) s = .next t ∧ t.test.slice = some y ∧ y.passed = x.passed + 1 ∧
      y.failed = x.failed ∧ y.charged = x.charged + unitCharge s k ∧ k ∈ y.passes) ∧
    (∀ x rq, s.test.slice = some x → x.done = true → (∀ p : Fin 64, s.plots[p].clearing = false) → s.test.rq = some rq →
      ∃ t, exec (.runRecord true true) s = .next (answered rq stOk s.bell.number t) ∧ t.test.shut = true ∧
        t.test.slice = none ∧ t.test.coverage = BitVec.ofNat 32 x.pos ∧ t.test.runSeq = s.test.runSeq + 1) ∧
    ∀ (rq : Req) (se : Session), granted s rq se 0x7900 7 .x = true → fuseRefusal s = none → ∃ t,
      exec (.selftestFuseRepair rq) s = .next (answered rq stOk s.bell.number t) ∧
      t.test.fuses = s.test.fuses ++ s.test.pendingRepairs ∧ t.test.pendingRepairs = []

/-- R886 to R890, R895, R904, R912, Table 18-5: VILLAGE.LEAVE asks a village member to leave at its next muster; the chain master
begins a muster four edges after a muster edge; each step sends the word in the register and latches the word that comes in;
after 16 steps the muster is judged; a slew ends after its last bell; 2,048 bells without a step 0 lead back to JOINING. -/
def Obligations.MustersRunTheirSteps : Prop :=
  ∀ s : State,
    (∀ (rq : Req) (se : Session), granted s rq se 0x7C00 8 .x = true →
      exec (.villageLeave rq) s = .next (answered rq stOk s.bell.number
        (modVillage (fun v => { v with leave := v.st != .none }) (executing rq se s)))) ∧
    (isStage s = true → s.ssp.slave = false → s.village.inMuster = false → s.village.musterEdge ≠ 0 →
      s.bell.edges = s.village.musterEdge + 4 → ∃ t, exec .musterStart s = .next t ∧
      t.village.inMuster = true ∧ t.village.step = 0 ∧ t.village.words = [] ∧ t.village.reg = t.village.own ∧
      t.village.inForce = s.village.manifest ∧ t.village.lastStep0 = s.bell.edges ∧ t.out = .musterSelect :: s.out) ∧
    (isStage s = true → s.ssp.slave = false → s.village.inMuster = true → s.village.step < 16 → ∀ w : BitVec 256,
      exec (.musterStep w) s = .next (modVillage (fun v => { v with
        reg := w, step := v.step + 1, words := v.words ++ [w] })
          (emit (.sspSend true (beBytes 32 s.village.reg.toNat)) s))) ∧
    (s.village.inMuster = true → s.village.step = 16 →
      exec .musterComplete s = .next (modVillage (fun v => { v with
        inMuster := false, words := [], verdict := v.words, verdictOwn := v.own, judged := some s.bell.now,
        musters := if v.words.contains v.own then satAdd v.musters 1 else v.musters }) s)) ∧
    (s.village.slewing = true → s.village.slewLeft = 0 →
      exec .slewEnd s = .next (modVillage (fun v => { v with slewing := false }) s)) ∧
    (inVillage s = true → s.village.lastStep0 + 2048 ≤ s.bell.edges → ∃ l,
      exec .musterSilence s = .next { modVillage (fun v => { v with
        st := .joining, joined := false, misses := 0, resync := false }) s with ledger := l })

/-! Supplies, pins and boundary scan (20). -/

/-- R960, R964, R992 to R999, Table 20-6: a supply that becomes good with both supplies of the regulators good already changes
nothing else; VREEVE or VAUX18 that fails, and PORST_N low for 0.5 µs, reset the device and keep its flash; VGRAN that fails
loses every bank; any of four failing supplies clears CORE_POWER_GOOD; MAINT_N counts after 1 ms.
R976 to R979, Tables 20-4 and 20-10: IDCODE sends 0x14896A3D, least significant bit first; the instructions that hold the pins
do so while MAINT_N is low and act as BYPASS while it is high; BANKCFG keeps the standards that each bank allows. -/
def Obligations.SuppliesPinsAndTapAct : Prop :=
  (∀ s : State,
    (∀ u : Supply, isGood s.pins u = false → suppliesForPlots s = true →
      exec (.supplyGood u) s = .next (modPins (fun x => setGood true x u) s)) ∧
    (∀ u : Supply, isGood (setGood true s.pins u) u = true ∧ isGood (setGood false s.pins u) u = false) ∧
    (∀ u : Supply, isGood s.pins u = true →
      ((u = .vreeve ∨ u = .vaux18) → ∃ t, exec (.supplyFail u) s = .next t ∧ t.boot.phase = .atReset ∧
        t.ssp.flash = s.ssp.flash ∧ t.boot.thermo = s.boot.thermo ∧ t.test.fuses = s.test.fuses ∧ t.fnet.sessions = []) ∧
      ((u = .vsd ∨ u = .vsdt ∨ u = .vgran ∨ u = .vinIvr) → ∃ t, exec (.supplyFail u) s = .next t ∧
        t.pins.corePowerGood = false ∧ isGood t.pins u = false ∧ t.boot.phase = s.boot.phase) ∧
      (u = .vgran → ∃ t, exec (.supplyFail u) s = .next t ∧ ∀ p : Fin 64,
        t.banks[p].mem = [] ∧ t.banks[p].cleared = false ∧ t.banks[p].win = [] ∧ t.plots[p].regOn = false) ∧
      ((u = .vfuse ∨ ∃ b, u = .vccio b) → exec (.supplyFail u) s = .next (modPins (fun x => setGood false x u) s))) ∧
    (s.pins.vsd = true → s.pins.vsdt = true → s.pins.vgran = true → s.pins.vinIvr = true →
      exec .corePowerGood s = .next (modPins (fun x => { x with corePowerGood := true }) s)) ∧
    (∀ n : Nat, (n < 500 → exec (.porstNLow n) s = .next s) ∧
      (500 ≤ n → ∃ t, exec (.porstNLow n) s = .next t ∧ t.boot.phase = .atReset ∧ t.ssp.flash = s.ssp.flash)) ∧
    ∀ (low : Bool) (us : Nat), exec (.maintNChange low us) s =
      .next (if 1000 ≤ us then modPins (fun x => { x with maintLow := low }) s else s)) ∧
  (∀ s : State,
    let tap := fun (f : Tap → Tap) => ({ s with pins := { s.pins with tap := f s.pins.tap } } : State)
    let low := s.pins.maintLow
    let holds := fun (c : Instr) (op : Byte) =>
      exec c s = .next (if low then emit (.pinDrive op s.pins.tap.boundary) (tap fun t => { t with ir := op })
        else tap fun t => { t with ir := 0xFF })
    (∃ bits : List Bool, bits.length = 32 ∧ ofBits bits = 0x14896A3D ∧
      exec .idcode s = .next (emit (.tdo bits) (tap fun t => { t with ir := 0x01 }))) ∧
    (∀ v, exec (.samplePreload v) s = .next (tap fun t => { t with ir := 0x02, boundary := v })) ∧
    holds .extest 0x03 ∧ holds .highz 0x04 ∧ holds .clamp 0x05 ∧ holds .extestPulse 0x06 ∧ holds .extestTrain 0x07 ∧
    (∀ v : BitVec 32, ∃ w, exec (.bankcfg v) s = .next (tap fun t => { t with ir := 0x10, bankcfg := w }) ∧
      ∀ k < 8,
        let asked := v.toNat / 16 ^ k % 16
        w.toNat / 16 ^ k % 16 = if asked = 1 ∨ asked = 2 then (if k < 4 then asked else 0)
          else if asked = 3 then (if k < 4 then 0 else 3) else 0) ∧
    (∀ op, exec (.bypass op) s = .next (tap fun t => { t with ir := 0xFF })) ∧
    exec .tapReset s = .next (tap fun t => { t with ir := 0x01 }))

/-! Invariants. -/

/-- R44, R45, R74, R293: no command makes a slot map, in force, derived or scheduled, hold a value that Table 02-3 does not allow;
a state at rest or between commands keeps it too. -/
def Obligations.SlotMapsStayLegal : Prop :=
  ∀ s t : State, slotsLegal s = true → step s = .next t → slotsLegal t = true

/-- R42, R45: at reset every map is legal, all memory is in its canonical form, no command waits and every programmable map is the
default one. -/
def Obligations.ResetMeetsTheInvariants : Prop :=
  slotsLegal State.reset = true ∧ State.reset.pending = [] ∧ State.reset.bell.number = 0 ∧
    State.reset.bell.period = 625 ∧ memWf State.reset.ssp.flash = true ∧
    (∀ p : Fin 64, memWf State.reset.banks[p].mem = true ∧ memWf State.reset.plots[p].config = true ∧
      memWf State.reset.plots[p].binMem = true) ∧
    ∀ (m : Fin 18) (j : Fin 16), (State.reset.slots.maps[m])[j] = if j = 15 then 0xFE else 0x00
end

