-- ==== Sys2Proof/Decode.lean ====
section
/-! DEFINITION. Words that spell commands. The spec's table of operations and events gives no row any bits: its rows are
reached as operations and events, never as encoded words. -/

namespace Sys2Proof

/-- No row of the table has an encoding, so no word spells a command. -/
def decodeTableWord (_nbits _w : Nat) : Option Instr := none

end Sys2Proof
end

