-- ==== Sys2Proof/Laws/State.lean ====
section
/-! SUPPORT. The small lemmas of the state's updates: for each update one lemma per field, and reading an element after an
update of the same or of another one. -/

namespace Sys2Proof.Machine

/-! An indexed update. -/

@[simp] theorem upd_same {α : Type} {n : Nat} (v : Vector α n) (i : Fin n) (f : α → α) :
    (upd v i f)[i.val] = f v[i.val] := by
  simp [upd]

theorem upd_other {α : Type} {n : Nat} (v : Vector α n) (i j : Fin n) (f : α → α) (h : j ≠ i) :
    (upd v i f)[j.val] = v[j.val] := by
  have : i.val ≠ j.val := fun e => h (Fin.ext e.symm)
  simp [upd, this]

theorem upd_get {α : Type} {n : Nat} (v : Vector α n) (i j : Fin n) (f : α → α) :
    (upd v i f)[j.val] = if j = i then f v[j.val] else v[j.val] := by
  by_cases h : j = i
  · subst h; simp
  · simp only [h, if_false, upd_other v i j f h]

/-- An update that leaves the element as it is. -/
theorem upd_id {α : Type} {n : Nat} (v : Vector α n) (i : Fin n) (f : α → α) (h : f v[i] = v[i]) : upd v i f = v := by
  unfold upd; rw [h]; simp

@[simp] theorem upd_upd {α : Type} {n : Nat} (v : Vector α n) (i : Fin n) (f g : α → α) :
    upd (upd v i f) i g = upd v i fun x => g (f x) := by
  simp [upd]

/-! modPlot. -/

@[simp] theorem modPlot_plots (p : Fin 64) (f : Plot → Plot) (s : State) :
    (modPlot p f s).plots = upd s.plots p f := rfl
@[simp] theorem modPlot_modPlot (p : Fin 64) (f g : Plot → Plot) (s : State) :
    modPlot p f (modPlot p g s) = modPlot p (fun x => f (g x)) s := by
  simp [modPlot]
theorem modPlot_id (p : Fin 64) (f : Plot → Plot) (s : State) (hf : f s.plots[p] = s.plots[p]) : modPlot p f s = s := by
  unfold modPlot; rw [upd_id _ _ _ hf]
@[simp] theorem modPlot_bell (p : Fin 64) (f : Plot → Plot) (s : State) : (modPlot p f s).bell = s.bell := rfl
@[simp] theorem modPlot_slots (p : Fin 64) (f : Plot → Plot) (s : State) : (modPlot p f s).slots = s.slots := rfl
@[simp] theorem modPlot_banks (p : Fin 64) (f : Plot → Plot) (s : State) : (modPlot p f s).banks = s.banks := rfl
@[simp] theorem modPlot_scrubS (p : Fin 64) (f : Plot → Plot) (s : State) : (modPlot p f s).scrubS = s.scrubS := rfl
@[simp] theorem modPlot_binScrubS (p : Fin 64) (f : Plot → Plot) (s : State) : (modPlot p f s).binScrubS = s.binScrubS := rfl
@[simp] theorem modPlot_queues (p : Fin 64) (f : Plot → Plot) (s : State) : (modPlot p f s).queues = s.queues := rfl
@[simp] theorem modPlot_qstore (p : Fin 64) (f : Plot → Plot) (s : State) : (modPlot p f s).qstore = s.qstore := rfl
@[simp] theorem modPlot_holdings (p : Fin 64) (f : Plot → Plot) (s : State) : (modPlot p f s).holdings = s.holdings := rfl
@[simp] theorem modPlot_hedges (p : Fin 64) (f : Plot → Plot) (s : State) : (modPlot p f s).hedges = s.hedges := rfl
@[simp] theorem modPlot_breaches (p : Fin 64) (f : Plot → Plot) (s : State) : (modPlot p f s).breaches = s.breaches := rfl
@[simp] theorem modPlot_snap (p : Fin 64) (f : Plot → Plot) (s : State) : (modPlot p f s).snap = s.snap := rfl
@[simp] theorem modPlot_rings (p : Fin 64) (f : Plot → Plot) (s : State) : (modPlot p f s).rings = s.rings := rfl
@[simp] theorem modPlot_fns (p : Fin 64) (f : Plot → Plot) (s : State) : (modPlot p f s).fns = s.fns := rfl
@[simp] theorem modPlot_host (p : Fin 64) (f : Plot → Plot) (s : State) : (modPlot p f s).host = s.host := rfl
@[simp] theorem modPlot_quads (p : Fin 64) (f : Plot → Plot) (s : State) : (modPlot p f s).quads = s.quads := rfl
@[simp] theorem modPlot_lanes (p : Fin 64) (f : Plot → Plot) (s : State) : (modPlot p f s).lanes = s.lanes := rfl
@[simp] theorem modPlot_cvus (p : Fin 64) (f : Plot → Plot) (s : State) : (modPlot p f s).cvus = s.cvus := rfl
@[simp] theorem modPlot_gates (p : Fin 64) (f : Plot → Plot) (s : State) : (modPlot p f s).gates = s.gates := rfl
@[simp] theorem modPlot_ssp (p : Fin 64) (f : Plot → Plot) (s : State) : (modPlot p f s).ssp = s.ssp := rfl
@[simp] theorem modPlot_fnet (p : Fin 64) (f : Plot → Plot) (s : State) : (modPlot p f s).fnet = s.fnet := rfl
@[simp] theorem modPlot_store (p : Fin 64) (f : Plot → Plot) (s : State) : (modPlot p f s).store = s.store := rfl
@[simp] theorem modPlot_boot (p : Fin 64) (f : Plot → Plot) (s : State) : (modPlot p f s).boot = s.boot := rfl
@[simp] theorem modPlot_load (p : Fin 64) (f : Plot → Plot) (s : State) : (modPlot p f s).load = s.load := rfl
@[simp] theorem modPlot_ledger (p : Fin 64) (f : Plot → Plot) (s : State) : (modPlot p f s).ledger = s.ledger := rfl
@[simp] theorem modPlot_tele (p : Fin 64) (f : Plot → Plot) (s : State) : (modPlot p f s).tele = s.tele := rfl
@[simp] theorem modPlot_test (p : Fin 64) (f : Plot → Plot) (s : State) : (modPlot p f s).test = s.test := rfl
@[simp] theorem modPlot_village (p : Fin 64) (f : Plot → Plot) (s : State) : (modPlot p f s).village = s.village := rfl
@[simp] theorem modPlot_dev (p : Fin 64) (f : Plot → Plot) (s : State) : (modPlot p f s).dev = s.dev := rfl
@[simp] theorem modPlot_pins (p : Fin 64) (f : Plot → Plot) (s : State) : (modPlot p f s).pins = s.pins := rfl
@[simp] theorem modPlot_out (p : Fin 64) (f : Plot → Plot) (s : State) : (modPlot p f s).out = s.out := rfl
@[simp] theorem modPlot_fresh (p : Fin 64) (f : Plot → Plot) (s : State) : (modPlot p f s).fresh = s.fresh := rfl
@[simp] theorem modPlot_pending (p : Fin 64) (f : Plot → Plot) (s : State) : (modPlot p f s).pending = s.pending := rfl

/-! modBank. -/

@[simp] theorem modBank_banks (p : Fin 64) (f : Bank → Bank) (s : State) :
    (modBank p f s).banks = upd s.banks p f := rfl
@[simp] theorem modBank_modBank (p : Fin 64) (f g : Bank → Bank) (s : State) :
    modBank p f (modBank p g s) = modBank p (fun x => f (g x)) s := by
  simp [modBank]
theorem modBank_id (p : Fin 64) (f : Bank → Bank) (s : State) (hf : f s.banks[p] = s.banks[p]) : modBank p f s = s := by
  unfold modBank; rw [upd_id _ _ _ hf]
@[simp] theorem modBank_bell (p : Fin 64) (f : Bank → Bank) (s : State) : (modBank p f s).bell = s.bell := rfl
@[simp] theorem modBank_slots (p : Fin 64) (f : Bank → Bank) (s : State) : (modBank p f s).slots = s.slots := rfl
@[simp] theorem modBank_plots (p : Fin 64) (f : Bank → Bank) (s : State) : (modBank p f s).plots = s.plots := rfl
@[simp] theorem modBank_scrubS (p : Fin 64) (f : Bank → Bank) (s : State) : (modBank p f s).scrubS = s.scrubS := rfl
@[simp] theorem modBank_binScrubS (p : Fin 64) (f : Bank → Bank) (s : State) : (modBank p f s).binScrubS = s.binScrubS := rfl
@[simp] theorem modBank_queues (p : Fin 64) (f : Bank → Bank) (s : State) : (modBank p f s).queues = s.queues := rfl
@[simp] theorem modBank_qstore (p : Fin 64) (f : Bank → Bank) (s : State) : (modBank p f s).qstore = s.qstore := rfl
@[simp] theorem modBank_holdings (p : Fin 64) (f : Bank → Bank) (s : State) : (modBank p f s).holdings = s.holdings := rfl
@[simp] theorem modBank_hedges (p : Fin 64) (f : Bank → Bank) (s : State) : (modBank p f s).hedges = s.hedges := rfl
@[simp] theorem modBank_breaches (p : Fin 64) (f : Bank → Bank) (s : State) : (modBank p f s).breaches = s.breaches := rfl
@[simp] theorem modBank_snap (p : Fin 64) (f : Bank → Bank) (s : State) : (modBank p f s).snap = s.snap := rfl
@[simp] theorem modBank_rings (p : Fin 64) (f : Bank → Bank) (s : State) : (modBank p f s).rings = s.rings := rfl
@[simp] theorem modBank_fns (p : Fin 64) (f : Bank → Bank) (s : State) : (modBank p f s).fns = s.fns := rfl
@[simp] theorem modBank_host (p : Fin 64) (f : Bank → Bank) (s : State) : (modBank p f s).host = s.host := rfl
@[simp] theorem modBank_quads (p : Fin 64) (f : Bank → Bank) (s : State) : (modBank p f s).quads = s.quads := rfl
@[simp] theorem modBank_lanes (p : Fin 64) (f : Bank → Bank) (s : State) : (modBank p f s).lanes = s.lanes := rfl
@[simp] theorem modBank_cvus (p : Fin 64) (f : Bank → Bank) (s : State) : (modBank p f s).cvus = s.cvus := rfl
@[simp] theorem modBank_gates (p : Fin 64) (f : Bank → Bank) (s : State) : (modBank p f s).gates = s.gates := rfl
@[simp] theorem modBank_ssp (p : Fin 64) (f : Bank → Bank) (s : State) : (modBank p f s).ssp = s.ssp := rfl
@[simp] theorem modBank_fnet (p : Fin 64) (f : Bank → Bank) (s : State) : (modBank p f s).fnet = s.fnet := rfl
@[simp] theorem modBank_store (p : Fin 64) (f : Bank → Bank) (s : State) : (modBank p f s).store = s.store := rfl
@[simp] theorem modBank_boot (p : Fin 64) (f : Bank → Bank) (s : State) : (modBank p f s).boot = s.boot := rfl
@[simp] theorem modBank_load (p : Fin 64) (f : Bank → Bank) (s : State) : (modBank p f s).load = s.load := rfl
@[simp] theorem modBank_ledger (p : Fin 64) (f : Bank → Bank) (s : State) : (modBank p f s).ledger = s.ledger := rfl
@[simp] theorem modBank_tele (p : Fin 64) (f : Bank → Bank) (s : State) : (modBank p f s).tele = s.tele := rfl
@[simp] theorem modBank_test (p : Fin 64) (f : Bank → Bank) (s : State) : (modBank p f s).test = s.test := rfl
@[simp] theorem modBank_village (p : Fin 64) (f : Bank → Bank) (s : State) : (modBank p f s).village = s.village := rfl
@[simp] theorem modBank_dev (p : Fin 64) (f : Bank → Bank) (s : State) : (modBank p f s).dev = s.dev := rfl
@[simp] theorem modBank_pins (p : Fin 64) (f : Bank → Bank) (s : State) : (modBank p f s).pins = s.pins := rfl
@[simp] theorem modBank_out (p : Fin 64) (f : Bank → Bank) (s : State) : (modBank p f s).out = s.out := rfl
@[simp] theorem modBank_fresh (p : Fin 64) (f : Bank → Bank) (s : State) : (modBank p f s).fresh = s.fresh := rfl
@[simp] theorem modBank_pending (p : Fin 64) (f : Bank → Bank) (s : State) : (modBank p f s).pending = s.pending := rfl

/-! modQueue. -/

@[simp] theorem modQueue_queues (q : Fin 256) (f : Queue → Queue) (s : State) :
    (modQueue q f s).queues = upd s.queues q f := rfl
@[simp] theorem modQueue_modQueue (q : Fin 256) (f g : Queue → Queue) (s : State) :
    modQueue q f (modQueue q g s) = modQueue q (fun x => f (g x)) s := by
  simp [modQueue]
theorem modQueue_id (q : Fin 256) (f : Queue → Queue) (s : State) (hf : f s.queues[q] = s.queues[q]) : modQueue q f s = s := by
  unfold modQueue; rw [upd_id _ _ _ hf]
@[simp] theorem modQueue_bell (q : Fin 256) (f : Queue → Queue) (s : State) : (modQueue q f s).bell = s.bell := rfl
@[simp] theorem modQueue_slots (q : Fin 256) (f : Queue → Queue) (s : State) : (modQueue q f s).slots = s.slots := rfl
@[simp] theorem modQueue_plots (q : Fin 256) (f : Queue → Queue) (s : State) : (modQueue q f s).plots = s.plots := rfl
@[simp] theorem modQueue_banks (q : Fin 256) (f : Queue → Queue) (s : State) : (modQueue q f s).banks = s.banks := rfl
@[simp] theorem modQueue_scrubS (q : Fin 256) (f : Queue → Queue) (s : State) : (modQueue q f s).scrubS = s.scrubS := rfl
@[simp] theorem modQueue_binScrubS (q : Fin 256) (f : Queue → Queue) (s : State) : (modQueue q f s).binScrubS = s.binScrubS := rfl
@[simp] theorem modQueue_qstore (q : Fin 256) (f : Queue → Queue) (s : State) : (modQueue q f s).qstore = s.qstore := rfl
@[simp] theorem modQueue_holdings (q : Fin 256) (f : Queue → Queue) (s : State) : (modQueue q f s).holdings = s.holdings := rfl
@[simp] theorem modQueue_hedges (q : Fin 256) (f : Queue → Queue) (s : State) : (modQueue q f s).hedges = s.hedges := rfl
@[simp] theorem modQueue_breaches (q : Fin 256) (f : Queue → Queue) (s : State) : (modQueue q f s).breaches = s.breaches := rfl
@[simp] theorem modQueue_snap (q : Fin 256) (f : Queue → Queue) (s : State) : (modQueue q f s).snap = s.snap := rfl
@[simp] theorem modQueue_rings (q : Fin 256) (f : Queue → Queue) (s : State) : (modQueue q f s).rings = s.rings := rfl
@[simp] theorem modQueue_fns (q : Fin 256) (f : Queue → Queue) (s : State) : (modQueue q f s).fns = s.fns := rfl
@[simp] theorem modQueue_host (q : Fin 256) (f : Queue → Queue) (s : State) : (modQueue q f s).host = s.host := rfl
@[simp] theorem modQueue_quads (q : Fin 256) (f : Queue → Queue) (s : State) : (modQueue q f s).quads = s.quads := rfl
@[simp] theorem modQueue_lanes (q : Fin 256) (f : Queue → Queue) (s : State) : (modQueue q f s).lanes = s.lanes := rfl
@[simp] theorem modQueue_cvus (q : Fin 256) (f : Queue → Queue) (s : State) : (modQueue q f s).cvus = s.cvus := rfl
@[simp] theorem modQueue_gates (q : Fin 256) (f : Queue → Queue) (s : State) : (modQueue q f s).gates = s.gates := rfl
@[simp] theorem modQueue_ssp (q : Fin 256) (f : Queue → Queue) (s : State) : (modQueue q f s).ssp = s.ssp := rfl
@[simp] theorem modQueue_fnet (q : Fin 256) (f : Queue → Queue) (s : State) : (modQueue q f s).fnet = s.fnet := rfl
@[simp] theorem modQueue_store (q : Fin 256) (f : Queue → Queue) (s : State) : (modQueue q f s).store = s.store := rfl
@[simp] theorem modQueue_boot (q : Fin 256) (f : Queue → Queue) (s : State) : (modQueue q f s).boot = s.boot := rfl
@[simp] theorem modQueue_load (q : Fin 256) (f : Queue → Queue) (s : State) : (modQueue q f s).load = s.load := rfl
@[simp] theorem modQueue_ledger (q : Fin 256) (f : Queue → Queue) (s : State) : (modQueue q f s).ledger = s.ledger := rfl
@[simp] theorem modQueue_tele (q : Fin 256) (f : Queue → Queue) (s : State) : (modQueue q f s).tele = s.tele := rfl
@[simp] theorem modQueue_test (q : Fin 256) (f : Queue → Queue) (s : State) : (modQueue q f s).test = s.test := rfl
@[simp] theorem modQueue_village (q : Fin 256) (f : Queue → Queue) (s : State) : (modQueue q f s).village = s.village := rfl
@[simp] theorem modQueue_dev (q : Fin 256) (f : Queue → Queue) (s : State) : (modQueue q f s).dev = s.dev := rfl
@[simp] theorem modQueue_pins (q : Fin 256) (f : Queue → Queue) (s : State) : (modQueue q f s).pins = s.pins := rfl
@[simp] theorem modQueue_out (q : Fin 256) (f : Queue → Queue) (s : State) : (modQueue q f s).out = s.out := rfl
@[simp] theorem modQueue_fresh (q : Fin 256) (f : Queue → Queue) (s : State) : (modQueue q f s).fresh = s.fresh := rfl
@[simp] theorem modQueue_pending (q : Fin 256) (f : Queue → Queue) (s : State) : (modQueue q f s).pending = s.pending := rfl

/-! modHolding. -/

@[simp] theorem modHolding_holdings (h : Fin 32) (f : Holding → Holding) (s : State) :
    (modHolding h f s).holdings = upd s.holdings h f := rfl
@[simp] theorem modHolding_modHolding (h : Fin 32) (f g : Holding → Holding) (s : State) :
    modHolding h f (modHolding h g s) = modHolding h (fun x => f (g x)) s := by
  simp [modHolding]
theorem modHolding_id (h : Fin 32) (f : Holding → Holding) (s : State) (hf : f s.holdings[h] = s.holdings[h]) : modHolding h f s = s := by
  unfold modHolding; rw [upd_id _ _ _ hf]
@[simp] theorem modHolding_bell (h : Fin 32) (f : Holding → Holding) (s : State) : (modHolding h f s).bell = s.bell := rfl
@[simp] theorem modHolding_slots (h : Fin 32) (f : Holding → Holding) (s : State) : (modHolding h f s).slots = s.slots := rfl
@[simp] theorem modHolding_plots (h : Fin 32) (f : Holding → Holding) (s : State) : (modHolding h f s).plots = s.plots := rfl
@[simp] theorem modHolding_banks (h : Fin 32) (f : Holding → Holding) (s : State) : (modHolding h f s).banks = s.banks := rfl
@[simp] theorem modHolding_scrubS (h : Fin 32) (f : Holding → Holding) (s : State) : (modHolding h f s).scrubS = s.scrubS := rfl
@[simp] theorem modHolding_binScrubS (h : Fin 32) (f : Holding → Holding) (s : State) : (modHolding h f s).binScrubS = s.binScrubS := rfl
@[simp] theorem modHolding_queues (h : Fin 32) (f : Holding → Holding) (s : State) : (modHolding h f s).queues = s.queues := rfl
@[simp] theorem modHolding_qstore (h : Fin 32) (f : Holding → Holding) (s : State) : (modHolding h f s).qstore = s.qstore := rfl
@[simp] theorem modHolding_hedges (h : Fin 32) (f : Holding → Holding) (s : State) : (modHolding h f s).hedges = s.hedges := rfl
@[simp] theorem modHolding_breaches (h : Fin 32) (f : Holding → Holding) (s : State) : (modHolding h f s).breaches = s.breaches := rfl
@[simp] theorem modHolding_snap (h : Fin 32) (f : Holding → Holding) (s : State) : (modHolding h f s).snap = s.snap := rfl
@[simp] theorem modHolding_rings (h : Fin 32) (f : Holding → Holding) (s : State) : (modHolding h f s).rings = s.rings := rfl
@[simp] theorem modHolding_fns (h : Fin 32) (f : Holding → Holding) (s : State) : (modHolding h f s).fns = s.fns := rfl
@[simp] theorem modHolding_host (h : Fin 32) (f : Holding → Holding) (s : State) : (modHolding h f s).host = s.host := rfl
@[simp] theorem modHolding_quads (h : Fin 32) (f : Holding → Holding) (s : State) : (modHolding h f s).quads = s.quads := rfl
@[simp] theorem modHolding_lanes (h : Fin 32) (f : Holding → Holding) (s : State) : (modHolding h f s).lanes = s.lanes := rfl
@[simp] theorem modHolding_cvus (h : Fin 32) (f : Holding → Holding) (s : State) : (modHolding h f s).cvus = s.cvus := rfl
@[simp] theorem modHolding_gates (h : Fin 32) (f : Holding → Holding) (s : State) : (modHolding h f s).gates = s.gates := rfl
@[simp] theorem modHolding_ssp (h : Fin 32) (f : Holding → Holding) (s : State) : (modHolding h f s).ssp = s.ssp := rfl
@[simp] theorem modHolding_fnet (h : Fin 32) (f : Holding → Holding) (s : State) : (modHolding h f s).fnet = s.fnet := rfl
@[simp] theorem modHolding_store (h : Fin 32) (f : Holding → Holding) (s : State) : (modHolding h f s).store = s.store := rfl
@[simp] theorem modHolding_boot (h : Fin 32) (f : Holding → Holding) (s : State) : (modHolding h f s).boot = s.boot := rfl
@[simp] theorem modHolding_load (h : Fin 32) (f : Holding → Holding) (s : State) : (modHolding h f s).load = s.load := rfl
@[simp] theorem modHolding_ledger (h : Fin 32) (f : Holding → Holding) (s : State) : (modHolding h f s).ledger = s.ledger := rfl
@[simp] theorem modHolding_tele (h : Fin 32) (f : Holding → Holding) (s : State) : (modHolding h f s).tele = s.tele := rfl
@[simp] theorem modHolding_test (h : Fin 32) (f : Holding → Holding) (s : State) : (modHolding h f s).test = s.test := rfl
@[simp] theorem modHolding_village (h : Fin 32) (f : Holding → Holding) (s : State) : (modHolding h f s).village = s.village := rfl
@[simp] theorem modHolding_dev (h : Fin 32) (f : Holding → Holding) (s : State) : (modHolding h f s).dev = s.dev := rfl
@[simp] theorem modHolding_pins (h : Fin 32) (f : Holding → Holding) (s : State) : (modHolding h f s).pins = s.pins := rfl
@[simp] theorem modHolding_out (h : Fin 32) (f : Holding → Holding) (s : State) : (modHolding h f s).out = s.out := rfl
@[simp] theorem modHolding_fresh (h : Fin 32) (f : Holding → Holding) (s : State) : (modHolding h f s).fresh = s.fresh := rfl
@[simp] theorem modHolding_pending (h : Fin 32) (f : Holding → Holding) (s : State) : (modHolding h f s).pending = s.pending := rfl

/-! modHedge. -/

@[simp] theorem modHedge_hedges (e : Fin 112) (f : Hedge → Hedge) (s : State) :
    (modHedge e f s).hedges = upd s.hedges e f := rfl
@[simp] theorem modHedge_modHedge (e : Fin 112) (f g : Hedge → Hedge) (s : State) :
    modHedge e f (modHedge e g s) = modHedge e (fun x => f (g x)) s := by
  simp [modHedge]
theorem modHedge_id (e : Fin 112) (f : Hedge → Hedge) (s : State) (hf : f s.hedges[e] = s.hedges[e]) : modHedge e f s = s := by
  unfold modHedge; rw [upd_id _ _ _ hf]
@[simp] theorem modHedge_bell (e : Fin 112) (f : Hedge → Hedge) (s : State) : (modHedge e f s).bell = s.bell := rfl
@[simp] theorem modHedge_slots (e : Fin 112) (f : Hedge → Hedge) (s : State) : (modHedge e f s).slots = s.slots := rfl
@[simp] theorem modHedge_plots (e : Fin 112) (f : Hedge → Hedge) (s : State) : (modHedge e f s).plots = s.plots := rfl
@[simp] theorem modHedge_banks (e : Fin 112) (f : Hedge → Hedge) (s : State) : (modHedge e f s).banks = s.banks := rfl
@[simp] theorem modHedge_scrubS (e : Fin 112) (f : Hedge → Hedge) (s : State) : (modHedge e f s).scrubS = s.scrubS := rfl
@[simp] theorem modHedge_binScrubS (e : Fin 112) (f : Hedge → Hedge) (s : State) : (modHedge e f s).binScrubS = s.binScrubS := rfl
@[simp] theorem modHedge_queues (e : Fin 112) (f : Hedge → Hedge) (s : State) : (modHedge e f s).queues = s.queues := rfl
@[simp] theorem modHedge_qstore (e : Fin 112) (f : Hedge → Hedge) (s : State) : (modHedge e f s).qstore = s.qstore := rfl
@[simp] theorem modHedge_holdings (e : Fin 112) (f : Hedge → Hedge) (s : State) : (modHedge e f s).holdings = s.holdings := rfl
@[simp] theorem modHedge_breaches (e : Fin 112) (f : Hedge → Hedge) (s : State) : (modHedge e f s).breaches = s.breaches := rfl
@[simp] theorem modHedge_snap (e : Fin 112) (f : Hedge → Hedge) (s : State) : (modHedge e f s).snap = s.snap := rfl
@[simp] theorem modHedge_rings (e : Fin 112) (f : Hedge → Hedge) (s : State) : (modHedge e f s).rings = s.rings := rfl
@[simp] theorem modHedge_fns (e : Fin 112) (f : Hedge → Hedge) (s : State) : (modHedge e f s).fns = s.fns := rfl
@[simp] theorem modHedge_host (e : Fin 112) (f : Hedge → Hedge) (s : State) : (modHedge e f s).host = s.host := rfl
@[simp] theorem modHedge_quads (e : Fin 112) (f : Hedge → Hedge) (s : State) : (modHedge e f s).quads = s.quads := rfl
@[simp] theorem modHedge_lanes (e : Fin 112) (f : Hedge → Hedge) (s : State) : (modHedge e f s).lanes = s.lanes := rfl
@[simp] theorem modHedge_cvus (e : Fin 112) (f : Hedge → Hedge) (s : State) : (modHedge e f s).cvus = s.cvus := rfl
@[simp] theorem modHedge_gates (e : Fin 112) (f : Hedge → Hedge) (s : State) : (modHedge e f s).gates = s.gates := rfl
@[simp] theorem modHedge_ssp (e : Fin 112) (f : Hedge → Hedge) (s : State) : (modHedge e f s).ssp = s.ssp := rfl
@[simp] theorem modHedge_fnet (e : Fin 112) (f : Hedge → Hedge) (s : State) : (modHedge e f s).fnet = s.fnet := rfl
@[simp] theorem modHedge_store (e : Fin 112) (f : Hedge → Hedge) (s : State) : (modHedge e f s).store = s.store := rfl
@[simp] theorem modHedge_boot (e : Fin 112) (f : Hedge → Hedge) (s : State) : (modHedge e f s).boot = s.boot := rfl
@[simp] theorem modHedge_load (e : Fin 112) (f : Hedge → Hedge) (s : State) : (modHedge e f s).load = s.load := rfl
@[simp] theorem modHedge_ledger (e : Fin 112) (f : Hedge → Hedge) (s : State) : (modHedge e f s).ledger = s.ledger := rfl
@[simp] theorem modHedge_tele (e : Fin 112) (f : Hedge → Hedge) (s : State) : (modHedge e f s).tele = s.tele := rfl
@[simp] theorem modHedge_test (e : Fin 112) (f : Hedge → Hedge) (s : State) : (modHedge e f s).test = s.test := rfl
@[simp] theorem modHedge_village (e : Fin 112) (f : Hedge → Hedge) (s : State) : (modHedge e f s).village = s.village := rfl
@[simp] theorem modHedge_dev (e : Fin 112) (f : Hedge → Hedge) (s : State) : (modHedge e f s).dev = s.dev := rfl
@[simp] theorem modHedge_pins (e : Fin 112) (f : Hedge → Hedge) (s : State) : (modHedge e f s).pins = s.pins := rfl
@[simp] theorem modHedge_out (e : Fin 112) (f : Hedge → Hedge) (s : State) : (modHedge e f s).out = s.out := rfl
@[simp] theorem modHedge_fresh (e : Fin 112) (f : Hedge → Hedge) (s : State) : (modHedge e f s).fresh = s.fresh := rfl
@[simp] theorem modHedge_pending (e : Fin 112) (f : Hedge → Hedge) (s : State) : (modHedge e f s).pending = s.pending := rfl

/-! modRing. -/

@[simp] theorem modRing_rings (q : Fin 256) (f : Ring → Ring) (s : State) :
    (modRing q f s).rings = upd s.rings q f := rfl
@[simp] theorem modRing_modRing (q : Fin 256) (f g : Ring → Ring) (s : State) :
    modRing q f (modRing q g s) = modRing q (fun x => f (g x)) s := by
  simp [modRing]
theorem modRing_id (q : Fin 256) (f : Ring → Ring) (s : State) (hf : f s.rings[q] = s.rings[q]) : modRing q f s = s := by
  unfold modRing; rw [upd_id _ _ _ hf]
@[simp] theorem modRing_bell (q : Fin 256) (f : Ring → Ring) (s : State) : (modRing q f s).bell = s.bell := rfl
@[simp] theorem modRing_slots (q : Fin 256) (f : Ring → Ring) (s : State) : (modRing q f s).slots = s.slots := rfl
@[simp] theorem modRing_plots (q : Fin 256) (f : Ring → Ring) (s : State) : (modRing q f s).plots = s.plots := rfl
@[simp] theorem modRing_banks (q : Fin 256) (f : Ring → Ring) (s : State) : (modRing q f s).banks = s.banks := rfl
@[simp] theorem modRing_scrubS (q : Fin 256) (f : Ring → Ring) (s : State) : (modRing q f s).scrubS = s.scrubS := rfl
@[simp] theorem modRing_binScrubS (q : Fin 256) (f : Ring → Ring) (s : State) : (modRing q f s).binScrubS = s.binScrubS := rfl
@[simp] theorem modRing_queues (q : Fin 256) (f : Ring → Ring) (s : State) : (modRing q f s).queues = s.queues := rfl
@[simp] theorem modRing_qstore (q : Fin 256) (f : Ring → Ring) (s : State) : (modRing q f s).qstore = s.qstore := rfl
@[simp] theorem modRing_holdings (q : Fin 256) (f : Ring → Ring) (s : State) : (modRing q f s).holdings = s.holdings := rfl
@[simp] theorem modRing_hedges (q : Fin 256) (f : Ring → Ring) (s : State) : (modRing q f s).hedges = s.hedges := rfl
@[simp] theorem modRing_breaches (q : Fin 256) (f : Ring → Ring) (s : State) : (modRing q f s).breaches = s.breaches := rfl
@[simp] theorem modRing_snap (q : Fin 256) (f : Ring → Ring) (s : State) : (modRing q f s).snap = s.snap := rfl
@[simp] theorem modRing_fns (q : Fin 256) (f : Ring → Ring) (s : State) : (modRing q f s).fns = s.fns := rfl
@[simp] theorem modRing_host (q : Fin 256) (f : Ring → Ring) (s : State) : (modRing q f s).host = s.host := rfl
@[simp] theorem modRing_quads (q : Fin 256) (f : Ring → Ring) (s : State) : (modRing q f s).quads = s.quads := rfl
@[simp] theorem modRing_lanes (q : Fin 256) (f : Ring → Ring) (s : State) : (modRing q f s).lanes = s.lanes := rfl
@[simp] theorem modRing_cvus (q : Fin 256) (f : Ring → Ring) (s : State) : (modRing q f s).cvus = s.cvus := rfl
@[simp] theorem modRing_gates (q : Fin 256) (f : Ring → Ring) (s : State) : (modRing q f s).gates = s.gates := rfl
@[simp] theorem modRing_ssp (q : Fin 256) (f : Ring → Ring) (s : State) : (modRing q f s).ssp = s.ssp := rfl
@[simp] theorem modRing_fnet (q : Fin 256) (f : Ring → Ring) (s : State) : (modRing q f s).fnet = s.fnet := rfl
@[simp] theorem modRing_store (q : Fin 256) (f : Ring → Ring) (s : State) : (modRing q f s).store = s.store := rfl
@[simp] theorem modRing_boot (q : Fin 256) (f : Ring → Ring) (s : State) : (modRing q f s).boot = s.boot := rfl
@[simp] theorem modRing_load (q : Fin 256) (f : Ring → Ring) (s : State) : (modRing q f s).load = s.load := rfl
@[simp] theorem modRing_ledger (q : Fin 256) (f : Ring → Ring) (s : State) : (modRing q f s).ledger = s.ledger := rfl
@[simp] theorem modRing_tele (q : Fin 256) (f : Ring → Ring) (s : State) : (modRing q f s).tele = s.tele := rfl
@[simp] theorem modRing_test (q : Fin 256) (f : Ring → Ring) (s : State) : (modRing q f s).test = s.test := rfl
@[simp] theorem modRing_village (q : Fin 256) (f : Ring → Ring) (s : State) : (modRing q f s).village = s.village := rfl
@[simp] theorem modRing_dev (q : Fin 256) (f : Ring → Ring) (s : State) : (modRing q f s).dev = s.dev := rfl
@[simp] theorem modRing_pins (q : Fin 256) (f : Ring → Ring) (s : State) : (modRing q f s).pins = s.pins := rfl
@[simp] theorem modRing_out (q : Fin 256) (f : Ring → Ring) (s : State) : (modRing q f s).out = s.out := rfl
@[simp] theorem modRing_fresh (q : Fin 256) (f : Ring → Ring) (s : State) : (modRing q f s).fresh = s.fresh := rfl
@[simp] theorem modRing_pending (q : Fin 256) (f : Ring → Ring) (s : State) : (modRing q f s).pending = s.pending := rfl

/-! modFn. -/

@[simp] theorem modFn_fns (i : Fin 33) (f : Fn → Fn) (s : State) :
    (modFn i f s).fns = upd s.fns i f := rfl
@[simp] theorem modFn_modFn (i : Fin 33) (f g : Fn → Fn) (s : State) :
    modFn i f (modFn i g s) = modFn i (fun x => f (g x)) s := by
  simp [modFn]
theorem modFn_id (i : Fin 33) (f : Fn → Fn) (s : State) (hf : f s.fns[i] = s.fns[i]) : modFn i f s = s := by
  unfold modFn; rw [upd_id _ _ _ hf]
@[simp] theorem modFn_bell (i : Fin 33) (f : Fn → Fn) (s : State) : (modFn i f s).bell = s.bell := rfl
@[simp] theorem modFn_slots (i : Fin 33) (f : Fn → Fn) (s : State) : (modFn i f s).slots = s.slots := rfl
@[simp] theorem modFn_plots (i : Fin 33) (f : Fn → Fn) (s : State) : (modFn i f s).plots = s.plots := rfl
@[simp] theorem modFn_banks (i : Fin 33) (f : Fn → Fn) (s : State) : (modFn i f s).banks = s.banks := rfl
@[simp] theorem modFn_scrubS (i : Fin 33) (f : Fn → Fn) (s : State) : (modFn i f s).scrubS = s.scrubS := rfl
@[simp] theorem modFn_binScrubS (i : Fin 33) (f : Fn → Fn) (s : State) : (modFn i f s).binScrubS = s.binScrubS := rfl
@[simp] theorem modFn_queues (i : Fin 33) (f : Fn → Fn) (s : State) : (modFn i f s).queues = s.queues := rfl
@[simp] theorem modFn_qstore (i : Fin 33) (f : Fn → Fn) (s : State) : (modFn i f s).qstore = s.qstore := rfl
@[simp] theorem modFn_holdings (i : Fin 33) (f : Fn → Fn) (s : State) : (modFn i f s).holdings = s.holdings := rfl
@[simp] theorem modFn_hedges (i : Fin 33) (f : Fn → Fn) (s : State) : (modFn i f s).hedges = s.hedges := rfl
@[simp] theorem modFn_breaches (i : Fin 33) (f : Fn → Fn) (s : State) : (modFn i f s).breaches = s.breaches := rfl
@[simp] theorem modFn_snap (i : Fin 33) (f : Fn → Fn) (s : State) : (modFn i f s).snap = s.snap := rfl
@[simp] theorem modFn_rings (i : Fin 33) (f : Fn → Fn) (s : State) : (modFn i f s).rings = s.rings := rfl
@[simp] theorem modFn_host (i : Fin 33) (f : Fn → Fn) (s : State) : (modFn i f s).host = s.host := rfl
@[simp] theorem modFn_quads (i : Fin 33) (f : Fn → Fn) (s : State) : (modFn i f s).quads = s.quads := rfl
@[simp] theorem modFn_lanes (i : Fin 33) (f : Fn → Fn) (s : State) : (modFn i f s).lanes = s.lanes := rfl
@[simp] theorem modFn_cvus (i : Fin 33) (f : Fn → Fn) (s : State) : (modFn i f s).cvus = s.cvus := rfl
@[simp] theorem modFn_gates (i : Fin 33) (f : Fn → Fn) (s : State) : (modFn i f s).gates = s.gates := rfl
@[simp] theorem modFn_ssp (i : Fin 33) (f : Fn → Fn) (s : State) : (modFn i f s).ssp = s.ssp := rfl
@[simp] theorem modFn_fnet (i : Fin 33) (f : Fn → Fn) (s : State) : (modFn i f s).fnet = s.fnet := rfl
@[simp] theorem modFn_store (i : Fin 33) (f : Fn → Fn) (s : State) : (modFn i f s).store = s.store := rfl
@[simp] theorem modFn_boot (i : Fin 33) (f : Fn → Fn) (s : State) : (modFn i f s).boot = s.boot := rfl
@[simp] theorem modFn_load (i : Fin 33) (f : Fn → Fn) (s : State) : (modFn i f s).load = s.load := rfl
@[simp] theorem modFn_ledger (i : Fin 33) (f : Fn → Fn) (s : State) : (modFn i f s).ledger = s.ledger := rfl
@[simp] theorem modFn_tele (i : Fin 33) (f : Fn → Fn) (s : State) : (modFn i f s).tele = s.tele := rfl
@[simp] theorem modFn_test (i : Fin 33) (f : Fn → Fn) (s : State) : (modFn i f s).test = s.test := rfl
@[simp] theorem modFn_village (i : Fin 33) (f : Fn → Fn) (s : State) : (modFn i f s).village = s.village := rfl
@[simp] theorem modFn_dev (i : Fin 33) (f : Fn → Fn) (s : State) : (modFn i f s).dev = s.dev := rfl
@[simp] theorem modFn_pins (i : Fin 33) (f : Fn → Fn) (s : State) : (modFn i f s).pins = s.pins := rfl
@[simp] theorem modFn_out (i : Fin 33) (f : Fn → Fn) (s : State) : (modFn i f s).out = s.out := rfl
@[simp] theorem modFn_fresh (i : Fin 33) (f : Fn → Fn) (s : State) : (modFn i f s).fresh = s.fresh := rfl
@[simp] theorem modFn_pending (i : Fin 33) (f : Fn → Fn) (s : State) : (modFn i f s).pending = s.pending := rfl

/-! modQuad. -/

@[simp] theorem modQuad_quads (n : Fin 12) (f : Quad → Quad) (s : State) :
    (modQuad n f s).quads = upd s.quads n f := rfl
@[simp] theorem modQuad_modQuad (n : Fin 12) (f g : Quad → Quad) (s : State) :
    modQuad n f (modQuad n g s) = modQuad n (fun x => f (g x)) s := by
  simp [modQuad]
theorem modQuad_id (n : Fin 12) (f : Quad → Quad) (s : State) (hf : f s.quads[n] = s.quads[n]) : modQuad n f s = s := by
  unfold modQuad; rw [upd_id _ _ _ hf]
@[simp] theorem modQuad_bell (n : Fin 12) (f : Quad → Quad) (s : State) : (modQuad n f s).bell = s.bell := rfl
@[simp] theorem modQuad_slots (n : Fin 12) (f : Quad → Quad) (s : State) : (modQuad n f s).slots = s.slots := rfl
@[simp] theorem modQuad_plots (n : Fin 12) (f : Quad → Quad) (s : State) : (modQuad n f s).plots = s.plots := rfl
@[simp] theorem modQuad_banks (n : Fin 12) (f : Quad → Quad) (s : State) : (modQuad n f s).banks = s.banks := rfl
@[simp] theorem modQuad_scrubS (n : Fin 12) (f : Quad → Quad) (s : State) : (modQuad n f s).scrubS = s.scrubS := rfl
@[simp] theorem modQuad_binScrubS (n : Fin 12) (f : Quad → Quad) (s : State) : (modQuad n f s).binScrubS = s.binScrubS := rfl
@[simp] theorem modQuad_queues (n : Fin 12) (f : Quad → Quad) (s : State) : (modQuad n f s).queues = s.queues := rfl
@[simp] theorem modQuad_qstore (n : Fin 12) (f : Quad → Quad) (s : State) : (modQuad n f s).qstore = s.qstore := rfl
@[simp] theorem modQuad_holdings (n : Fin 12) (f : Quad → Quad) (s : State) : (modQuad n f s).holdings = s.holdings := rfl
@[simp] theorem modQuad_hedges (n : Fin 12) (f : Quad → Quad) (s : State) : (modQuad n f s).hedges = s.hedges := rfl
@[simp] theorem modQuad_breaches (n : Fin 12) (f : Quad → Quad) (s : State) : (modQuad n f s).breaches = s.breaches := rfl
@[simp] theorem modQuad_snap (n : Fin 12) (f : Quad → Quad) (s : State) : (modQuad n f s).snap = s.snap := rfl
@[simp] theorem modQuad_rings (n : Fin 12) (f : Quad → Quad) (s : State) : (modQuad n f s).rings = s.rings := rfl
@[simp] theorem modQuad_fns (n : Fin 12) (f : Quad → Quad) (s : State) : (modQuad n f s).fns = s.fns := rfl
@[simp] theorem modQuad_host (n : Fin 12) (f : Quad → Quad) (s : State) : (modQuad n f s).host = s.host := rfl
@[simp] theorem modQuad_lanes (n : Fin 12) (f : Quad → Quad) (s : State) : (modQuad n f s).lanes = s.lanes := rfl
@[simp] theorem modQuad_cvus (n : Fin 12) (f : Quad → Quad) (s : State) : (modQuad n f s).cvus = s.cvus := rfl
@[simp] theorem modQuad_gates (n : Fin 12) (f : Quad → Quad) (s : State) : (modQuad n f s).gates = s.gates := rfl
@[simp] theorem modQuad_ssp (n : Fin 12) (f : Quad → Quad) (s : State) : (modQuad n f s).ssp = s.ssp := rfl
@[simp] theorem modQuad_fnet (n : Fin 12) (f : Quad → Quad) (s : State) : (modQuad n f s).fnet = s.fnet := rfl
@[simp] theorem modQuad_store (n : Fin 12) (f : Quad → Quad) (s : State) : (modQuad n f s).store = s.store := rfl
@[simp] theorem modQuad_boot (n : Fin 12) (f : Quad → Quad) (s : State) : (modQuad n f s).boot = s.boot := rfl
@[simp] theorem modQuad_load (n : Fin 12) (f : Quad → Quad) (s : State) : (modQuad n f s).load = s.load := rfl
@[simp] theorem modQuad_ledger (n : Fin 12) (f : Quad → Quad) (s : State) : (modQuad n f s).ledger = s.ledger := rfl
@[simp] theorem modQuad_tele (n : Fin 12) (f : Quad → Quad) (s : State) : (modQuad n f s).tele = s.tele := rfl
@[simp] theorem modQuad_test (n : Fin 12) (f : Quad → Quad) (s : State) : (modQuad n f s).test = s.test := rfl
@[simp] theorem modQuad_village (n : Fin 12) (f : Quad → Quad) (s : State) : (modQuad n f s).village = s.village := rfl
@[simp] theorem modQuad_dev (n : Fin 12) (f : Quad → Quad) (s : State) : (modQuad n f s).dev = s.dev := rfl
@[simp] theorem modQuad_pins (n : Fin 12) (f : Quad → Quad) (s : State) : (modQuad n f s).pins = s.pins := rfl
@[simp] theorem modQuad_out (n : Fin 12) (f : Quad → Quad) (s : State) : (modQuad n f s).out = s.out := rfl
@[simp] theorem modQuad_fresh (n : Fin 12) (f : Quad → Quad) (s : State) : (modQuad n f s).fresh = s.fresh := rfl
@[simp] theorem modQuad_pending (n : Fin 12) (f : Quad → Quad) (s : State) : (modQuad n f s).pending = s.pending := rfl

/-! modLane. -/

@[simp] theorem modLane_lanes (l : Fin 48) (f : Lane → Lane) (s : State) :
    (modLane l f s).lanes = upd s.lanes l f := rfl
@[simp] theorem modLane_modLane (l : Fin 48) (f g : Lane → Lane) (s : State) :
    modLane l f (modLane l g s) = modLane l (fun x => f (g x)) s := by
  simp [modLane]
theorem modLane_id (l : Fin 48) (f : Lane → Lane) (s : State) (hf : f s.lanes[l] = s.lanes[l]) : modLane l f s = s := by
  unfold modLane; rw [upd_id _ _ _ hf]
@[simp] theorem modLane_bell (l : Fin 48) (f : Lane → Lane) (s : State) : (modLane l f s).bell = s.bell := rfl
@[simp] theorem modLane_slots (l : Fin 48) (f : Lane → Lane) (s : State) : (modLane l f s).slots = s.slots := rfl
@[simp] theorem modLane_plots (l : Fin 48) (f : Lane → Lane) (s : State) : (modLane l f s).plots = s.plots := rfl
@[simp] theorem modLane_banks (l : Fin 48) (f : Lane → Lane) (s : State) : (modLane l f s).banks = s.banks := rfl
@[simp] theorem modLane_scrubS (l : Fin 48) (f : Lane → Lane) (s : State) : (modLane l f s).scrubS = s.scrubS := rfl
@[simp] theorem modLane_binScrubS (l : Fin 48) (f : Lane → Lane) (s : State) : (modLane l f s).binScrubS = s.binScrubS := rfl
@[simp] theorem modLane_queues (l : Fin 48) (f : Lane → Lane) (s : State) : (modLane l f s).queues = s.queues := rfl
@[simp] theorem modLane_qstore (l : Fin 48) (f : Lane → Lane) (s : State) : (modLane l f s).qstore = s.qstore := rfl
@[simp] theorem modLane_holdings (l : Fin 48) (f : Lane → Lane) (s : State) : (modLane l f s).holdings = s.holdings := rfl
@[simp] theorem modLane_hedges (l : Fin 48) (f : Lane → Lane) (s : State) : (modLane l f s).hedges = s.hedges := rfl
@[simp] theorem modLane_breaches (l : Fin 48) (f : Lane → Lane) (s : State) : (modLane l f s).breaches = s.breaches := rfl
@[simp] theorem modLane_snap (l : Fin 48) (f : Lane → Lane) (s : State) : (modLane l f s).snap = s.snap := rfl
@[simp] theorem modLane_rings (l : Fin 48) (f : Lane → Lane) (s : State) : (modLane l f s).rings = s.rings := rfl
@[simp] theorem modLane_fns (l : Fin 48) (f : Lane → Lane) (s : State) : (modLane l f s).fns = s.fns := rfl
@[simp] theorem modLane_host (l : Fin 48) (f : Lane → Lane) (s : State) : (modLane l f s).host = s.host := rfl
@[simp] theorem modLane_quads (l : Fin 48) (f : Lane → Lane) (s : State) : (modLane l f s).quads = s.quads := rfl
@[simp] theorem modLane_cvus (l : Fin 48) (f : Lane → Lane) (s : State) : (modLane l f s).cvus = s.cvus := rfl
@[simp] theorem modLane_gates (l : Fin 48) (f : Lane → Lane) (s : State) : (modLane l f s).gates = s.gates := rfl
@[simp] theorem modLane_ssp (l : Fin 48) (f : Lane → Lane) (s : State) : (modLane l f s).ssp = s.ssp := rfl
@[simp] theorem modLane_fnet (l : Fin 48) (f : Lane → Lane) (s : State) : (modLane l f s).fnet = s.fnet := rfl
@[simp] theorem modLane_store (l : Fin 48) (f : Lane → Lane) (s : State) : (modLane l f s).store = s.store := rfl
@[simp] theorem modLane_boot (l : Fin 48) (f : Lane → Lane) (s : State) : (modLane l f s).boot = s.boot := rfl
@[simp] theorem modLane_load (l : Fin 48) (f : Lane → Lane) (s : State) : (modLane l f s).load = s.load := rfl
@[simp] theorem modLane_ledger (l : Fin 48) (f : Lane → Lane) (s : State) : (modLane l f s).ledger = s.ledger := rfl
@[simp] theorem modLane_tele (l : Fin 48) (f : Lane → Lane) (s : State) : (modLane l f s).tele = s.tele := rfl
@[simp] theorem modLane_test (l : Fin 48) (f : Lane → Lane) (s : State) : (modLane l f s).test = s.test := rfl
@[simp] theorem modLane_village (l : Fin 48) (f : Lane → Lane) (s : State) : (modLane l f s).village = s.village := rfl
@[simp] theorem modLane_dev (l : Fin 48) (f : Lane → Lane) (s : State) : (modLane l f s).dev = s.dev := rfl
@[simp] theorem modLane_pins (l : Fin 48) (f : Lane → Lane) (s : State) : (modLane l f s).pins = s.pins := rfl
@[simp] theorem modLane_out (l : Fin 48) (f : Lane → Lane) (s : State) : (modLane l f s).out = s.out := rfl
@[simp] theorem modLane_fresh (l : Fin 48) (f : Lane → Lane) (s : State) : (modLane l f s).fresh = s.fresh := rfl
@[simp] theorem modLane_pending (l : Fin 48) (f : Lane → Lane) (s : State) : (modLane l f s).pending = s.pending := rfl

/-! modCvu. -/

@[simp] theorem modCvu_cvus (u : Fin 32) (f : Cvu → Cvu) (s : State) :
    (modCvu u f s).cvus = upd s.cvus u f := rfl
@[simp] theorem modCvu_modCvu (u : Fin 32) (f g : Cvu → Cvu) (s : State) :
    modCvu u f (modCvu u g s) = modCvu u (fun x => f (g x)) s := by
  simp [modCvu]
theorem modCvu_id (u : Fin 32) (f : Cvu → Cvu) (s : State) (hf : f s.cvus[u] = s.cvus[u]) : modCvu u f s = s := by
  unfold modCvu; rw [upd_id _ _ _ hf]
@[simp] theorem modCvu_bell (u : Fin 32) (f : Cvu → Cvu) (s : State) : (modCvu u f s).bell = s.bell := rfl
@[simp] theorem modCvu_slots (u : Fin 32) (f : Cvu → Cvu) (s : State) : (modCvu u f s).slots = s.slots := rfl
@[simp] theorem modCvu_plots (u : Fin 32) (f : Cvu → Cvu) (s : State) : (modCvu u f s).plots = s.plots := rfl
@[simp] theorem modCvu_banks (u : Fin 32) (f : Cvu → Cvu) (s : State) : (modCvu u f s).banks = s.banks := rfl
@[simp] theorem modCvu_scrubS (u : Fin 32) (f : Cvu → Cvu) (s : State) : (modCvu u f s).scrubS = s.scrubS := rfl
@[simp] theorem modCvu_binScrubS (u : Fin 32) (f : Cvu → Cvu) (s : State) : (modCvu u f s).binScrubS = s.binScrubS := rfl
@[simp] theorem modCvu_queues (u : Fin 32) (f : Cvu → Cvu) (s : State) : (modCvu u f s).queues = s.queues := rfl
@[simp] theorem modCvu_qstore (u : Fin 32) (f : Cvu → Cvu) (s : State) : (modCvu u f s).qstore = s.qstore := rfl
@[simp] theorem modCvu_holdings (u : Fin 32) (f : Cvu → Cvu) (s : State) : (modCvu u f s).holdings = s.holdings := rfl
@[simp] theorem modCvu_hedges (u : Fin 32) (f : Cvu → Cvu) (s : State) : (modCvu u f s).hedges = s.hedges := rfl
@[simp] theorem modCvu_breaches (u : Fin 32) (f : Cvu → Cvu) (s : State) : (modCvu u f s).breaches = s.breaches := rfl
@[simp] theorem modCvu_snap (u : Fin 32) (f : Cvu → Cvu) (s : State) : (modCvu u f s).snap = s.snap := rfl
@[simp] theorem modCvu_rings (u : Fin 32) (f : Cvu → Cvu) (s : State) : (modCvu u f s).rings = s.rings := rfl
@[simp] theorem modCvu_fns (u : Fin 32) (f : Cvu → Cvu) (s : State) : (modCvu u f s).fns = s.fns := rfl
@[simp] theorem modCvu_host (u : Fin 32) (f : Cvu → Cvu) (s : State) : (modCvu u f s).host = s.host := rfl
@[simp] theorem modCvu_quads (u : Fin 32) (f : Cvu → Cvu) (s : State) : (modCvu u f s).quads = s.quads := rfl
@[simp] theorem modCvu_lanes (u : Fin 32) (f : Cvu → Cvu) (s : State) : (modCvu u f s).lanes = s.lanes := rfl
@[simp] theorem modCvu_gates (u : Fin 32) (f : Cvu → Cvu) (s : State) : (modCvu u f s).gates = s.gates := rfl
@[simp] theorem modCvu_ssp (u : Fin 32) (f : Cvu → Cvu) (s : State) : (modCvu u f s).ssp = s.ssp := rfl
@[simp] theorem modCvu_fnet (u : Fin 32) (f : Cvu → Cvu) (s : State) : (modCvu u f s).fnet = s.fnet := rfl
@[simp] theorem modCvu_store (u : Fin 32) (f : Cvu → Cvu) (s : State) : (modCvu u f s).store = s.store := rfl
@[simp] theorem modCvu_boot (u : Fin 32) (f : Cvu → Cvu) (s : State) : (modCvu u f s).boot = s.boot := rfl
@[simp] theorem modCvu_load (u : Fin 32) (f : Cvu → Cvu) (s : State) : (modCvu u f s).load = s.load := rfl
@[simp] theorem modCvu_ledger (u : Fin 32) (f : Cvu → Cvu) (s : State) : (modCvu u f s).ledger = s.ledger := rfl
@[simp] theorem modCvu_tele (u : Fin 32) (f : Cvu → Cvu) (s : State) : (modCvu u f s).tele = s.tele := rfl
@[simp] theorem modCvu_test (u : Fin 32) (f : Cvu → Cvu) (s : State) : (modCvu u f s).test = s.test := rfl
@[simp] theorem modCvu_village (u : Fin 32) (f : Cvu → Cvu) (s : State) : (modCvu u f s).village = s.village := rfl
@[simp] theorem modCvu_dev (u : Fin 32) (f : Cvu → Cvu) (s : State) : (modCvu u f s).dev = s.dev := rfl
@[simp] theorem modCvu_pins (u : Fin 32) (f : Cvu → Cvu) (s : State) : (modCvu u f s).pins = s.pins := rfl
@[simp] theorem modCvu_out (u : Fin 32) (f : Cvu → Cvu) (s : State) : (modCvu u f s).out = s.out := rfl
@[simp] theorem modCvu_fresh (u : Fin 32) (f : Cvu → Cvu) (s : State) : (modCvu u f s).fresh = s.fresh := rfl
@[simp] theorem modCvu_pending (u : Fin 32) (f : Cvu → Cvu) (s : State) : (modCvu u f s).pending = s.pending := rfl

/-! modBell. -/

@[simp] theorem modBell_bell (f : Bell → Bell) (s : State) : (modBell f s).bell = f s.bell := rfl
@[simp] theorem modBell_slots (f : Bell → Bell) (s : State) : (modBell f s).slots = s.slots := rfl
@[simp] theorem modBell_plots (f : Bell → Bell) (s : State) : (modBell f s).plots = s.plots := rfl
@[simp] theorem modBell_banks (f : Bell → Bell) (s : State) : (modBell f s).banks = s.banks := rfl
@[simp] theorem modBell_scrubS (f : Bell → Bell) (s : State) : (modBell f s).scrubS = s.scrubS := rfl
@[simp] theorem modBell_binScrubS (f : Bell → Bell) (s : State) : (modBell f s).binScrubS = s.binScrubS := rfl
@[simp] theorem modBell_queues (f : Bell → Bell) (s : State) : (modBell f s).queues = s.queues := rfl
@[simp] theorem modBell_qstore (f : Bell → Bell) (s : State) : (modBell f s).qstore = s.qstore := rfl
@[simp] theorem modBell_holdings (f : Bell → Bell) (s : State) : (modBell f s).holdings = s.holdings := rfl
@[simp] theorem modBell_hedges (f : Bell → Bell) (s : State) : (modBell f s).hedges = s.hedges := rfl
@[simp] theorem modBell_breaches (f : Bell → Bell) (s : State) : (modBell f s).breaches = s.breaches := rfl
@[simp] theorem modBell_snap (f : Bell → Bell) (s : State) : (modBell f s).snap = s.snap := rfl
@[simp] theorem modBell_rings (f : Bell → Bell) (s : State) : (modBell f s).rings = s.rings := rfl
@[simp] theorem modBell_fns (f : Bell → Bell) (s : State) : (modBell f s).fns = s.fns := rfl
@[simp] theorem modBell_host (f : Bell → Bell) (s : State) : (modBell f s).host = s.host := rfl
@[simp] theorem modBell_quads (f : Bell → Bell) (s : State) : (modBell f s).quads = s.quads := rfl
@[simp] theorem modBell_lanes (f : Bell → Bell) (s : State) : (modBell f s).lanes = s.lanes := rfl
@[simp] theorem modBell_cvus (f : Bell → Bell) (s : State) : (modBell f s).cvus = s.cvus := rfl
@[simp] theorem modBell_gates (f : Bell → Bell) (s : State) : (modBell f s).gates = s.gates := rfl
@[simp] theorem modBell_ssp (f : Bell → Bell) (s : State) : (modBell f s).ssp = s.ssp := rfl
@[simp] theorem modBell_fnet (f : Bell → Bell) (s : State) : (modBell f s).fnet = s.fnet := rfl
@[simp] theorem modBell_store (f : Bell → Bell) (s : State) : (modBell f s).store = s.store := rfl
@[simp] theorem modBell_boot (f : Bell → Bell) (s : State) : (modBell f s).boot = s.boot := rfl
@[simp] theorem modBell_load (f : Bell → Bell) (s : State) : (modBell f s).load = s.load := rfl
@[simp] theorem modBell_ledger (f : Bell → Bell) (s : State) : (modBell f s).ledger = s.ledger := rfl
@[simp] theorem modBell_tele (f : Bell → Bell) (s : State) : (modBell f s).tele = s.tele := rfl
@[simp] theorem modBell_test (f : Bell → Bell) (s : State) : (modBell f s).test = s.test := rfl
@[simp] theorem modBell_village (f : Bell → Bell) (s : State) : (modBell f s).village = s.village := rfl
@[simp] theorem modBell_dev (f : Bell → Bell) (s : State) : (modBell f s).dev = s.dev := rfl
@[simp] theorem modBell_pins (f : Bell → Bell) (s : State) : (modBell f s).pins = s.pins := rfl
@[simp] theorem modBell_out (f : Bell → Bell) (s : State) : (modBell f s).out = s.out := rfl
@[simp] theorem modBell_fresh (f : Bell → Bell) (s : State) : (modBell f s).fresh = s.fresh := rfl
@[simp] theorem modBell_pending (f : Bell → Bell) (s : State) : (modBell f s).pending = s.pending := rfl

/-! modBoot. -/

@[simp] theorem modBoot_boot (f : Boot → Boot) (s : State) : (modBoot f s).boot = f s.boot := rfl
@[simp] theorem modBoot_bell (f : Boot → Boot) (s : State) : (modBoot f s).bell = s.bell := rfl
@[simp] theorem modBoot_slots (f : Boot → Boot) (s : State) : (modBoot f s).slots = s.slots := rfl
@[simp] theorem modBoot_plots (f : Boot → Boot) (s : State) : (modBoot f s).plots = s.plots := rfl
@[simp] theorem modBoot_banks (f : Boot → Boot) (s : State) : (modBoot f s).banks = s.banks := rfl
@[simp] theorem modBoot_scrubS (f : Boot → Boot) (s : State) : (modBoot f s).scrubS = s.scrubS := rfl
@[simp] theorem modBoot_binScrubS (f : Boot → Boot) (s : State) : (modBoot f s).binScrubS = s.binScrubS := rfl
@[simp] theorem modBoot_queues (f : Boot → Boot) (s : State) : (modBoot f s).queues = s.queues := rfl
@[simp] theorem modBoot_qstore (f : Boot → Boot) (s : State) : (modBoot f s).qstore = s.qstore := rfl
@[simp] theorem modBoot_holdings (f : Boot → Boot) (s : State) : (modBoot f s).holdings = s.holdings := rfl
@[simp] theorem modBoot_hedges (f : Boot → Boot) (s : State) : (modBoot f s).hedges = s.hedges := rfl
@[simp] theorem modBoot_breaches (f : Boot → Boot) (s : State) : (modBoot f s).breaches = s.breaches := rfl
@[simp] theorem modBoot_snap (f : Boot → Boot) (s : State) : (modBoot f s).snap = s.snap := rfl
@[simp] theorem modBoot_rings (f : Boot → Boot) (s : State) : (modBoot f s).rings = s.rings := rfl
@[simp] theorem modBoot_fns (f : Boot → Boot) (s : State) : (modBoot f s).fns = s.fns := rfl
@[simp] theorem modBoot_host (f : Boot → Boot) (s : State) : (modBoot f s).host = s.host := rfl
@[simp] theorem modBoot_quads (f : Boot → Boot) (s : State) : (modBoot f s).quads = s.quads := rfl
@[simp] theorem modBoot_lanes (f : Boot → Boot) (s : State) : (modBoot f s).lanes = s.lanes := rfl
@[simp] theorem modBoot_cvus (f : Boot → Boot) (s : State) : (modBoot f s).cvus = s.cvus := rfl
@[simp] theorem modBoot_gates (f : Boot → Boot) (s : State) : (modBoot f s).gates = s.gates := rfl
@[simp] theorem modBoot_ssp (f : Boot → Boot) (s : State) : (modBoot f s).ssp = s.ssp := rfl
@[simp] theorem modBoot_fnet (f : Boot → Boot) (s : State) : (modBoot f s).fnet = s.fnet := rfl
@[simp] theorem modBoot_store (f : Boot → Boot) (s : State) : (modBoot f s).store = s.store := rfl
@[simp] theorem modBoot_load (f : Boot → Boot) (s : State) : (modBoot f s).load = s.load := rfl
@[simp] theorem modBoot_ledger (f : Boot → Boot) (s : State) : (modBoot f s).ledger = s.ledger := rfl
@[simp] theorem modBoot_tele (f : Boot → Boot) (s : State) : (modBoot f s).tele = s.tele := rfl
@[simp] theorem modBoot_test (f : Boot → Boot) (s : State) : (modBoot f s).test = s.test := rfl
@[simp] theorem modBoot_village (f : Boot → Boot) (s : State) : (modBoot f s).village = s.village := rfl
@[simp] theorem modBoot_dev (f : Boot → Boot) (s : State) : (modBoot f s).dev = s.dev := rfl
@[simp] theorem modBoot_pins (f : Boot → Boot) (s : State) : (modBoot f s).pins = s.pins := rfl
@[simp] theorem modBoot_out (f : Boot → Boot) (s : State) : (modBoot f s).out = s.out := rfl
@[simp] theorem modBoot_fresh (f : Boot → Boot) (s : State) : (modBoot f s).fresh = s.fresh := rfl
@[simp] theorem modBoot_pending (f : Boot → Boot) (s : State) : (modBoot f s).pending = s.pending := rfl

/-! modLedger. -/

@[simp] theorem modLedger_ledger (f : Ledger → Ledger) (s : State) : (modLedger f s).ledger = f s.ledger := rfl
@[simp] theorem modLedger_bell (f : Ledger → Ledger) (s : State) : (modLedger f s).bell = s.bell := rfl
@[simp] theorem modLedger_slots (f : Ledger → Ledger) (s : State) : (modLedger f s).slots = s.slots := rfl
@[simp] theorem modLedger_plots (f : Ledger → Ledger) (s : State) : (modLedger f s).plots = s.plots := rfl
@[simp] theorem modLedger_banks (f : Ledger → Ledger) (s : State) : (modLedger f s).banks = s.banks := rfl
@[simp] theorem modLedger_scrubS (f : Ledger → Ledger) (s : State) : (modLedger f s).scrubS = s.scrubS := rfl
@[simp] theorem modLedger_binScrubS (f : Ledger → Ledger) (s : State) : (modLedger f s).binScrubS = s.binScrubS := rfl
@[simp] theorem modLedger_queues (f : Ledger → Ledger) (s : State) : (modLedger f s).queues = s.queues := rfl
@[simp] theorem modLedger_qstore (f : Ledger → Ledger) (s : State) : (modLedger f s).qstore = s.qstore := rfl
@[simp] theorem modLedger_holdings (f : Ledger → Ledger) (s : State) : (modLedger f s).holdings = s.holdings := rfl
@[simp] theorem modLedger_hedges (f : Ledger → Ledger) (s : State) : (modLedger f s).hedges = s.hedges := rfl
@[simp] theorem modLedger_breaches (f : Ledger → Ledger) (s : State) : (modLedger f s).breaches = s.breaches := rfl
@[simp] theorem modLedger_snap (f : Ledger → Ledger) (s : State) : (modLedger f s).snap = s.snap := rfl
@[simp] theorem modLedger_rings (f : Ledger → Ledger) (s : State) : (modLedger f s).rings = s.rings := rfl
@[simp] theorem modLedger_fns (f : Ledger → Ledger) (s : State) : (modLedger f s).fns = s.fns := rfl
@[simp] theorem modLedger_host (f : Ledger → Ledger) (s : State) : (modLedger f s).host = s.host := rfl
@[simp] theorem modLedger_quads (f : Ledger → Ledger) (s : State) : (modLedger f s).quads = s.quads := rfl
@[simp] theorem modLedger_lanes (f : Ledger → Ledger) (s : State) : (modLedger f s).lanes = s.lanes := rfl
@[simp] theorem modLedger_cvus (f : Ledger → Ledger) (s : State) : (modLedger f s).cvus = s.cvus := rfl
@[simp] theorem modLedger_gates (f : Ledger → Ledger) (s : State) : (modLedger f s).gates = s.gates := rfl
@[simp] theorem modLedger_ssp (f : Ledger → Ledger) (s : State) : (modLedger f s).ssp = s.ssp := rfl
@[simp] theorem modLedger_fnet (f : Ledger → Ledger) (s : State) : (modLedger f s).fnet = s.fnet := rfl
@[simp] theorem modLedger_store (f : Ledger → Ledger) (s : State) : (modLedger f s).store = s.store := rfl
@[simp] theorem modLedger_boot (f : Ledger → Ledger) (s : State) : (modLedger f s).boot = s.boot := rfl
@[simp] theorem modLedger_load (f : Ledger → Ledger) (s : State) : (modLedger f s).load = s.load := rfl
@[simp] theorem modLedger_tele (f : Ledger → Ledger) (s : State) : (modLedger f s).tele = s.tele := rfl
@[simp] theorem modLedger_test (f : Ledger → Ledger) (s : State) : (modLedger f s).test = s.test := rfl
@[simp] theorem modLedger_village (f : Ledger → Ledger) (s : State) : (modLedger f s).village = s.village := rfl
@[simp] theorem modLedger_dev (f : Ledger → Ledger) (s : State) : (modLedger f s).dev = s.dev := rfl
@[simp] theorem modLedger_pins (f : Ledger → Ledger) (s : State) : (modLedger f s).pins = s.pins := rfl
@[simp] theorem modLedger_out (f : Ledger → Ledger) (s : State) : (modLedger f s).out = s.out := rfl
@[simp] theorem modLedger_fresh (f : Ledger → Ledger) (s : State) : (modLedger f s).fresh = s.fresh := rfl
@[simp] theorem modLedger_pending (f : Ledger → Ledger) (s : State) : (modLedger f s).pending = s.pending := rfl

/-! modSsp. -/

@[simp] theorem modSsp_ssp (f : Ssp → Ssp) (s : State) : (modSsp f s).ssp = f s.ssp := rfl
@[simp] theorem modSsp_bell (f : Ssp → Ssp) (s : State) : (modSsp f s).bell = s.bell := rfl
@[simp] theorem modSsp_slots (f : Ssp → Ssp) (s : State) : (modSsp f s).slots = s.slots := rfl
@[simp] theorem modSsp_plots (f : Ssp → Ssp) (s : State) : (modSsp f s).plots = s.plots := rfl
@[simp] theorem modSsp_banks (f : Ssp → Ssp) (s : State) : (modSsp f s).banks = s.banks := rfl
@[simp] theorem modSsp_scrubS (f : Ssp → Ssp) (s : State) : (modSsp f s).scrubS = s.scrubS := rfl
@[simp] theorem modSsp_binScrubS (f : Ssp → Ssp) (s : State) : (modSsp f s).binScrubS = s.binScrubS := rfl
@[simp] theorem modSsp_queues (f : Ssp → Ssp) (s : State) : (modSsp f s).queues = s.queues := rfl
@[simp] theorem modSsp_qstore (f : Ssp → Ssp) (s : State) : (modSsp f s).qstore = s.qstore := rfl
@[simp] theorem modSsp_holdings (f : Ssp → Ssp) (s : State) : (modSsp f s).holdings = s.holdings := rfl
@[simp] theorem modSsp_hedges (f : Ssp → Ssp) (s : State) : (modSsp f s).hedges = s.hedges := rfl
@[simp] theorem modSsp_breaches (f : Ssp → Ssp) (s : State) : (modSsp f s).breaches = s.breaches := rfl
@[simp] theorem modSsp_snap (f : Ssp → Ssp) (s : State) : (modSsp f s).snap = s.snap := rfl
@[simp] theorem modSsp_rings (f : Ssp → Ssp) (s : State) : (modSsp f s).rings = s.rings := rfl
@[simp] theorem modSsp_fns (f : Ssp → Ssp) (s : State) : (modSsp f s).fns = s.fns := rfl
@[simp] theorem modSsp_host (f : Ssp → Ssp) (s : State) : (modSsp f s).host = s.host := rfl
@[simp] theorem modSsp_quads (f : Ssp → Ssp) (s : State) : (modSsp f s).quads = s.quads := rfl
@[simp] theorem modSsp_lanes (f : Ssp → Ssp) (s : State) : (modSsp f s).lanes = s.lanes := rfl
@[simp] theorem modSsp_cvus (f : Ssp → Ssp) (s : State) : (modSsp f s).cvus = s.cvus := rfl
@[simp] theorem modSsp_gates (f : Ssp → Ssp) (s : State) : (modSsp f s).gates = s.gates := rfl
@[simp] theorem modSsp_fnet (f : Ssp → Ssp) (s : State) : (modSsp f s).fnet = s.fnet := rfl
@[simp] theorem modSsp_store (f : Ssp → Ssp) (s : State) : (modSsp f s).store = s.store := rfl
@[simp] theorem modSsp_boot (f : Ssp → Ssp) (s : State) : (modSsp f s).boot = s.boot := rfl
@[simp] theorem modSsp_load (f : Ssp → Ssp) (s : State) : (modSsp f s).load = s.load := rfl
@[simp] theorem modSsp_ledger (f : Ssp → Ssp) (s : State) : (modSsp f s).ledger = s.ledger := rfl
@[simp] theorem modSsp_tele (f : Ssp → Ssp) (s : State) : (modSsp f s).tele = s.tele := rfl
@[simp] theorem modSsp_test (f : Ssp → Ssp) (s : State) : (modSsp f s).test = s.test := rfl
@[simp] theorem modSsp_village (f : Ssp → Ssp) (s : State) : (modSsp f s).village = s.village := rfl
@[simp] theorem modSsp_dev (f : Ssp → Ssp) (s : State) : (modSsp f s).dev = s.dev := rfl
@[simp] theorem modSsp_pins (f : Ssp → Ssp) (s : State) : (modSsp f s).pins = s.pins := rfl
@[simp] theorem modSsp_out (f : Ssp → Ssp) (s : State) : (modSsp f s).out = s.out := rfl
@[simp] theorem modSsp_fresh (f : Ssp → Ssp) (s : State) : (modSsp f s).fresh = s.fresh := rfl
@[simp] theorem modSsp_pending (f : Ssp → Ssp) (s : State) : (modSsp f s).pending = s.pending := rfl

/-! modStore. -/

@[simp] theorem modStore_store (f : Store → Store) (s : State) : (modStore f s).store = f s.store := rfl
@[simp] theorem modStore_bell (f : Store → Store) (s : State) : (modStore f s).bell = s.bell := rfl
@[simp] theorem modStore_slots (f : Store → Store) (s : State) : (modStore f s).slots = s.slots := rfl
@[simp] theorem modStore_plots (f : Store → Store) (s : State) : (modStore f s).plots = s.plots := rfl
@[simp] theorem modStore_banks (f : Store → Store) (s : State) : (modStore f s).banks = s.banks := rfl
@[simp] theorem modStore_scrubS (f : Store → Store) (s : State) : (modStore f s).scrubS = s.scrubS := rfl
@[simp] theorem modStore_binScrubS (f : Store → Store) (s : State) : (modStore f s).binScrubS = s.binScrubS := rfl
@[simp] theorem modStore_queues (f : Store → Store) (s : State) : (modStore f s).queues = s.queues := rfl
@[simp] theorem modStore_qstore (f : Store → Store) (s : State) : (modStore f s).qstore = s.qstore := rfl
@[simp] theorem modStore_holdings (f : Store → Store) (s : State) : (modStore f s).holdings = s.holdings := rfl
@[simp] theorem modStore_hedges (f : Store → Store) (s : State) : (modStore f s).hedges = s.hedges := rfl
@[simp] theorem modStore_breaches (f : Store → Store) (s : State) : (modStore f s).breaches = s.breaches := rfl
@[simp] theorem modStore_snap (f : Store → Store) (s : State) : (modStore f s).snap = s.snap := rfl
@[simp] theorem modStore_rings (f : Store → Store) (s : State) : (modStore f s).rings = s.rings := rfl
@[simp] theorem modStore_fns (f : Store → Store) (s : State) : (modStore f s).fns = s.fns := rfl
@[simp] theorem modStore_host (f : Store → Store) (s : State) : (modStore f s).host = s.host := rfl
@[simp] theorem modStore_quads (f : Store → Store) (s : State) : (modStore f s).quads = s.quads := rfl
@[simp] theorem modStore_lanes (f : Store → Store) (s : State) : (modStore f s).lanes = s.lanes := rfl
@[simp] theorem modStore_cvus (f : Store → Store) (s : State) : (modStore f s).cvus = s.cvus := rfl
@[simp] theorem modStore_gates (f : Store → Store) (s : State) : (modStore f s).gates = s.gates := rfl
@[simp] theorem modStore_ssp (f : Store → Store) (s : State) : (modStore f s).ssp = s.ssp := rfl
@[simp] theorem modStore_fnet (f : Store → Store) (s : State) : (modStore f s).fnet = s.fnet := rfl
@[simp] theorem modStore_boot (f : Store → Store) (s : State) : (modStore f s).boot = s.boot := rfl
@[simp] theorem modStore_load (f : Store → Store) (s : State) : (modStore f s).load = s.load := rfl
@[simp] theorem modStore_ledger (f : Store → Store) (s : State) : (modStore f s).ledger = s.ledger := rfl
@[simp] theorem modStore_tele (f : Store → Store) (s : State) : (modStore f s).tele = s.tele := rfl
@[simp] theorem modStore_test (f : Store → Store) (s : State) : (modStore f s).test = s.test := rfl
@[simp] theorem modStore_village (f : Store → Store) (s : State) : (modStore f s).village = s.village := rfl
@[simp] theorem modStore_dev (f : Store → Store) (s : State) : (modStore f s).dev = s.dev := rfl
@[simp] theorem modStore_pins (f : Store → Store) (s : State) : (modStore f s).pins = s.pins := rfl
@[simp] theorem modStore_out (f : Store → Store) (s : State) : (modStore f s).out = s.out := rfl
@[simp] theorem modStore_fresh (f : Store → Store) (s : State) : (modStore f s).fresh = s.fresh := rfl
@[simp] theorem modStore_pending (f : Store → Store) (s : State) : (modStore f s).pending = s.pending := rfl

/-! modPins. -/

@[simp] theorem modPins_pins (f : Pins → Pins) (s : State) : (modPins f s).pins = f s.pins := rfl
@[simp] theorem modPins_bell (f : Pins → Pins) (s : State) : (modPins f s).bell = s.bell := rfl
@[simp] theorem modPins_slots (f : Pins → Pins) (s : State) : (modPins f s).slots = s.slots := rfl
@[simp] theorem modPins_plots (f : Pins → Pins) (s : State) : (modPins f s).plots = s.plots := rfl
@[simp] theorem modPins_banks (f : Pins → Pins) (s : State) : (modPins f s).banks = s.banks := rfl
@[simp] theorem modPins_scrubS (f : Pins → Pins) (s : State) : (modPins f s).scrubS = s.scrubS := rfl
@[simp] theorem modPins_binScrubS (f : Pins → Pins) (s : State) : (modPins f s).binScrubS = s.binScrubS := rfl
@[simp] theorem modPins_queues (f : Pins → Pins) (s : State) : (modPins f s).queues = s.queues := rfl
@[simp] theorem modPins_qstore (f : Pins → Pins) (s : State) : (modPins f s).qstore = s.qstore := rfl
@[simp] theorem modPins_holdings (f : Pins → Pins) (s : State) : (modPins f s).holdings = s.holdings := rfl
@[simp] theorem modPins_hedges (f : Pins → Pins) (s : State) : (modPins f s).hedges = s.hedges := rfl
@[simp] theorem modPins_breaches (f : Pins → Pins) (s : State) : (modPins f s).breaches = s.breaches := rfl
@[simp] theorem modPins_snap (f : Pins → Pins) (s : State) : (modPins f s).snap = s.snap := rfl
@[simp] theorem modPins_rings (f : Pins → Pins) (s : State) : (modPins f s).rings = s.rings := rfl
@[simp] theorem modPins_fns (f : Pins → Pins) (s : State) : (modPins f s).fns = s.fns := rfl
@[simp] theorem modPins_host (f : Pins → Pins) (s : State) : (modPins f s).host = s.host := rfl
@[simp] theorem modPins_quads (f : Pins → Pins) (s : State) : (modPins f s).quads = s.quads := rfl
@[simp] theorem modPins_lanes (f : Pins → Pins) (s : State) : (modPins f s).lanes = s.lanes := rfl
@[simp] theorem modPins_cvus (f : Pins → Pins) (s : State) : (modPins f s).cvus = s.cvus := rfl
@[simp] theorem modPins_gates (f : Pins → Pins) (s : State) : (modPins f s).gates = s.gates := rfl
@[simp] theorem modPins_ssp (f : Pins → Pins) (s : State) : (modPins f s).ssp = s.ssp := rfl
@[simp] theorem modPins_fnet (f : Pins → Pins) (s : State) : (modPins f s).fnet = s.fnet := rfl
@[simp] theorem modPins_store (f : Pins → Pins) (s : State) : (modPins f s).store = s.store := rfl
@[simp] theorem modPins_boot (f : Pins → Pins) (s : State) : (modPins f s).boot = s.boot := rfl
@[simp] theorem modPins_load (f : Pins → Pins) (s : State) : (modPins f s).load = s.load := rfl
@[simp] theorem modPins_ledger (f : Pins → Pins) (s : State) : (modPins f s).ledger = s.ledger := rfl
@[simp] theorem modPins_tele (f : Pins → Pins) (s : State) : (modPins f s).tele = s.tele := rfl
@[simp] theorem modPins_test (f : Pins → Pins) (s : State) : (modPins f s).test = s.test := rfl
@[simp] theorem modPins_village (f : Pins → Pins) (s : State) : (modPins f s).village = s.village := rfl
@[simp] theorem modPins_dev (f : Pins → Pins) (s : State) : (modPins f s).dev = s.dev := rfl
@[simp] theorem modPins_out (f : Pins → Pins) (s : State) : (modPins f s).out = s.out := rfl
@[simp] theorem modPins_fresh (f : Pins → Pins) (s : State) : (modPins f s).fresh = s.fresh := rfl
@[simp] theorem modPins_pending (f : Pins → Pins) (s : State) : (modPins f s).pending = s.pending := rfl

/-! modTest. -/

@[simp] theorem modTest_test (f : SelfTest → SelfTest) (s : State) : (modTest f s).test = f s.test := rfl
@[simp] theorem modTest_bell (f : SelfTest → SelfTest) (s : State) : (modTest f s).bell = s.bell := rfl
@[simp] theorem modTest_slots (f : SelfTest → SelfTest) (s : State) : (modTest f s).slots = s.slots := rfl
@[simp] theorem modTest_plots (f : SelfTest → SelfTest) (s : State) : (modTest f s).plots = s.plots := rfl
@[simp] theorem modTest_banks (f : SelfTest → SelfTest) (s : State) : (modTest f s).banks = s.banks := rfl
@[simp] theorem modTest_scrubS (f : SelfTest → SelfTest) (s : State) : (modTest f s).scrubS = s.scrubS := rfl
@[simp] theorem modTest_binScrubS (f : SelfTest → SelfTest) (s : State) : (modTest f s).binScrubS = s.binScrubS := rfl
@[simp] theorem modTest_queues (f : SelfTest → SelfTest) (s : State) : (modTest f s).queues = s.queues := rfl
@[simp] theorem modTest_qstore (f : SelfTest → SelfTest) (s : State) : (modTest f s).qstore = s.qstore := rfl
@[simp] theorem modTest_holdings (f : SelfTest → SelfTest) (s : State) : (modTest f s).holdings = s.holdings := rfl
@[simp] theorem modTest_hedges (f : SelfTest → SelfTest) (s : State) : (modTest f s).hedges = s.hedges := rfl
@[simp] theorem modTest_breaches (f : SelfTest → SelfTest) (s : State) : (modTest f s).breaches = s.breaches := rfl
@[simp] theorem modTest_snap (f : SelfTest → SelfTest) (s : State) : (modTest f s).snap = s.snap := rfl
@[simp] theorem modTest_rings (f : SelfTest → SelfTest) (s : State) : (modTest f s).rings = s.rings := rfl
@[simp] theorem modTest_fns (f : SelfTest → SelfTest) (s : State) : (modTest f s).fns = s.fns := rfl
@[simp] theorem modTest_host (f : SelfTest → SelfTest) (s : State) : (modTest f s).host = s.host := rfl
@[simp] theorem modTest_quads (f : SelfTest → SelfTest) (s : State) : (modTest f s).quads = s.quads := rfl
@[simp] theorem modTest_lanes (f : SelfTest → SelfTest) (s : State) : (modTest f s).lanes = s.lanes := rfl
@[simp] theorem modTest_cvus (f : SelfTest → SelfTest) (s : State) : (modTest f s).cvus = s.cvus := rfl
@[simp] theorem modTest_gates (f : SelfTest → SelfTest) (s : State) : (modTest f s).gates = s.gates := rfl
@[simp] theorem modTest_ssp (f : SelfTest → SelfTest) (s : State) : (modTest f s).ssp = s.ssp := rfl
@[simp] theorem modTest_fnet (f : SelfTest → SelfTest) (s : State) : (modTest f s).fnet = s.fnet := rfl
@[simp] theorem modTest_store (f : SelfTest → SelfTest) (s : State) : (modTest f s).store = s.store := rfl
@[simp] theorem modTest_boot (f : SelfTest → SelfTest) (s : State) : (modTest f s).boot = s.boot := rfl
@[simp] theorem modTest_load (f : SelfTest → SelfTest) (s : State) : (modTest f s).load = s.load := rfl
@[simp] theorem modTest_ledger (f : SelfTest → SelfTest) (s : State) : (modTest f s).ledger = s.ledger := rfl
@[simp] theorem modTest_tele (f : SelfTest → SelfTest) (s : State) : (modTest f s).tele = s.tele := rfl
@[simp] theorem modTest_village (f : SelfTest → SelfTest) (s : State) : (modTest f s).village = s.village := rfl
@[simp] theorem modTest_dev (f : SelfTest → SelfTest) (s : State) : (modTest f s).dev = s.dev := rfl
@[simp] theorem modTest_pins (f : SelfTest → SelfTest) (s : State) : (modTest f s).pins = s.pins := rfl
@[simp] theorem modTest_out (f : SelfTest → SelfTest) (s : State) : (modTest f s).out = s.out := rfl
@[simp] theorem modTest_fresh (f : SelfTest → SelfTest) (s : State) : (modTest f s).fresh = s.fresh := rfl
@[simp] theorem modTest_pending (f : SelfTest → SelfTest) (s : State) : (modTest f s).pending = s.pending := rfl

/-! modVillage. -/

@[simp] theorem modVillage_village (f : Village → Village) (s : State) : (modVillage f s).village = f s.village := rfl
@[simp] theorem modVillage_bell (f : Village → Village) (s : State) : (modVillage f s).bell = s.bell := rfl
@[simp] theorem modVillage_slots (f : Village → Village) (s : State) : (modVillage f s).slots = s.slots := rfl
@[simp] theorem modVillage_plots (f : Village → Village) (s : State) : (modVillage f s).plots = s.plots := rfl
@[simp] theorem modVillage_banks (f : Village → Village) (s : State) : (modVillage f s).banks = s.banks := rfl
@[simp] theorem modVillage_scrubS (f : Village → Village) (s : State) : (modVillage f s).scrubS = s.scrubS := rfl
@[simp] theorem modVillage_binScrubS (f : Village → Village) (s : State) : (modVillage f s).binScrubS = s.binScrubS := rfl
@[simp] theorem modVillage_queues (f : Village → Village) (s : State) : (modVillage f s).queues = s.queues := rfl
@[simp] theorem modVillage_qstore (f : Village → Village) (s : State) : (modVillage f s).qstore = s.qstore := rfl
@[simp] theorem modVillage_holdings (f : Village → Village) (s : State) : (modVillage f s).holdings = s.holdings := rfl
@[simp] theorem modVillage_hedges (f : Village → Village) (s : State) : (modVillage f s).hedges = s.hedges := rfl
@[simp] theorem modVillage_breaches (f : Village → Village) (s : State) : (modVillage f s).breaches = s.breaches := rfl
@[simp] theorem modVillage_snap (f : Village → Village) (s : State) : (modVillage f s).snap = s.snap := rfl
@[simp] theorem modVillage_rings (f : Village → Village) (s : State) : (modVillage f s).rings = s.rings := rfl
@[simp] theorem modVillage_fns (f : Village → Village) (s : State) : (modVillage f s).fns = s.fns := rfl
@[simp] theorem modVillage_host (f : Village → Village) (s : State) : (modVillage f s).host = s.host := rfl
@[simp] theorem modVillage_quads (f : Village → Village) (s : State) : (modVillage f s).quads = s.quads := rfl
@[simp] theorem modVillage_lanes (f : Village → Village) (s : State) : (modVillage f s).lanes = s.lanes := rfl
@[simp] theorem modVillage_cvus (f : Village → Village) (s : State) : (modVillage f s).cvus = s.cvus := rfl
@[simp] theorem modVillage_gates (f : Village → Village) (s : State) : (modVillage f s).gates = s.gates := rfl
@[simp] theorem modVillage_ssp (f : Village → Village) (s : State) : (modVillage f s).ssp = s.ssp := rfl
@[simp] theorem modVillage_fnet (f : Village → Village) (s : State) : (modVillage f s).fnet = s.fnet := rfl
@[simp] theorem modVillage_store (f : Village → Village) (s : State) : (modVillage f s).store = s.store := rfl
@[simp] theorem modVillage_boot (f : Village → Village) (s : State) : (modVillage f s).boot = s.boot := rfl
@[simp] theorem modVillage_load (f : Village → Village) (s : State) : (modVillage f s).load = s.load := rfl
@[simp] theorem modVillage_ledger (f : Village → Village) (s : State) : (modVillage f s).ledger = s.ledger := rfl
@[simp] theorem modVillage_tele (f : Village → Village) (s : State) : (modVillage f s).tele = s.tele := rfl
@[simp] theorem modVillage_test (f : Village → Village) (s : State) : (modVillage f s).test = s.test := rfl
@[simp] theorem modVillage_dev (f : Village → Village) (s : State) : (modVillage f s).dev = s.dev := rfl
@[simp] theorem modVillage_pins (f : Village → Village) (s : State) : (modVillage f s).pins = s.pins := rfl
@[simp] theorem modVillage_out (f : Village → Village) (s : State) : (modVillage f s).out = s.out := rfl
@[simp] theorem modVillage_fresh (f : Village → Village) (s : State) : (modVillage f s).fresh = s.fresh := rfl
@[simp] theorem modVillage_pending (f : Village → Village) (s : State) : (modVillage f s).pending = s.pending := rfl

/-! emit. -/

@[simp] theorem emit_out (o : Out) (s : State) : (emit o s).out = o :: s.out := rfl
@[simp] theorem emit_bell (o : Out) (s : State) : (emit o s).bell = s.bell := rfl
@[simp] theorem emit_slots (o : Out) (s : State) : (emit o s).slots = s.slots := rfl
@[simp] theorem emit_plots (o : Out) (s : State) : (emit o s).plots = s.plots := rfl
@[simp] theorem emit_banks (o : Out) (s : State) : (emit o s).banks = s.banks := rfl
@[simp] theorem emit_scrubS (o : Out) (s : State) : (emit o s).scrubS = s.scrubS := rfl
@[simp] theorem emit_binScrubS (o : Out) (s : State) : (emit o s).binScrubS = s.binScrubS := rfl
@[simp] theorem emit_queues (o : Out) (s : State) : (emit o s).queues = s.queues := rfl
@[simp] theorem emit_qstore (o : Out) (s : State) : (emit o s).qstore = s.qstore := rfl
@[simp] theorem emit_holdings (o : Out) (s : State) : (emit o s).holdings = s.holdings := rfl
@[simp] theorem emit_hedges (o : Out) (s : State) : (emit o s).hedges = s.hedges := rfl
@[simp] theorem emit_breaches (o : Out) (s : State) : (emit o s).breaches = s.breaches := rfl
@[simp] theorem emit_snap (o : Out) (s : State) : (emit o s).snap = s.snap := rfl
@[simp] theorem emit_rings (o : Out) (s : State) : (emit o s).rings = s.rings := rfl
@[simp] theorem emit_fns (o : Out) (s : State) : (emit o s).fns = s.fns := rfl
@[simp] theorem emit_host (o : Out) (s : State) : (emit o s).host = s.host := rfl
@[simp] theorem emit_quads (o : Out) (s : State) : (emit o s).quads = s.quads := rfl
@[simp] theorem emit_lanes (o : Out) (s : State) : (emit o s).lanes = s.lanes := rfl
@[simp] theorem emit_cvus (o : Out) (s : State) : (emit o s).cvus = s.cvus := rfl
@[simp] theorem emit_gates (o : Out) (s : State) : (emit o s).gates = s.gates := rfl
@[simp] theorem emit_ssp (o : Out) (s : State) : (emit o s).ssp = s.ssp := rfl
@[simp] theorem emit_fnet (o : Out) (s : State) : (emit o s).fnet = s.fnet := rfl
@[simp] theorem emit_store (o : Out) (s : State) : (emit o s).store = s.store := rfl
@[simp] theorem emit_boot (o : Out) (s : State) : (emit o s).boot = s.boot := rfl
@[simp] theorem emit_load (o : Out) (s : State) : (emit o s).load = s.load := rfl
@[simp] theorem emit_ledger (o : Out) (s : State) : (emit o s).ledger = s.ledger := rfl
@[simp] theorem emit_tele (o : Out) (s : State) : (emit o s).tele = s.tele := rfl
@[simp] theorem emit_test (o : Out) (s : State) : (emit o s).test = s.test := rfl
@[simp] theorem emit_village (o : Out) (s : State) : (emit o s).village = s.village := rfl
@[simp] theorem emit_dev (o : Out) (s : State) : (emit o s).dev = s.dev := rfl
@[simp] theorem emit_pins (o : Out) (s : State) : (emit o s).pins = s.pins := rfl
@[simp] theorem emit_fresh (o : Out) (s : State) : (emit o s).fresh = s.fresh := rfl
@[simp] theorem emit_pending (o : Out) (s : State) : (emit o s).pending = s.pending := rfl

/-! draw. -/

@[simp] theorem draw_fresh  (s : State) : (draw s).fresh = s.fresh + 1 := rfl
@[simp] theorem draw_bell  (s : State) : (draw s).bell = s.bell := rfl
@[simp] theorem draw_slots  (s : State) : (draw s).slots = s.slots := rfl
@[simp] theorem draw_plots  (s : State) : (draw s).plots = s.plots := rfl
@[simp] theorem draw_banks  (s : State) : (draw s).banks = s.banks := rfl
@[simp] theorem draw_scrubS  (s : State) : (draw s).scrubS = s.scrubS := rfl
@[simp] theorem draw_binScrubS  (s : State) : (draw s).binScrubS = s.binScrubS := rfl
@[simp] theorem draw_queues  (s : State) : (draw s).queues = s.queues := rfl
@[simp] theorem draw_qstore  (s : State) : (draw s).qstore = s.qstore := rfl
@[simp] theorem draw_holdings  (s : State) : (draw s).holdings = s.holdings := rfl
@[simp] theorem draw_hedges  (s : State) : (draw s).hedges = s.hedges := rfl
@[simp] theorem draw_breaches  (s : State) : (draw s).breaches = s.breaches := rfl
@[simp] theorem draw_snap  (s : State) : (draw s).snap = s.snap := rfl
@[simp] theorem draw_rings  (s : State) : (draw s).rings = s.rings := rfl
@[simp] theorem draw_fns  (s : State) : (draw s).fns = s.fns := rfl
@[simp] theorem draw_host  (s : State) : (draw s).host = s.host := rfl
@[simp] theorem draw_quads  (s : State) : (draw s).quads = s.quads := rfl
@[simp] theorem draw_lanes  (s : State) : (draw s).lanes = s.lanes := rfl
@[simp] theorem draw_cvus  (s : State) : (draw s).cvus = s.cvus := rfl
@[simp] theorem draw_gates  (s : State) : (draw s).gates = s.gates := rfl
@[simp] theorem draw_ssp  (s : State) : (draw s).ssp = s.ssp := rfl
@[simp] theorem draw_fnet  (s : State) : (draw s).fnet = s.fnet := rfl
@[simp] theorem draw_store  (s : State) : (draw s).store = s.store := rfl
@[simp] theorem draw_boot  (s : State) : (draw s).boot = s.boot := rfl
@[simp] theorem draw_load  (s : State) : (draw s).load = s.load := rfl
@[simp] theorem draw_ledger  (s : State) : (draw s).ledger = s.ledger := rfl
@[simp] theorem draw_tele  (s : State) : (draw s).tele = s.tele := rfl
@[simp] theorem draw_test  (s : State) : (draw s).test = s.test := rfl
@[simp] theorem draw_village  (s : State) : (draw s).village = s.village := rfl
@[simp] theorem draw_dev  (s : State) : (draw s).dev = s.dev := rfl
@[simp] theorem draw_pins  (s : State) : (draw s).pins = s.pins := rfl
@[simp] theorem draw_out  (s : State) : (draw s).out = s.out := rfl
@[simp] theorem draw_pending  (s : State) : (draw s).pending = s.pending := rfl

/-! drbgDraw. -/

@[simp] theorem drbgDraw_boot  (s : State) : (drbgDraw s).boot = { s.boot with draws := s.boot.draws + 1, generates := s.boot.generates + 1 } := rfl
@[simp] theorem drbgDraw_bell  (s : State) : (drbgDraw s).bell = s.bell := rfl
@[simp] theorem drbgDraw_slots  (s : State) : (drbgDraw s).slots = s.slots := rfl
@[simp] theorem drbgDraw_plots  (s : State) : (drbgDraw s).plots = s.plots := rfl
@[simp] theorem drbgDraw_banks  (s : State) : (drbgDraw s).banks = s.banks := rfl
@[simp] theorem drbgDraw_scrubS  (s : State) : (drbgDraw s).scrubS = s.scrubS := rfl
@[simp] theorem drbgDraw_binScrubS  (s : State) : (drbgDraw s).binScrubS = s.binScrubS := rfl
@[simp] theorem drbgDraw_queues  (s : State) : (drbgDraw s).queues = s.queues := rfl
@[simp] theorem drbgDraw_qstore  (s : State) : (drbgDraw s).qstore = s.qstore := rfl
@[simp] theorem drbgDraw_holdings  (s : State) : (drbgDraw s).holdings = s.holdings := rfl
@[simp] theorem drbgDraw_hedges  (s : State) : (drbgDraw s).hedges = s.hedges := rfl
@[simp] theorem drbgDraw_breaches  (s : State) : (drbgDraw s).breaches = s.breaches := rfl
@[simp] theorem drbgDraw_snap  (s : State) : (drbgDraw s).snap = s.snap := rfl
@[simp] theorem drbgDraw_rings  (s : State) : (drbgDraw s).rings = s.rings := rfl
@[simp] theorem drbgDraw_fns  (s : State) : (drbgDraw s).fns = s.fns := rfl
@[simp] theorem drbgDraw_host  (s : State) : (drbgDraw s).host = s.host := rfl
@[simp] theorem drbgDraw_quads  (s : State) : (drbgDraw s).quads = s.quads := rfl
@[simp] theorem drbgDraw_lanes  (s : State) : (drbgDraw s).lanes = s.lanes := rfl
@[simp] theorem drbgDraw_cvus  (s : State) : (drbgDraw s).cvus = s.cvus := rfl
@[simp] theorem drbgDraw_gates  (s : State) : (drbgDraw s).gates = s.gates := rfl
@[simp] theorem drbgDraw_ssp  (s : State) : (drbgDraw s).ssp = s.ssp := rfl
@[simp] theorem drbgDraw_fnet  (s : State) : (drbgDraw s).fnet = s.fnet := rfl
@[simp] theorem drbgDraw_store  (s : State) : (drbgDraw s).store = s.store := rfl
@[simp] theorem drbgDraw_load  (s : State) : (drbgDraw s).load = s.load := rfl
@[simp] theorem drbgDraw_ledger  (s : State) : (drbgDraw s).ledger = s.ledger := rfl
@[simp] theorem drbgDraw_tele  (s : State) : (drbgDraw s).tele = s.tele := rfl
@[simp] theorem drbgDraw_test  (s : State) : (drbgDraw s).test = s.test := rfl
@[simp] theorem drbgDraw_village  (s : State) : (drbgDraw s).village = s.village := rfl
@[simp] theorem drbgDraw_dev  (s : State) : (drbgDraw s).dev = s.dev := rfl
@[simp] theorem drbgDraw_pins  (s : State) : (drbgDraw s).pins = s.pins := rfl
@[simp] theorem drbgDraw_out  (s : State) : (drbgDraw s).out = s.out := rfl
@[simp] theorem drbgDraw_fresh  (s : State) : (drbgDraw s).fresh = s.fresh := rfl
@[simp] theorem drbgDraw_pending  (s : State) : (drbgDraw s).pending = s.pending := rfl

/-! modSession. -/

@[simp] theorem modSession_fnet (id : BitVec 32) (f : Session → Session) (s : State) : (modSession id f s).fnet = { s.fnet with sessions := s.fnet.sessions.map fun x => if x.id == id then f x else x } := rfl
@[simp] theorem modSession_bell (id : BitVec 32) (f : Session → Session) (s : State) : (modSession id f s).bell = s.bell := rfl
@[simp] theorem modSession_slots (id : BitVec 32) (f : Session → Session) (s : State) : (modSession id f s).slots = s.slots := rfl
@[simp] theorem modSession_plots (id : BitVec 32) (f : Session → Session) (s : State) : (modSession id f s).plots = s.plots := rfl
@[simp] theorem modSession_banks (id : BitVec 32) (f : Session → Session) (s : State) : (modSession id f s).banks = s.banks := rfl
@[simp] theorem modSession_scrubS (id : BitVec 32) (f : Session → Session) (s : State) : (modSession id f s).scrubS = s.scrubS := rfl
@[simp] theorem modSession_binScrubS (id : BitVec 32) (f : Session → Session) (s : State) : (modSession id f s).binScrubS = s.binScrubS := rfl
@[simp] theorem modSession_queues (id : BitVec 32) (f : Session → Session) (s : State) : (modSession id f s).queues = s.queues := rfl
@[simp] theorem modSession_qstore (id : BitVec 32) (f : Session → Session) (s : State) : (modSession id f s).qstore = s.qstore := rfl
@[simp] theorem modSession_holdings (id : BitVec 32) (f : Session → Session) (s : State) : (modSession id f s).holdings = s.holdings := rfl
@[simp] theorem modSession_hedges (id : BitVec 32) (f : Session → Session) (s : State) : (modSession id f s).hedges = s.hedges := rfl
@[simp] theorem modSession_breaches (id : BitVec 32) (f : Session → Session) (s : State) : (modSession id f s).breaches = s.breaches := rfl
@[simp] theorem modSession_snap (id : BitVec 32) (f : Session → Session) (s : State) : (modSession id f s).snap = s.snap := rfl
@[simp] theorem modSession_rings (id : BitVec 32) (f : Session → Session) (s : State) : (modSession id f s).rings = s.rings := rfl
@[simp] theorem modSession_fns (id : BitVec 32) (f : Session → Session) (s : State) : (modSession id f s).fns = s.fns := rfl
@[simp] theorem modSession_host (id : BitVec 32) (f : Session → Session) (s : State) : (modSession id f s).host = s.host := rfl
@[simp] theorem modSession_quads (id : BitVec 32) (f : Session → Session) (s : State) : (modSession id f s).quads = s.quads := rfl
@[simp] theorem modSession_lanes (id : BitVec 32) (f : Session → Session) (s : State) : (modSession id f s).lanes = s.lanes := rfl
@[simp] theorem modSession_cvus (id : BitVec 32) (f : Session → Session) (s : State) : (modSession id f s).cvus = s.cvus := rfl
@[simp] theorem modSession_gates (id : BitVec 32) (f : Session → Session) (s : State) : (modSession id f s).gates = s.gates := rfl
@[simp] theorem modSession_ssp (id : BitVec 32) (f : Session → Session) (s : State) : (modSession id f s).ssp = s.ssp := rfl
@[simp] theorem modSession_store (id : BitVec 32) (f : Session → Session) (s : State) : (modSession id f s).store = s.store := rfl
@[simp] theorem modSession_boot (id : BitVec 32) (f : Session → Session) (s : State) : (modSession id f s).boot = s.boot := rfl
@[simp] theorem modSession_load (id : BitVec 32) (f : Session → Session) (s : State) : (modSession id f s).load = s.load := rfl
@[simp] theorem modSession_ledger (id : BitVec 32) (f : Session → Session) (s : State) : (modSession id f s).ledger = s.ledger := rfl
@[simp] theorem modSession_tele (id : BitVec 32) (f : Session → Session) (s : State) : (modSession id f s).tele = s.tele := rfl
@[simp] theorem modSession_test (id : BitVec 32) (f : Session → Session) (s : State) : (modSession id f s).test = s.test := rfl
@[simp] theorem modSession_village (id : BitVec 32) (f : Session → Session) (s : State) : (modSession id f s).village = s.village := rfl
@[simp] theorem modSession_dev (id : BitVec 32) (f : Session → Session) (s : State) : (modSession id f s).dev = s.dev := rfl
@[simp] theorem modSession_pins (id : BitVec 32) (f : Session → Session) (s : State) : (modSession id f s).pins = s.pins := rfl
@[simp] theorem modSession_out (id : BitVec 32) (f : Session → Session) (s : State) : (modSession id f s).out = s.out := rfl
@[simp] theorem modSession_fresh (id : BitVec 32) (f : Session → Session) (s : State) : (modSession id f s).fresh = s.fresh := rfl
@[simp] theorem modSession_pending (id : BitVec 32) (f : Session → Session) (s : State) : (modSession id f s).pending = s.pending := rfl

/-! modLoad. -/

@[simp] theorem modLoad_load (f : Load → Load) (s : State) : (modLoad f s).load = s.load.map f := rfl
@[simp] theorem modLoad_bell (f : Load → Load) (s : State) : (modLoad f s).bell = s.bell := rfl
@[simp] theorem modLoad_slots (f : Load → Load) (s : State) : (modLoad f s).slots = s.slots := rfl
@[simp] theorem modLoad_plots (f : Load → Load) (s : State) : (modLoad f s).plots = s.plots := rfl
@[simp] theorem modLoad_banks (f : Load → Load) (s : State) : (modLoad f s).banks = s.banks := rfl
@[simp] theorem modLoad_scrubS (f : Load → Load) (s : State) : (modLoad f s).scrubS = s.scrubS := rfl
@[simp] theorem modLoad_binScrubS (f : Load → Load) (s : State) : (modLoad f s).binScrubS = s.binScrubS := rfl
@[simp] theorem modLoad_queues (f : Load → Load) (s : State) : (modLoad f s).queues = s.queues := rfl
@[simp] theorem modLoad_qstore (f : Load → Load) (s : State) : (modLoad f s).qstore = s.qstore := rfl
@[simp] theorem modLoad_holdings (f : Load → Load) (s : State) : (modLoad f s).holdings = s.holdings := rfl
@[simp] theorem modLoad_hedges (f : Load → Load) (s : State) : (modLoad f s).hedges = s.hedges := rfl
@[simp] theorem modLoad_breaches (f : Load → Load) (s : State) : (modLoad f s).breaches = s.breaches := rfl
@[simp] theorem modLoad_snap (f : Load → Load) (s : State) : (modLoad f s).snap = s.snap := rfl
@[simp] theorem modLoad_rings (f : Load → Load) (s : State) : (modLoad f s).rings = s.rings := rfl
@[simp] theorem modLoad_fns (f : Load → Load) (s : State) : (modLoad f s).fns = s.fns := rfl
@[simp] theorem modLoad_host (f : Load → Load) (s : State) : (modLoad f s).host = s.host := rfl
@[simp] theorem modLoad_quads (f : Load → Load) (s : State) : (modLoad f s).quads = s.quads := rfl
@[simp] theorem modLoad_lanes (f : Load → Load) (s : State) : (modLoad f s).lanes = s.lanes := rfl
@[simp] theorem modLoad_cvus (f : Load → Load) (s : State) : (modLoad f s).cvus = s.cvus := rfl
@[simp] theorem modLoad_gates (f : Load → Load) (s : State) : (modLoad f s).gates = s.gates := rfl
@[simp] theorem modLoad_ssp (f : Load → Load) (s : State) : (modLoad f s).ssp = s.ssp := rfl
@[simp] theorem modLoad_fnet (f : Load → Load) (s : State) : (modLoad f s).fnet = s.fnet := rfl
@[simp] theorem modLoad_store (f : Load → Load) (s : State) : (modLoad f s).store = s.store := rfl
@[simp] theorem modLoad_boot (f : Load → Load) (s : State) : (modLoad f s).boot = s.boot := rfl
@[simp] theorem modLoad_ledger (f : Load → Load) (s : State) : (modLoad f s).ledger = s.ledger := rfl
@[simp] theorem modLoad_tele (f : Load → Load) (s : State) : (modLoad f s).tele = s.tele := rfl
@[simp] theorem modLoad_test (f : Load → Load) (s : State) : (modLoad f s).test = s.test := rfl
@[simp] theorem modLoad_village (f : Load → Load) (s : State) : (modLoad f s).village = s.village := rfl
@[simp] theorem modLoad_dev (f : Load → Load) (s : State) : (modLoad f s).dev = s.dev := rfl
@[simp] theorem modLoad_pins (f : Load → Load) (s : State) : (modLoad f s).pins = s.pins := rfl
@[simp] theorem modLoad_out (f : Load → Load) (s : State) : (modLoad f s).out = s.out := rfl
@[simp] theorem modLoad_fresh (f : Load → Load) (s : State) : (modLoad f s).fresh = s.fresh := rfl
@[simp] theorem modLoad_pending (f : Load → Load) (s : State) : (modLoad f s).pending = s.pending := rfl

end Sys2Proof.Machine
end

