-- ==== Sys2Proof/Laws/BellFrame.lean ====
section
/-! SUPPORT. What each operation leaves of the bell: all of it, but for those of the timebase, of an edge, of a slot boundary,
of the Store's bell entries and of a cold reset. -/

namespace Sys2Proof.Machine
@[simp] theorem eachFin_bell (n : Nat) (f : Fin n → State → State) (s : State) (h : ∀ i t, (f i t).bell = t.bell) :
    (eachFin n f s).bell = s.bell := by
  unfold eachFin
  generalize List.finRange n = l
  induction l generalizing s with
  | nil => rfl
  | cons a l ih => simp [ih, h]
@[simp] theorem eachOf_bell {α : Type} (l : List α) (f : α → State → State) (s : State) (h : ∀ i t, (f i t).bell = t.bell) :
    (eachOf l f s).bell = s.bell := by
  unfold eachOf
  induction l generalizing s with
  | nil => rfl
  | cons a l ih => simp [ih, h]
@[simp] theorem ite_bell (c : Prop) [Decidable c] (a b : State) : (if c then a else b).bell = if c then a.bell else b.bell := apply_ite _ _ _ _

@[simp] theorem modCore_bell (c : Fin 4) (f : Core → Core) (s : State) :
    (modCore c f s).bell = s.bell := by
  unfold modCore; rfl
@[simp] theorem latch_bell (r : Rec) (s : State) :
    (latch r s).bell = s.bell := by
  unfold latch; rfl
@[simp] theorem record_bell (e : Ev) (owner : Fin 32) (data : Word) (s : State) :
    (record e owner data s).bell = s.bell := by
  unfold record; simp
@[simp] theorem raiseVec_bell (f : Fin 33) (v : Nat) (s : State) :
    (raiseVec f v s).bell = s.bell := by
  unfold raiseVec; simp
@[simp] theorem mbxPut_bell (i : Fin 33) (v : BitVec 128) (s : State) :
    (mbxPut i v s).bell = s.bell := by
  unfold mbxPut; simp
@[simp] theorem mailbox_bell (e : Ev) (h : Fin 32) (data : Word) (s : State) :
    (mailbox e h data s).bell = s.bell := by
  unfold mailbox; simp
@[simp] theorem post_bell (e : Ev) (h : Fin 32) (data : Word) (s : State) :
    (post e h data s).bell = s.bell := by
  unfold post; simp
@[simp] theorem limitWrite_bell (code : BitVec 12) (subj n : Nat) (s : State) :
    (limitWrite code subj n s).bell = s.bell := by
  unfold limitWrite; simp
@[simp] theorem limited_bell (e : Ev) (subj n : Nat) (s : State) :
    (limited e subj n s).bell = s.bell := by
  unfold limited; simp only []; repeat' split
  all_goals simp [*]
@[simp] theorem limitFlush_bell (s : State) :
    (limitFlush s).bell = s.bell := by
  unfold limitFlush; simp
@[simp] theorem pf0Respond_bell (k : Fin 8) (msg : List Byte) (len : Nat) (s : State) :
    (pf0Respond k msg len s).bell = s.bell := by
  unfold pf0Respond; simp
@[simp] theorem ssp1Respond_bell (msg : List Byte) (len : Nat) (s : State) :
    (ssp1Respond msg len s).bell = s.bell := by
  unfold ssp1Respond; simp
@[simp] theorem noResponse_bell (p : Path) (s : State) :
    (noResponse p s).bell = s.bell := by
  unfold noResponse; split <;> simp
@[simp] theorem sendResponse_bell (p : Path) (sess ctr : BitVec 32) (inner : List Byte) (s : State) :
    (sendResponse p sess ctr inner s).bell = s.bell := by
  unfold sendResponse; split <;> simp
@[simp] theorem pf0Notice_bell (msg : List Byte) (len : Nat) (s : State) :
    (pf0Notice msg len s).bell = s.bell := by
  unfold pf0Notice; simp
@[simp] theorem ssp1Notice_bell (msg : List Byte) (s : State) :
    (ssp1Notice msg s).bell = s.bell := by
  unfold ssp1Notice; simp
@[simp] theorem sendNotice_bell (p : Path) (sess ctr : BitVec 32) (inner : List Byte) (s : State) :
    (sendNotice p sess ctr inner s).bell = s.bell := by
  unfold sendNotice; split <;> simp
@[simp] theorem closeSession_bell (se : Session) (reason : Byte) (s : State) :
    (closeSession se reason s).bell = s.bell := by
  unfold closeSession; simp
@[simp] theorem closeSessions_bell (p : Session → Bool) (reason : Byte) (s : State) :
    (closeSessions p reason s).bell = s.bell := by
  unfold closeSessions; simp
@[simp] theorem respond_bell (rq : Req) (op st ty : Byte) (bell : BellNo) (body : List Byte) (s : State) :
    (respond rq op st ty bell body s).bell = s.bell := by
  unfold respond; split <;> simp
@[simp] theorem rxDrop_bell (s : State) :
    (rxDrop s).bell = s.bell := by
  unfold rxDrop; rfl
@[simp] theorem serve_bell (rq : Req) (run : Session → State → State) (s : State)
    (h : ∀ se t, (run se t).bell = t.bell) : (serve rq run s).bell = s.bell := by
  unfold serve; repeat' split
  all_goals simp [h]
@[simp] theorem afterArbiter_bell (guard : Nat) (s : State) :
    (afterArbiter guard s).bell = s.bell := by
  unfold afterArbiter; simp
@[simp] theorem writeReq_bell (rq : Req) (ix : BitVec 16) (sub : Nat) (lenOk valOk : Bool) (cond : State → Option Byte)
    (eff : State → State × BellNo) (s : State) (h : ∀ t, (eff t).1.bell = t.bell) :
    (writeReq rq ix sub lenOk valOk cond eff s).bell = s.bell := by
  unfold writeReq
  refine serve_bell _ _ _ fun se t => ?_
  dsimp only; repeat' split
  all_goals simp [h]
@[simp] theorem invokeReq_bell (rq : Req) (ix : BitVec 16) (sub : Nat) (lenOk : Bool) (cond : Session → State → Option Byte)
    (eff : Session → State → State × Option (Byte × BellNo)) (s : State)
    (h : ∀ se t, (eff se t).1.bell = t.bell) : (invokeReq rq ix sub lenOk cond eff s).bell = s.bell := by
  unfold invokeReq
  refine serve_bell _ _ _ fun se t => ?_
  dsimp only; repeat' split
  all_goals simp [h]
@[simp] theorem invokeDone_bell (rq : Option Req) (st : Byte) (b : BellNo) (s : State) :
    (invokeDone rq st b s).bell = s.bell := by
  unfold invokeDone; split <;> simp
@[simp] theorem flashRun_bell (l : List FlashOp) (s : State) : (flashRun l s).bell = s.bell := by
  induction l generalizing s with
  | nil => simp [flashRun]
  | cons o l ih => cases o <;> simp [flashRun, ih]
@[simp] theorem flashStart_bell (s : State) :
    (flashStart s).bell = s.bell := by
  unfold flashStart; repeat' split
  · rfl
  · rw [eachOf_bell _ _ _ fun _ _ => by simp]; simp
  · simp
@[simp] theorem flashPush_bell (o : FlashOp) (s : State) :
    (flashPush o s).bell = s.bell := by
  unfold flashPush; simp
@[simp] theorem openSector_bell (i : Nat) (s : State) :
    (openSector i s).bell = s.bell := by
  unfold openSector; rfl
theorem placeRecord_bell (n : Nat) (s t : State) (a : Nat) (h : placeRecord n s = some (t, a)) : t.bell = s.bell := by
  unfold placeRecord at h; repeat' split at h
  all_goals simp at h
  all_goals (obtain ⟨rfl, -⟩ := h; simp)
theorem copyRecord_bell (r : StoreRec) (s t : State) (h : copyRecord r s = some t) : t.bell = s.bell := by
  unfold copyRecord at h; simp at h
  obtain ⟨u, a, hp, rfl⟩ := h; simp [placeRecord_bell _ _ _ _ hp]
theorem copyRecords_bell (l : List StoreRec) (s t : State) (h : copyRecords l s = some t) : t.bell = s.bell := by
  induction l generalizing s with
  | nil => simp [copyRecords] at h; rw [h]
  | cons r l ih =>
    unfold copyRecords at h
    cases hr : copyRecord r s with
    | none => simp [hr] at h
    | some u => simp [hr] at h; rw [ih _ h, copyRecord_bell _ _ _ hr]
@[simp] theorem eraseSector_bell (i : Nat) (s : State) :
    (eraseSector i s).bell = s.bell := by
  unfold eraseSector; rfl
@[simp] theorem recordRetired_bell (i : Nat) (s : State) :
    (recordRetired i s).bell = s.bell := by
  unfold recordRetired; simp
@[simp] theorem compactSector_bell (i : Nat) (s : State) :
    (compactSector i s).bell = s.bell := by
  unfold compactSector; dsimp only; split
  · rfl
  · rename_i t h; simp [copyRecords_bell _ _ _ h]
theorem placeAfterCompaction_bell (n : Nat) (s t : State) (a : Nat) (h : placeAfterCompaction n s = some (t, a)) :
    t.bell = s.bell := by
  unfold placeAfterCompaction at h; repeat' split at h
  all_goals first
    | (simp at h; done)
    | (have := placeRecord_bell _ _ _ _ h; simpa using this)
    | (simp at h; obtain ⟨rfl, -⟩ := h; exact placeRecord_bell _ _ _ _ (by assumption))
@[simp] theorem extendM_bell (i : Fin 8) (d : Digest) (s : State) :
    (extendM i d s).bell = s.bell := by
  unfold extendM; rfl
@[simp] theorem rescrub_bell (oldI newI first : Nat) (s : State) :
    (rescrub oldI newI first s).bell = s.bell := by
  unfold rescrub; rfl
@[simp] theorem startDad_bell (s : State) :
    (startDad s).bell = s.bell := by
  unfold startDad; rfl
@[simp] theorem afterEntry_bell (ix : BitVec 16) (sub : Nat) (s : State) :
    (afterEntry ix sub s).bell = s.bell := by
  unfold afterEntry; split <;> simp
@[simp] theorem storeFailed_bell (w : StorePend) (a : Nat) (s : State) :
    (storeFailed w a s).bell = s.bell := by
  unfold storeFailed; simp
@[simp] theorem flashFailed_bell (o : FlashOp) (s : State) :
    (flashFailed o s).bell = s.bell := by
  unfold flashFailed; split <;> simp
@[simp] theorem persistNow_bell (rq : Req) (ix : BitVec 16) (sub : Nat) (role : Role) (v : Val) (s : State) :
    (persistNow rq ix sub role v s).bell = s.bell := by
  unfold persistNow; dsimp only; repeat' split
  all_goals try (simp; done)
  rename_i t a h; simp [placeAfterCompaction_bell _ _ _ _ h]
@[simp] theorem persist_bell (rq : Req) (ix : BitVec 16) (sub : Nat) (role : Role) (v : Val) (s : State) :
    (persist rq ix sub role v s).bell = s.bell := by
  unfold persist; simp
@[simp] theorem wakeStore_bell (s : State) :
    (wakeStore s).bell = s.bell := by
  unfold wakeStore; simp
@[simp] theorem writePersist_bell (rq : Req) (ix : BitVec 16) (sub : Nat) (lenOk valOk : Bool) (cond : State → Option Byte) (v : Val) (s : State) :
    (writePersist rq ix sub lenOk valOk cond v s).bell = s.bell := by
  unfold writePersist
  refine serve_bell _ _ _ fun se t => ?_
  split <;> simp
@[simp] theorem appendRecord_bell (tag ix : BitVec 16) (sub ty : BitVec 8) (value : List Byte) (s : State) :
    (appendRecord tag ix sub ty value s).bell = s.bell := by
  unfold appendRecord; dsimp only; split
  · simp
  · rename_i t a h; simp [placeRecord_bell _ _ _ _ h]
@[simp] theorem replayAppend_bell (id : BitVec 128) (s : State) :
    (replayAppend id s).bell = s.bell := by
  unfold replayAppend; simp
@[simp] theorem storeEpoch_bell (h : Fin 32) (s : State) :
    (storeEpoch h s).bell = s.bell := by
  unfold storeEpoch; simp
@[simp] theorem showTap_bell (kind n : Nat) (e : TapEv) (s : State) :
    (showTap kind n e s).bell = s.bell := by
  unfold showTap; simp
@[simp] theorem tapRewind_bell (q : Fin 256) (s : State) :
    (tapRewind q s).bell = s.bell := by
  unfold tapRewind; simp
@[simp] theorem addLossPending_bell (q : Fin 256) (n : Nat) (s : State) :
    (addLossPending q n s).bell = s.bell := by
  unfold addLossPending; split <;> simp
@[simp] theorem countDrop_bell (q : Fin 256) (n : Nat) (s : State) :
    (countDrop q n s).bell = s.bell := by
  unfold countDrop; simp
@[simp] theorem afterAppend_bell (q : Fin 256) (s : State) :
    (afterAppend q s).bell = s.bell := by
  unfold afterAppend; simp
@[simp] theorem gapCount_bell (q : Fin 256) (n : Nat) (s : State) :
    (gapCount q n s).bell = s.bell := by
  unfold gapCount; simp only []; repeat' split
  all_goals simp [*]
@[simp] theorem commitItem_bell (cb : Nat) (q : Fin 256) (it0 : Item) (s : State) :
    (commitItem cb q it0 s).bell = s.bell := by
  unfold commitItem; simp
@[simp] theorem rewindOpen_bell (q : Fin 256) (s : State) :
    (rewindOpen q s).bell = s.bell := by
  unfold rewindOpen; simp
@[simp] theorem lossReached_bell (q : Fin 256) (n : Nat) (ended : Bool) (s : State) :
    (lossReached q n ended s).bell = s.bell := by
  unfold lossReached; simp
@[simp] theorem commitMarker_bell (q : Fin 256) (code arg : Nat) (s : State) :
    (commitMarker q code arg s).bell = s.bell := by
  unfold commitMarker; simp
@[simp] theorem resyncReached_bell (q : Fin 256) (gap : Nat) (recovery : Bool) (s : State) :
    (resyncReached q gap recovery s).bell = s.bell := by
  unfold resyncReached; simp
@[simp] theorem commitStaged_bell (cb : Nat) (q : Fin 256) (l : List Staged) (n : Nat) (s : State) :
    (commitStaged cb q l n s).1.bell = s.bell := by
  induction l generalizing n s with
  | nil => simp [commitStaged]
  | cons x l ih => cases x <;> (try cases n) <;> simp [commitStaged, ih]
@[simp] theorem leaveStaging_bell (q : Fin 256) (n : Nat) (s : State) :
    (leaveStaging q n s).bell = s.bell := by
  unfold leaveStaging; split <;> simp
@[simp] theorem commitN_bell (q : Fin 256) (n : Nat) (s : State) :
    (commitN q n s).bell = s.bell := by
  unfold commitN; simp
@[simp] theorem loseArrival_bell (q : Fin 256) (last : Bool) (s : State) :
    (loseArrival q last s).bell = s.bell := by
  unfold loseArrival; simp
@[simp] theorem stageItem_bell (q : Fin 256) (it : Item) (s : State) :
    (stageItem q it s).bell = s.bell := by
  unfold stageItem; simp
@[simp] theorem rewindPlace_bell (q : Fin 256) (s : State) :
    (rewindPlace q s).bell = s.bell := by
  unfold rewindPlace; simp
@[simp] theorem takeItem_bell (q : Fin 256) (s : State) :
    (takeItem q s).bell = s.bell := by
  unfold takeItem; simp
@[simp] theorem emptyQueue_bell (q : Fin 256) (s : State) :
    (emptyQueue q s).bell = s.bell := by
  unfold emptyQueue; simp
@[simp] theorem flushItems_bell (q : Fin 256) (s : State) :
    (flushItems q s).bell = s.bell := by
  unfold flushItems; simp
@[simp] theorem updateItemsHeld_bell (h : Fin 32) (s : State) :
    (updateItemsHeld h s).bell = s.bell := by
  unfold updateItemsHeld; simp
@[simp] theorem laneBound_bell (q : Fin 256) (s : State) :
    (laneBound q s).bell = s.bell := by
  unfold laneBound; split <;> simp
@[simp] theorem bindQueue_bell (q : Fin 256) (edge : Nat) (decl : Option Nat) (s : State) :
    (bindQueue q edge decl s).bell = s.bell := by
  unfold bindQueue; simp
@[simp] theorem unbindQueue_bell (q : Fin 256) (edge : Nat) (s : State) :
    (unbindQueue q edge s).bell = s.bell := by
  unfold unbindQueue; simp
@[simp] theorem bindingEdge_bell (e : Nat) (q : Fin 256) (s : State) :
    (bindingEdge e q s).bell = s.bell := by
  unfold bindingEdge; simp
@[simp] theorem releaseTo_bell (q : Fin 256) (n : Nat) (s : State) :
    (releaseTo q n s).bell = s.bell := by
  unfold releaseTo; rfl
@[simp] theorem commitLate_bell (q : Fin 256) (e : Nat) (s : State) :
    (commitLate q e s).bell = s.bell := by
  unfold commitLate; simp
@[simp] theorem lateEdge_bell (q : Fin 256) (e : Nat) (s : State) :
    (lateEdge q e s).bell = s.bell := by
  unfold lateEdge; simp
@[simp] theorem closedEdge_bell (q : Fin 256) (e n : Nat) (s : State) :
    (closedEdge q e n s).bell = s.bell := by
  unfold closedEdge; simp
@[simp] theorem judgeQueue_bell (e : Nat) (q : Fin 256) (s : State) :
    (judgeQueue e q s).bell = s.bell := by
  unfold judgeQueue; simp only []; repeat' split
  all_goals simp [*]
@[simp] theorem idleEdge_bell (q : Fin 256) (s : State) :
    (idleEdge q s).bell = s.bell := by
  unfold idleEdge; simp
@[simp] theorem closeEdge_bell (q : Fin 256) (s : State) :
    (closeEdge q s).bell = s.bell := by
  unfold closeEdge; rfl
@[simp] theorem queueRuns_bell (q : Fin 256) (s : State) :
    (queueRuns q s).bell = s.bell := by
  unfold queueRuns; simp
@[simp] theorem queueRecovered_bell (q : Fin 256) (s : State) :
    (queueRecovered q s).bell = s.bell := by
  unfold queueRecovered; simp
@[simp] theorem fillBuffer_bell (q : Fin 256) (n : Nat) (wrong : List Nat) (s : State) :
    (fillBuffer q n wrong s).bell = s.bell := by
  unfold fillBuffer; simp
@[simp] theorem ringMessage_bell (q : Fin 256) (s : State) :
    (ringMessage q s).bell = s.bell := by
  unfold ringMessage; simp
@[simp] theorem writeBack_bell (q : Fin 256) (t : Tally) (code : Byte) (s : State) :
    (writeBack q t code s).bell = s.bell := by
  unfold writeBack; simp
@[simp] theorem sendForced_bell (q : Fin 256) (a0 : Nat) (s : State) :
    (sendForced q a0 s).bell = s.bell := by
  induction a0 generalizing s with
  | zero => rfl
  | succ n ih =>
    unfold sendForced; repeat' split
    all_goals simp [ih]
@[simp] theorem forceTallies_bell (q : Fin 256) (code : Byte) (s : State) :
    (forceTallies q code s).bell = s.bell := by
  unfold forceTallies; simp
@[simp] theorem flushQueue_bell (q : Fin 256) (s : State) :
    (flushQueue q s).bell = s.bell := by
  unfold flushQueue; simp
@[simp] theorem faultTallies_bell (h : Fin 32) (s : State) :
    (faultTallies h s).bell = s.bell := by
  unfold faultTallies; simp
@[simp] theorem fatalTallies_bell (s : State) :
    (fatalTallies s).bell = s.bell := by
  unfold fatalTallies; simp
@[simp] theorem unbindRing_bell (q : Fin 256) (s : State) :
    (unbindRing q s).bell = s.bell := by
  unfold unbindRing; simp
@[simp] theorem unbindWhole_bell (q : Fin 256) (edge : Nat) (s : State) :
    (unbindWhole q edge s).bell = s.bell := by
  unfold unbindWhole; simp
@[simp] theorem abandonTallies_bell (q : Fin 256) (event : Bool) (s : State) :
    (abandonTallies q event s).bell = s.bell := by
  unfold abandonTallies; simp
@[simp] theorem resetRing_bell (q : Fin 256) (keepAbandoned : Bool) (s : State) :
    (resetRing q keepAbandoned s).bell = s.bell := by
  unfold resetRing; simp
@[simp] theorem disableRing_bell (q : Fin 256) (s : State) :
    (disableRing q s).bell = s.bell := by
  unfold disableRing; simp
@[simp] theorem ringError_bell (q : Fin 256) (cause : BitVec 2) (s : State) :
    (ringError q cause s).bell = s.bell := by
  unfold ringError; simp
@[simp] theorem bindRing_bell (q : Fin 256) (s : State) :
    (bindRing q s).bell = s.bell := by
  unfold bindRing; split <;> simp
@[simp] theorem refreshHedges_bell (s : State) :
    (refreshHedges s).bell = s.bell := by
  unfold refreshHedges; rfl
@[simp] theorem setState_bell (h : Fin 32) (st : HState) (s : State) :
    (setState h st s).bell = s.bell := by
  unfold setState; simp
@[simp] theorem rampPlot_bell (p : Fin 64) (mv : Nat) (s : State) :
    (rampPlot p mv s).bell = s.bell := by
  unfold rampPlot; rfl
@[simp] theorem rampHolding_bell (h : Fin 32) (mv : Nat) (s : State) :
    (rampHolding h mv s).bell = s.bell := by
  unfold rampHolding; simp
@[simp] theorem rampAwaited_bell (h : Fin 32) (mv : Nat) (s : State) :
    (rampAwaited h mv s).bell = s.bell := by
  unfold rampAwaited; simp
@[simp] theorem startRegulator_bell (p : Fin 64) (s : State) :
    (startRegulator p s).bell = s.bell := by
  unfold startRegulator; rfl
@[simp] theorem callForRestart_bell (p : Fin 64) (s : State) :
    (callForRestart p s).bell = s.bell := by
  unfold callForRestart; simp
@[simp] theorem stopRegulator_bell (p : Fin 64) (s : State) :
    (stopRegulator p s).bell = s.bell := by
  unfold stopRegulator; rfl
@[simp] theorem busyAnswer_bell (rq : Option Req) (s : State) :
    (busyAnswer rq s).bell = s.bell := by
  unfold busyAnswer; simp
@[simp] theorem unforce_bell (h : Fin 32) (s : State) :
    (unforce h s).bell = s.bell := by
  unfold unforce; exact eachOf_bell _ _ _ fun _ _ => by simp
@[simp] theorem endSnapshot_bell (st : SnapState) (code : Byte) (s : State) :
    (endSnapshot st code s).bell = s.bell := by
  unfold endSnapshot; split <;> simp
@[simp] theorem endRestore_bell (st : SnapState) (code : Byte) (s : State) :
    (endRestore st code s).bell = s.bell := by
  unfold endRestore; split <;> simp
@[simp] theorem cutJobs_bell (h : Fin 32) (s : State) :
    (cutJobs h s).bell = s.bell := by
  unfold cutJobs; simp only []; repeat' split
  all_goals simp [*]
@[simp] theorem cutFreezes_bell (h : Fin 32) (s : State) :
    (cutFreezes h s).bell = s.bell := by
  unfold cutFreezes; simp
@[simp] theorem cancelled_bell (h : Fin 32) (t : Trans) (s : State) :
    (cancelled h t s).bell = s.bell := by
  unfold cancelled; split <;> simp
@[simp] theorem cancelTransitions_bell (h : Fin 32) (s : State) :
    (cancelTransitions h s).bell = s.bell := by
  unfold cancelTransitions; simp
@[simp] theorem dropPending_bell (keepClears : Bool) (h : Fin 32) (s : State) :
    (dropPending keepClears h s).bell = s.bell := by
  unfold dropPending; simp
@[simp] theorem clearPlot_bell (p : Fin 64) (s : State) :
    (clearPlot p s).bell = s.bell := by
  unfold clearPlot; simp
@[simp] theorem answerWaiting_bell (ep : Bool) (p : Fin 64) (s : State) :
    (answerWaiting ep p s).bell = s.bell := by
  unfold answerWaiting; simp
@[simp] theorem enterClearing_bell (h : Fin 32) (s : State) :
    (enterClearing h s).bell = s.bell := by
  unfold enterClearing; refine (eachOf_bell _ _ _ fun _ _ => ?_).trans ?_ <;> simp
@[simp] theorem unbindDeclared_bell (h : Fin 32) (s : State) :
    (unbindDeclared h s).bell = s.bell := by
  unfold unbindDeclared; simp
@[simp] theorem backToEmpty_bell (h : Fin 32) (s : State) :
    (backToEmpty h s).bell = s.bell := by
  unfold backToEmpty
  simp only [setState_bell, unbindDeclared_bell, unforce_bell, rampHolding_bell]
  exact eachOf_bell _ _ _ fun _ _ => by simp
@[simp] theorem failLoad_bell (code : Byte) (toClearing : Bool) (s : State) :
    (failLoad code toClearing s).bell = s.bell := by
  unfold failLoad; split
  · rfl
  · dsimp only
    have e : ∀ t : State, t.bell = s.bell → ∀ (l : List (Req × Nat)) (k : Fin 32), (eachOf (ownedPlots
        (eachOf l (fun c t => respond c.1 opWrite stBusy 8 (bellNow t) [] t) t) k)
        (fun p t => modBank p (fun b => { b with sys := [] }) t)
        (eachOf l (fun c t => respond c.1 opWrite stBusy 8 (bellNow t) [] t) t)).bell = s.bell := by
      intro t ht l k
      rw [eachOf_bell _ _ _ fun _ _ => by simp, eachOf_bell _ _ _ fun _ _ => by simp]; exact ht
    split
    · simp only [modHolding_bell]; exact e _ (by simp) _ _
    · split
      · simp only [enterClearing_bell, unforce_bell]; exact e _ (by simp) _ _
      · simp only [backToEmpty_bell]; exact e _ (by simp) _ _
@[simp] theorem faultHolding_bell (h : Fin 32) (cause : FaultCause) (s : State) :
    (faultHolding h cause s).bell = s.bell := by
  unfold faultHolding; repeat' split
  all_goals simp
@[simp] theorem setUnfit_bell (p : Fin 64) (s : State) :
    (setUnfit p s).bell = s.bell := by
  unfold setUnfit; simp
@[simp] theorem fatalQuiesce_bell (h : Fin 32) (s : State) :
    (fatalQuiesce h s).bell = s.bell := by
  unfold fatalQuiesce; simp
@[simp] theorem fatalHolding_bell (h : Fin 32) (s : State) :
    (fatalHolding h s).bell = s.bell := by
  unfold fatalHolding; simp
@[simp] theorem deviceFatal_bell (causes : List FatalCause) (s : State) :
    (deviceFatal causes s).bell = s.bell := by
  have k : ∀ t : State, (eachFin 32 fatalHolding t).bell = t.bell := fun t => eachFin_bell _ _ _ fun _ _ => fatalHolding_bell _ _
  have q : ∀ t : State, (eachFin 32 fatalQuiesce t).bell = t.bell := fun t => eachFin_bell _ _ _ fun _ _ => by simp
  unfold deviceFatal; split
  · rfl
  · dsimp only
    split
    · rw [q]; simp only [k, fatalTallies_bell, emit_bell, raiseVec_bell, record_bell, ite_bell, ite_self]
    · simp only [k, fatalTallies_bell, emit_bell, raiseVec_bell, record_bell, ite_bell, ite_self]
@[simp] theorem modQuern_bell (p : Fin 64) (n : Fin 16) (f : Quern → Quern) (s : State) :
    (modQuern p n f s).bell = s.bell := by
  unfold modQuern; rfl
@[simp] theorem quernEmit_bell (p : Fin 64) (n : Fin 16) (zs : List Word) (f : QFlags) (s : State) :
    (quernEmit p n zs f s).bell = s.bell := by
  unfold quernEmit; rfl
@[simp] theorem quernResidue_bell (p : Fin 64) (n : Fin 16) (s : State) :
    (quernResidue p n s).bell = s.bell := by
  unfold quernResidue; simp
@[simp] theorem quernOp_bell (p : Fin 64) (f : State → State) (s : State) (h : ∀ t, (f t).bell = t.bell) :
    (quernOp p f s).bell = s.bell := by
  unfold quernOp; split <;> simp [h]
@[simp] theorem withProduct_bell (p : Fin 64) (n : Fin 16) (ok : Bool) (f : State → State) (s : State)
    (hf : ∀ t, (f t).bell = t.bell) : (withProduct p n ok f s).bell = s.bell := by
  unfold withProduct; rw [quernOp_bell _ _ _ fun t => by split <;> simp [hf]]
@[simp] theorem quernMul_bell (p : Fin 64) (n : Fin 16) (ok : Bool) (x : BitVec 96) (s : State) :
    (quernMul p n ok x s).bell = s.bell := by
  unfold quernMul; simp
@[simp] theorem quernAcc_bell (p : Fin 64) (n : Fin 16) (ok : Bool) (x : Int) (v : BitVec 104 → Bool) (s : State) :
    (quernAcc p n ok x v s).bell = s.bell := by
  unfold quernAcc; simp
@[simp] theorem budgetMove_bell (h : Fin 32) (load : Nat) (s : State) :
    (budgetMove h load s).bell = s.bell := by
  unfold budgetMove; simp only []; repeat' split
  all_goals simp [*]
@[simp] theorem budgetEval_bell (h : Fin 32) (s : State) :
    (budgetEval h s).bell = s.bell := by
  unfold budgetEval; simp
@[simp] theorem budgetSet_bell (h : Fin 32) (units : BitVec 32) (s : State) :
    (budgetSet h units s).bell = s.bell := by
  unfold budgetSet; simp
@[simp] theorem calUnfit_bell (p : Fin 64) (e : Ev) (s : State) :
    (calUnfit p e s).bell = s.bell := by
  unfold calUnfit; simp
@[simp] theorem passesDone_bell (h : Fin 32) (s : State) :
    (passesDone h s).bell = s.bell := by
  unfold passesDone; dsimp only; repeat' split
  all_goals simp [*]
@[simp] theorem passEnd_bell (p : Fin 64) (c0 c1 : Nat) (s : State) :
    (passEnd p c0 c1 s).bell = s.bell := by
  unfold passEnd; simp
@[simp] theorem clearUnfit_bell (p : Fin 64) (s : State) :
    (clearUnfit p s).bell = s.bell := by
  unfold clearUnfit; simp
@[simp] theorem bankWrite_bell (p : Fin 64) (a : Nat) (w : Stored) (s : State) :
    (bankWrite p a w s).bell = s.bell := by
  unfold bankWrite; rfl
@[simp] theorem countHolding_bell (p : Fin 64) (f : Found) (s : State) :
    (countHolding p f s).bell = s.bell := by
  unfold countHolding; simp
@[simp] theorem countFound_bell (p : Fin 64) (f : Found) (s : State) :
    (countFound p f s).bell = s.bell := by
  unfold countFound; simp
@[simp] theorem recordUe_bell (p : Fin 64) (a : Nat) (s : State) :
    (recordUe p a s).bell = s.bell := by
  unfold recordUe; simp
@[simp] theorem uePolicy_bell (p : Fin 64) (data : Word) (s : State) :
    (uePolicy p data s).bell = s.bell := by
  unfold uePolicy; simp
@[simp] theorem queueLine_bell (p : Fin 64) (line : Nat) (s : State) :
    (queueLine p line s).bell = s.bell := by
  unfold queueLine; simp
@[simp] theorem granaryPortRead_bell (p : Fin 64) (a : Nat) (s : State) :
    (granaryPortRead p a s).bell = s.bell := by
  unfold granaryPortRead; simp
@[simp] theorem windowMiss_bell (vf : Fin 33) (h : Fin 32) (write : Bool) (len : Nat) (s : State) :
    (windowMiss vf h write len s).bell = s.bell := by
  unfold windowMiss; simp
@[simp] theorem windowParts_bell (vf : Fin 33) (w : Bool) (k off len : Nat) (b : List Byte) (s : State) :
    (windowParts vf w k off len b s).bell = s.bell := by
  induction k generalizing off len b s with
  | zero => rfl
  | succ n ih =>
    unfold windowParts; dsimp only; repeat' split
    all_goals simp [ih]
@[simp] theorem windowReadUnit_bell (p : Fin 64) (o : WinOp) (s : State) :
    (windowReadUnit p o s).bell = s.bell := by
  unfold windowReadUnit; simp
@[simp] theorem windowWriteUnit_bell (p : Fin 64) (o : WinOp) (s : State) :
    (windowWriteUnit p o s).bell = s.bell := by
  unfold windowWriteUnit; simp
@[simp] theorem windowUnit_bell (p : Fin 64) (o : WinOp) (s : State) :
    (windowUnit p o s).bell = s.bell := by
  unfold windowUnit; simp
@[simp] theorem repairCandidate_bell (p : Fin 64) (a : Nat) (s : State) :
    (repairCandidate p a s).bell = s.bell := by
  unfold repairCandidate; simp
@[simp] theorem noteRow_bell (p : Fin 64) (a : Nat) (s : State) :
    (noteRow p a s).bell = s.bell := by
  unfold noteRow; simp
@[simp] theorem correctWord_bell (scrub : Bool) (p : Fin 64) (a : Nat) (s : State) :
    (correctWord scrub p a s).bell = s.bell := by
  unfold correctWord; simp
@[simp] theorem correctLine_bell (scrub : Bool) (p : Fin 64) (line : Nat) (s : State) :
    (correctLine scrub p line s).bell = s.bell := by
  unfold correctLine; simp
@[simp] theorem scrubUnit_bell (p : Fin 64) (s : State) :
    (scrubUnit p s).bell = s.bell := by
  unfold scrubUnit; simp
@[simp] theorem sysUnit_bell (p : Fin 64) (s : State) :
    (sysUnit p s).bell = s.bell := by
  unfold sysUnit; split <;> simp
@[simp] theorem binUe_bell (p : Fin 64) (b : Fin 24) (row : Nat) (s : State) :
    (binUe p b row s).bell = s.bell := by
  unfold binUe; simp
@[simp] theorem binReadAt_bell (p : Fin 64) (b : Fin 24) (addr : Word) (s : State) :
    (binReadAt p b addr s).bell = s.bell := by
  unfold binReadAt; simp
@[simp] theorem binWriteAt_bell (p : Fin 64) (b : Fin 24) (addr d : Word) (s : State) :
    (binWriteAt p b addr d s).bell = s.bell := by
  unfold binWriteAt; rfl
@[simp] theorem binScrubAt_bell (p : Fin 64) (b : Fin 24) (s : State) :
    (binScrubAt p b s).bell = s.bell := by
  unfold binScrubAt; simp
@[simp] theorem stageGated_bell (q : Fin 256) (p : Fin 64) (port : Fin 8) (it : Item) (s : State) :
    (stageGated q p port it s).bell = s.bell := by
  unfold stageGated; simp
@[simp] theorem refill_bell (q : Fin 256) (s : State) :
    (refill q s).bell = s.bell := by
  unfold refill; repeat' split
  all_goals simp
@[simp] theorem offerItem_bell (q : Fin 256) (it : Item) (s : State) :
    (offerItem q it s).bell = s.bell := by
  unfold offerItem; repeat' split
  all_goals simp
@[simp] theorem acceptItem_bell (q : Fin 256) (s : State) :
    (acceptItem q s).bell = s.bell := by
  unfold acceptItem; split <;> simp
@[simp] theorem closeHandshake_bell (q : Fin 256) (s : State) :
    (closeHandshake q s).bell = s.bell := by
  unfold closeHandshake; simp
@[simp] theorem badItem_bell (q : Fin 256) (toConsumer : Bool) (s : State) :
    (badItem q toConsumer s).bell = s.bell := by
  unfold badItem; rfl
@[simp] theorem routeDiscard_bell (q : Fin 256) (s : State) :
    (routeDiscard q s).bell = s.bell := by
  unfold routeDiscard; rfl
@[simp] theorem dropReplay_bell (l : Fin 48) (s : State) :
    (dropReplay l s).bell = s.bell := by
  unfold dropReplay; rfl
@[simp] theorem leaveActive_bell (l : Fin 48) (s : State) :
    (leaveActive l s).bell = s.bell := by
  unfold leaveActive; simp
@[simp] theorem limvaInit_bell (l : Fin 48) (s : State) :
    (limvaInit l s).bell = s.bell := by
  unfold limvaInit; simp
@[simp] theorem limvaOff_bell (l : Fin 48) (s : State) :
    (limvaOff l s).bell = s.bell := by
  unfold limvaOff; simp
@[simp] theorem limvaUnfit_bell (l : Fin 48) (s : State) :
    (limvaUnfit l s).bell = s.bell := by
  unfold limvaUnfit; simp
@[simp] theorem limvaPeriod_bell (s : State) :
    (limvaPeriod s).bell = s.bell := by
  unfold limvaPeriod; simp
@[simp] theorem laneOff_bell (l : Fin 48) (s : State) :
    (laneOff l s).bell = s.bell := by
  unfold laneOff; simp
@[simp] theorem laneEval_bell (l : Fin 48) (s : State) :
    (laneEval l s).bell = s.bell := by
  unfold laneEval; simp
@[simp] theorem laneLost_bell (l : Fin 48) (cut : Bool) (s : State) :
    (laneLost l cut s).bell = s.bell := by
  unfold laneLost; simp
@[simp] theorem laneUp_bell (l : Fin 48) (s : State) :
    (laneUp l s).bell = s.bell := by
  unfold laneUp; simp
@[simp] theorem laneLeaves_bell (l : Fin 48) (s : State) :
    (laneLeaves l s).bell = s.bell := by
  unfold laneLeaves; simp
@[simp] theorem pllLost_bell (n : Fin 12) (b : Bool) (s : State) :
    (pllLost n b s).bell = s.bell := by
  unfold pllLost; dsimp only
  rw [eachOf_bell _ _ _ fun _ _ => by simp, eachOf_bell _ _ _ fun _ _ => by simp]; simp
@[simp] theorem prbsFeed_bell (l : Fin 48) (bits : List Bool) (s : State) :
    (prbsFeed l bits s).bell = s.bell := by
  unfold prbsFeed; rfl
@[simp] theorem laneReceive_bell (l : Fin 48) (it : Item) (s : State) :
    (laneReceive l it s).bell = s.bell := by
  unfold laneReceive; split <;> simp
@[simp] theorem gearboxItem_bell (l : Fin 48) (it : Item) (s : State) :
    (gearboxItem l it s).bell = s.bell := by
  unfold gearboxItem; simp
@[simp] theorem receiveGroup_bell (l : Fin 48) (bs : List Block) (s : State) :
    (receiveGroup l bs s).bell = s.bell := by
  unfold receiveGroup; simp
@[simp] theorem loopBlocks_bell (l : Fin 48) (bs : List Block) (s : State) :
    (loopBlocks l bs s).bell = s.bell := by
  unfold loopBlocks; simp
@[simp] theorem txBlock_bell (l : Fin 48) (b : Block) (s : State) :
    (txBlock l b s).bell = s.bell := by
  unfold txBlock; rfl
@[simp] theorem farEcho_bell (l : Fin 48) (bs : List Block) (s : State) :
    (farEcho l bs s).bell = s.bell := by
  unfold farEcho; simp
@[simp] theorem receiveRaw_bell (l : Fin 48) (w : Word) (s : State) :
    (receiveRaw l w s).bell = s.bell := by
  unfold receiveRaw; simp
@[simp] theorem txRaw_bell (l : Fin 48) (w : Word) (s : State) :
    (txRaw l w s).bell = s.bell := by
  unfold txRaw; rfl
@[simp] theorem laneTake_bell (l : Fin 48) (q : Fin 256) (s : State) :
    (laneTake l q s).bell = s.bell := by
  unfold laneTake; split <;> simp
@[simp] theorem takeItems_bell (l : Fin 48) (q : Fin 256) (n : Nat) (s : State) :
    (takeItems l q n s).bell = s.bell := by
  unfold takeItems; simp
@[simp] theorem discardOdd_bell (l : Fin 48) (q : Fin 256) (a0 : Nat) (s : State) :
    (discardOdd l q a0 s).bell = s.bell := by
  induction a0 generalizing s with
  | zero => rfl
  | succ n ih =>
    unfold discardOdd; repeat' split
    all_goals simp [ih]
@[simp] theorem sendBlock_bell (l : Fin 48) (b : Block) (s : State) :
    (sendBlock l b s).bell = s.bell := by
  unfold sendBlock; simp
@[simp] theorem txCoded_bell (l : Fin 48) (s : State) :
    (txCoded l s).bell = s.bell := by
  unfold txCoded; simp only []; repeat' split
  all_goals simp [*]
@[simp] theorem sendRaw_bell (l : Fin 48) (w : Word) (s : State) :
    (sendRaw l w s).bell = s.bell := by
  unfold sendRaw; simp
@[simp] theorem dropMarkers_bell (l : Fin 48) (q : Fin 256) (a0 : Nat) (s : State) :
    (dropMarkers l q a0 s).bell = s.bell := by
  induction a0 generalizing s with
  | zero => rfl
  | succ n ih =>
    unfold dropMarkers; repeat' split
    all_goals simp [ih]
@[simp] theorem txRawWord_bell (l : Fin 48) (s : State) :
    (txRawWord l s).bell = s.bell := by
  unfold txRawWord; simp only []; repeat' split
  all_goals simp [*]
@[simp] theorem txFabric_bell (l : Fin 48) (s : State) :
    (txFabric l s).bell = s.bell := by
  unfold txFabric; simp only []; repeat' split
  all_goals simp [*]
@[simp] theorem sendFrame_bell (l : Fin 48) (seq : BitVec 12) (count kind : Nat) (body : List (BitVec 64)) (s : State) :
    (sendFrame l seq count kind body s).bell = s.bell := by
  unfold sendFrame; rfl
@[simp] theorem replayFrames_bell (l : Fin 48) (f : List (BitVec 12 × List Item)) (n : Nat) (s : State) :
    (replayFrames l f n s).1.bell = s.bell := by
  induction f generalizing n s with
  | nil => simp [replayFrames]
  | cons f fs ih => unfold replayFrames; split <;> simp [ih]
@[simp] theorem newFrame_bell (l : Fin 48) (n : Nat) (s : State) :
    (newFrame l n s).bell = s.bell := by
  unfold newFrame; split <;> simp
@[simp] theorem newFrames_bell (l : Fin 48) (k n : Nat) (s : State) : (newFrames l k n s).bell = s.bell := by
  induction k generalizing n s with
  | zero => rfl
  | succ k ih => unfold newFrames; dsimp only; split <;> simp [ih]
@[simp] theorem firstFrames_bell (l : Fin 48) (n : Nat) (s : State) :
    (firstFrames l n s).bell = s.bell := by
  unfold firstFrames; simp
@[simp] theorem limvaSlot_bell (l : Fin 48) (s : State) :
    (limvaSlot l s).bell = s.bell := by
  unfold limvaSlot; simp only []; repeat' split
  all_goals simp [*]
@[simp] theorem limvaSlot15_bell (l : Fin 48) (s : State) :
    (limvaSlot15 l s).bell = s.bell := by
  unfold limvaSlot15; simp only []; repeat' split
  all_goals simp [*]
@[simp] theorem limvaBoundary_bell (s : State) :
    (limvaBoundary s).bell = s.bell := by
  unfold limvaBoundary; simp
@[simp] theorem takeFrame_bell (l : Fin 48) (f : Frame) (st : LimvaSt) (k : Nat) (run : State → State) (s : State)
    (h : ∀ t, (run t).bell = t.bell) : (takeFrame l f st k run s).bell = s.bell := by
  unfold takeFrame; dsimp only; repeat' split
  all_goals simp [h]
@[simp] theorem dataFrame_bell (l : Fin 48) (f : Frame) (s : State) :
    (dataFrame l f s).bell = s.bell := by
  unfold dataFrame; simp
@[simp] theorem bellFrame_bell (l : Fin 48) (f : Frame) (s : State) :
    (bellFrame l f s).bell = s.bell := by
  unfold bellFrame; simp
@[simp] theorem resume_bell (l : Fin 48) (f : Frame) (s : State) :
    (resume l f s).bell = s.bell := by
  unfold resume; simp
@[simp] theorem freshStart_bell (l : Fin 48) (f : Frame) (s : State) :
    (freshStart l f s).bell = s.bell := by
  unfold freshStart; simp
@[simp] theorem initFrame_bell (l : Fin 48) (f : Frame) (s : State) :
    (initFrame l f s).bell = s.bell := by
  unfold initFrame; simp
@[simp] theorem resyncFrame_bell (l : Fin 48) (f : Frame) (s : State) :
    (resyncFrame l f s).bell = s.bell := by
  unfold resyncFrame; simp only []; repeat' split
  all_goals simp [*]
@[simp] theorem limvaEdge_bell (s : State) :
    (limvaEdge s).bell = s.bell := by
  unfold limvaEdge; simp
@[simp] theorem laneWrite_bell (l : Fin 48) (sub v : Nat) (s : State) :
    (laneWrite l sub v s).bell = s.bell := by
  unfold laneWrite; split <;> simp
@[simp] theorem commitOut_bell (u : Fin 32) (its : List Item) (s : State) :
    (commitOut u its s).bell = s.bell := by
  unfold commitOut; split <;> simp
@[simp] theorem cvuTake_bell (u : Fin 32) (r : Cvu × List Item) (s : State) :
    (cvuTake u r s).bell = s.bell := by
  unfold cvuTake; simp
@[simp] theorem cvuItem_bell (u : Fin 32) (s : State) :
    (cvuItem u s).bell = s.bell := by
  unfold cvuItem; simp only []; repeat' split
  all_goals simp [*]
@[simp] theorem cvuStop_bell (u : Fin 32) (s : State) :
    (cvuStop u s).bell = s.bell := by
  unfold cvuStop; simp
@[simp] theorem unitLeaves_bell (u : Fin 32) (s : State) :
    (unitLeaves u s).bell = s.bell := by
  unfold unitLeaves; simp
@[simp] theorem cvuEdge_bell (u : Fin 32) (s : State) :
    (cvuEdge u s).bell = s.bell := by
  unfold cvuEdge; simp
@[simp] theorem cvuWrite_bell (u : Fin 32) (sub v : Nat) (s : State) :
    (cvuWrite u sub v s).bell = s.bell := by
  unfold cvuWrite; rfl
@[simp] theorem xferEnd_bell (n : Nat) (rx : List Byte) (st : Byte) (s : State) :
    (xferEnd n rx st s).bell = s.bell := by
  unfold xferEnd; simp
@[simp] theorem sspError_bell (s : State) :
    (sspError s).bell = s.bell := by
  unfold sspError; rfl
@[simp] theorem sspSubmit_bell (len : Nat) (s : State) :
    (sspSubmit len s).bell = s.bell := by
  unfold sspSubmit; simp
@[simp] theorem sspAckResponse_bell (s : State) :
    (sspAckResponse s).bell = s.bell := by
  unfold sspAckResponse; rfl
@[simp] theorem sspAckNotice_bell (s : State) :
    (sspAckNotice s).bell = s.bell := by
  unfold sspAckNotice; rfl
@[simp] theorem controlWrite_bell (a : Nat) (b : Byte) (s : State) :
    (controlWrite a b s).bell = s.bell := by
  unfold controlWrite; repeat' split
  all_goals simp
@[simp] theorem blockWrite_bell (block a : Nat) (b : Byte) (s : State) :
    (blockWrite block a b s).bell = s.bell := by
  unfold blockWrite; simp
@[simp] theorem guarded_bell (a n : Nat) (o : FlashOp) (s : State) :
    (guarded a n o s).bell = s.bell := by
  unfold guarded; simp
@[simp] theorem failOp_bell (o : FlashOp) (e : Ev) (s : State) :
    (failOp o e s).bell = s.bell := by
  unfold failOp; simp
@[simp] theorem sspWrite_bell (sub off : Nat) (v : Val) (s : State) :
    (sspWrite sub off v s).bell = s.bell := by
  unfold sspWrite; split <;> simp
@[simp] theorem addTrans_bell (h : Fin 32) (k : TransKind) (rq : Option Req) (s : State) :
    (addTrans h k rq s).1.bell = s.bell := by
  unfold addTrans; simp
@[simp] theorem edgeAction_bell (h : Fin 32) (k : TransKind) (s : State) :
    (edgeAction h k s).1.bell = s.bell := by
  unfold edgeAction; simp
@[simp] theorem onceAction_bell (h : Fin 32) (k : TransKind) (rq : Req) (now : Option Req → State → State) (s : State)
    (hn : ∀ r t, (now r t).bell = t.bell) : (onceAction h k rq now s).1.bell = s.bell := by
  unfold onceAction; split <;> simp [hn]
@[simp] theorem setOwner_bell (p : Fin 64) (h : Fin 32) (s : State) :
    (setOwner p h s).bell = s.bell := by
  unfold setOwner; simp
@[simp] theorem assignRect_bell (h : Fin 32) (v : BitVec 32) (s : State) :
    (assignRect h v s).bell = s.bell := by
  unfold assignRect; simp
@[simp] theorem setMask_bell (h : Fin 32) (k : MaskKind) (v : Nat) (s : State) :
    (setMask h k v s).bell = s.bell := by
  unfold setMask; dsimp only; split
  all_goals rw [modHolding_bell, eachOf_bell _ _ _ fun _ _ => by simp]
@[simp] theorem checkHedge_bell (e : Fin 112) (s : State) :
    (checkHedge e s).bell = s.bell := by
  unfold checkHedge; split
  · rfl
  · dsimp only
    rw [eachOf_bell _ _ _ fun _ _ => by simp, eachOf_bell _ _ _ fun _ _ => by simp]; simp
@[simp] theorem checkHedges_bell (s : State) :
    (checkHedges s).bell = s.bell := by
  unfold checkHedges; simp
@[simp] theorem becomeRunning_bell (h : Fin 32) (s : State) :
    (becomeRunning h s).bell = s.bell := by
  unfold becomeRunning; simp
@[simp] theorem becomeQuiesced_bell (h : Fin 32) (s : State) :
    (becomeQuiesced h s).bell = s.bell := by
  unfold becomeQuiesced; simp
@[simp] theorem forceStopped_bell (h : Fin 32) (s : State) :
    (forceStopped h s).bell = s.bell := by
  unfold forceStopped; simp
@[simp] theorem beginDoze_bell (h : Fin 32) (s : State) :
    (beginDoze h s).bell = s.bell := by
  unfold beginDoze; simp
@[simp] theorem dozeDone_bell (h : Fin 32) (s : State) :
    (dozeDone h s).bell = s.bell := by
  unfold dozeDone; simp
@[simp] theorem dozeNow_bell (h : Fin 32) (rq : Option Req) (s : State) :
    (dozeNow h rq s).bell = s.bell := by
  unfold dozeNow; simp only []; repeat' split
  all_goals simp [*]
@[simp] theorem wakeNow_bell (h : Fin 32) (rq : Option Req) (s : State) :
    (wakeNow h rq s).bell = s.bell := by
  unfold wakeNow; simp
@[simp] theorem wakeEdge_bell (h : Fin 32) (s : State) :
    (wakeEdge h s).bell = s.bell := by
  unfold wakeEdge; simp
@[simp] theorem resetHolding_bell (h : Fin 32) (s : State) :
    (resetHolding h s).bell = s.bell := by
  unfold resetHolding; dsimp only
  refine (eachFin_bell _ _ _ fun u t => ?_).trans ((eachOf_bell _ _ _ fun _ _ => ?_).trans ((eachOf_bell _ _ _ fun _ _ => ?_).trans ?_))
  · split <;> simp
  all_goals simp
@[simp] theorem resetNow_bell (h : Fin 32) (rq : Option Req) (s : State) :
    (resetNow h rq s).bell = s.bell := by
  unfold resetNow; simp
@[simp] theorem clearHolding_bell (h : Fin 32) (s : State) :
    (clearHolding h s).bell = s.bell := by
  unfold clearHolding; simp
@[simp] theorem clearNow_bell (h : Fin 32) (rq : Option Req) (s : State) :
    (clearNow h rq s).bell = s.bell := by
  unfold clearNow; simp
@[simp] theorem clearComplete_bell (h : Fin 32) (s : State) :
    (clearComplete h s).bell = s.bell := by
  unfold clearComplete; simp
@[simp] theorem plotCleared_bell (p : Fin 64) (s : State) :
    (plotCleared p s).bell = s.bell := by
  unfold plotCleared; simp
@[simp] theorem regulatorFault_bell (p : Fin 64) (overCur : Bool) (s : State) :
    (regulatorFault p overCur s).bell = s.bell := by
  unfold regulatorFault; simp
@[simp] theorem applyVoltage_bell (h : Fin 32) (s : State) :
    (applyVoltage h s).bell = s.bell := by
  unfold applyVoltage; simp only []; repeat' split
  all_goals simp [*]
@[simp] theorem beginFreeze_bell (h : Fin 32) (s : State) :
    (beginFreeze h s).bell = s.bell := by
  unfold beginFreeze; split
  · rfl
  · exact (modHolding_bell _ _ _).trans (eachOf_bell _ _ _ fun _ _ => rfl)
@[simp] theorem cutHeld_bell (h : Fin 32) (s : State) :
    (cutHeld h s).bell = s.bell := by
  unfold cutHeld; simp
@[simp] theorem freezeEdgeWork_bell (h : Fin 32) (s : State) :
    (freezeEdgeWork h s).bell = s.bell := by
  unfold freezeEdgeWork; simp
@[simp] theorem freezeGivenUp_bell (h : Fin 32) (s : State) :
    (freezeGivenUp h s).bell = s.bell := by
  unfold freezeGivenUp; simp
@[simp] theorem startSnapshot_bell (h : Fin 32) (rq : Req) (s : State) :
    (startSnapshot h rq s).bell = s.bell := by
  unfold startSnapshot; simp
@[simp] theorem force_bell (h : Fin 32) (s : State) :
    (force h s).bell = s.bell := by
  unfold force; exact eachOf_bell _ _ _ fun _ _ => by simp
@[simp] theorem beginSnapshot_bell (h : Fin 32) (s : State) :
    (beginSnapshot h s).bell = s.bell := by
  unfold beginSnapshot; split <;> simp
@[simp] theorem commitPacket_bell (q : Fin 256) (l : List Item) (s : State) :
    (commitPacket q l s).bell = s.bell := by
  unfold commitPacket; simp
@[simp] theorem countSnapshotReads_bell (h : Fin 32) (s : State) :
    (countSnapshotReads h s).bell = s.bell := by
  unfold countSnapshotReads; simp
@[simp] theorem snapshotDone_bell (j : SnapJob) (total : Nat) (s : State) :
    (snapshotDone j total s).bell = s.bell := by
  unfold snapshotDone; simp
@[simp] theorem snapshotStep_bell (j : SnapJob) (s : State) :
    (snapshotStep j s).bell = s.bell := by
  unfold snapshotStep; simp
@[simp] theorem beginRestore_bell (h : Fin 32) (s : State) :
    (beginRestore h s).bell = s.bell := by
  unfold beginRestore; split <;> simp
@[simp] theorem discardQueues_bell (h : Fin 32) (s : State) :
    (discardQueues h s).bell = s.bell := by
  unfold discardQueues; simp
@[simp] theorem applyPoison_bell (p : Fin 64) (e : Nat) (s : State) :
    (applyPoison p e s).bell = s.bell := by
  unfold applyPoison; simp
@[simp] theorem applySection_bell (h : Fin 32) (x : Section) (s : State) :
    (applySection h x s).bell = s.bell := by
  unfold applySection; simp only []; repeat' split
  all_goals simp [*]
@[simp] theorem applyStream_bell (h : Fin 32) (k : Nat) (b : List Byte) (s : State) :
    (applyStream h k b s).1.bell = s.bell := by
  induction k generalizing b s with
  | zero => rfl
  | succ k ih => unfold applyStream; repeat' split
                 all_goals simp [ih]
@[simp] theorem commitCarried_bell (q : Fin 256) (b : List Byte) (s : State) :
    (commitCarried q b s).bell = s.bell := by
  unfold commitCarried; simp
@[simp] theorem restoreQueue_bell (j : RestoreJob) (q : Fin 256) (s : State) :
    (restoreQueue j q s).bell = s.bell := by
  unfold restoreQueue; split <;> simp
@[simp] theorem restoreDone_bell (s : State) :
    (restoreDone s).bell = s.bell := by
  unfold restoreDone; repeat' split
  all_goals simp
@[simp] theorem restoreFails_bell (code : Byte) (s : State) :
    (restoreFails code s).bell = s.bell := by
  unfold restoreFails; split <;> simp
@[simp] theorem applyRecord_bell (j : RestoreJob) (x : SnapHdr) (plain : List Byte) (s : State) :
    (applyRecord j x plain s).bell = s.bell := by
  unfold applyRecord; simp only []; repeat' split
  all_goals simp [*]
@[simp] theorem restorePart_bell (j : RestoreJob) (part : SnapPart) (s : State) :
    (restorePart j part s).bell = s.bell := by
  unfold restorePart; repeat' split
  all_goals simp
@[simp] theorem takePacket_bell (q : Fin 256) (n : Nat) (s : State) :
    (takePacket q n s).bell = s.bell := by
  unfold takePacket; simp
@[simp] theorem reportUnfit_bell (s : State) :
    (reportUnfit s).bell = s.bell := by
  unfold reportUnfit; simp
@[simp] theorem abandonAll_bell (s : State) :
    (abandonAll s).bell = s.bell := by
  unfold abandonAll; simp
@[simp] theorem linkLost_bell (s : State) :
    (linkLost s).bell = s.bell := by
  unfold linkLost; simp
@[simp] theorem ringCtrl_bell (q : Fin 256) (v : BitVec 32) (s : State) :
    (ringCtrl q v s).bell = s.bell := by
  unfold ringCtrl; rfl
@[simp] theorem drainRing_bell (q : Fin 256) (s : State) :
    (drainRing q s).bell = s.bell := by
  unfold drainRing; rfl
@[simp] theorem ringTail_bell (q : Fin 256) (v : BitVec 16) (s : State) :
    (ringTail q v s).bell = s.bell := by
  unfold ringTail; simp
@[simp] theorem clearRingError_bell (q : Fin 256) (s : State) :
    (clearRingError q s).bell = s.bell := by
  unfold clearRingError; simp
@[simp] theorem unmask_bell (f : Fin 33) (v : Nat) (s : State) :
    (unmask f v s).bell = s.bell := by
  unfold unmask; simp
@[simp] theorem tableWrite_bell (f : Fin 33) (off : Nat) (v : BitVec 32) (s : State) :
    (tableWrite f off v s).bell = s.bell := by
  unfold tableWrite; simp
@[simp] theorem submit_bell (slot : Fin 8) (len : Nat) (s : State) :
    (submit slot len s).bell = s.bell := by
  unfold submit; simp
@[simp] theorem clearReady_bell (mask : Byte) (s : State) :
    (clearReady mask s).bell = s.bell := by
  unfold clearReady; rfl
@[simp] theorem ringRegWrite_bell (q : Fin 256) (off : Nat) (v : BitVec 32) (s : State) :
    (ringRegWrite q off v s).bell = s.bell := by
  unfold ringRegWrite; simp
@[simp] theorem pf0Write_bell (off : Nat) (v : BitVec 32) (s : State) :
    (pf0Write off v s).bell = s.bell := by
  unfold pf0Write; simp
@[simp] theorem vfWrite_bell (f : Fin 33) (off : Nat) (v : BitVec 32) (s : State) :
    (vfWrite f off v s).bell = s.bell := by
  unfold vfWrite; simp
@[simp] theorem regWrite_bell (f : Fin 33) (off : Nat) (v : BitVec 32) (s : State) :
    (regWrite f off v s).bell = s.bell := by
  unfold regWrite; simp
@[simp] theorem issue_bell (q : Fin 256) (s : State) :
    (issue q s).bell = s.bell := by
  unfold issue; rfl
@[simp] theorem modTallies_bell (q : Fin 256) (p : Tally → Bool) (f : Tally → Tally) (s : State) :
    (modTallies q p f s).bell = s.bell := by
  unfold modTallies; rfl
@[simp] theorem dataWrite_bell (q : Fin 256) (s : State) :
    (dataWrite q s).bell = s.bell := by
  unfold dataWrite; split <;> simp
@[simp] theorem dataRead_bell (q : Fin 256) (s : State) :
    (dataRead q s).bell = s.bell := by
  unfold dataRead; split <;> simp
@[simp] theorem descRead_bell (q : Fin 256) (s : State) :
    (descRead q s).bell = s.bell := by
  unfold descRead; rfl
@[simp] theorem spend_bell (q : Fin 256) (s : State) :
    (spend q s).bell = s.bell := by
  unfold spend; rfl
@[simp] theorem runUnit_bell (q : Fin 256) (k : DmaKind) (s : State) :
    (runUnit q k s).bell = s.bell := by
  unfold runUnit; simp only []; repeat' split
  all_goals simp [*]
@[simp] theorem descFailed_bell (q : Fin 256) (code : Nat) (s : State) :
    (descFailed q code s).bell = s.bell := by
  unfold descFailed; simp
@[simp] theorem takeWord_bell (q : Fin 256) (bad : Bool) (w : BitVec 64) (s : State) :
    (takeWord q bad w s).bell = s.bell := by
  unfold takeWord; simp
@[simp] theorem readFails_bell (q : Fin 256) (aer : Nat) (s : State) :
    (readFails q aer s).bell = s.bell := by
  unfold readFails; simp
@[simp] theorem dataArrives_bell (q : Fin 256) (poisoned : Bool) (words : List (BitVec 64)) (s : State) :
    (dataArrives q poisoned words s).bell = s.bell := by
  unfold dataArrives; split <;> simp
@[simp] theorem eachRing_bell (f : Fin 33) (g : Fin 256 → State → State) (s : State)
    (h : ∀ q t, (g q t).bell = t.bell) : (eachRing f g s).bell = s.bell := by
  unfold eachRing; simp [h]
@[simp] theorem vfReset_bell (f : Fin 33) (s : State) :
    (vfReset f s).bell = s.bell := by
  unfold vfReset; simp
@[simp] theorem clearPf0Mailbox_bell (s : State) :
    (clearPf0Mailbox s).bell = s.bell := by
  unfold clearPf0Mailbox; rfl
@[simp] theorem disableVfs_bell (s : State) :
    (disableVfs s).bell = s.bell := by
  unfold disableVfs; simp
@[simp] theorem pf0Reset_bell (s : State) :
    (pf0Reset s).bell = s.bell := by
  unfold pf0Reset
  exact (disableVfs_bell _).trans ((eachRing_bell _ _ _ fun _ _ => resetRing_bell _ _ _).trans (by simp))
@[simp] theorem hotReset_bell (s : State) :
    (hotReset s).bell = s.bell := by
  unfold hotReset; simp
@[simp] theorem notify_bell (se : Session) (inner : List Byte) (s : State) :
    (notify se inner s).bell = s.bell := by
  unfold notify; simp
@[simp] theorem modSub_bell (id : BitVec 32) (k : BitVec 8) (f : Subn → Subn) (s : State) :
    (modSub id k f s).bell = s.bell := by
  unfold modSub; rfl
@[simp] theorem sendReport_bell (id : BitVec 32) (k : BitVec 8) (s : State) :
    (sendReport id k s).bell = s.bell := by
  unfold sendReport; simp only []; repeat' split
  all_goals simp [*]
@[simp] theorem transmitOne_bell (s : State) :
    (transmitOne s).bell = s.bell := by
  unfold transmitOne; simp only []; repeat' split
  all_goals simp [*]
@[simp] theorem enqueue_bell (o : Out) (s : State) :
    (enqueue o s).bell = s.bell := by
  unfold enqueue; rfl
@[simp] theorem hearNeighbour_bell (src : BitVec 64) (body : List Byte) (s : State) :
    (hearNeighbour src body s).bell = s.bell := by
  unfold hearNeighbour; rfl
@[simp] theorem answerSolicit_bell (src : BitVec 64) (s : State) :
    (answerSolicit src s).bell = s.bell := by
  unfold answerSolicit; simp
@[simp] theorem answerPlain_bell (p : Path) (kind : Byte) (sess : BitVec 32) (body : List Byte) (s : State) :
    (answerPlain p kind sess body s).bell = s.bell := by
  unfold answerPlain; split <;> simp
@[simp] theorem refuse_bell (p : Path) (st : Byte) (s : State) :
    (refuse p st s).bell = s.bell := by
  unfold refuse; simp
@[simp] theorem welcome_bell (p : Path) (hello : List Byte) (s : State) :
    (welcome p hello s).bell = s.bell := by
  unfold welcome; simp
@[simp] theorem hello_bell (p : Path) (body : List Byte) (s : State) :
    (hello p body s).bell = s.bell := by
  unfold hello; simp
@[simp] theorem authFails_bell (rq : Req) (se : Session) (c : Cred) (s : State) :
    (authFails rq se c s).bell = s.bell := by
  unfold authFails; simp only []; repeat' split
  all_goals simp [*]
@[simp] theorem putReport_bell (se : Session) (k : BitVec 8) (b : List Byte) (s : State) :
    (putReport se k b s).bell = s.bell := by
  unfold putReport; simp
@[simp] theorem endSub_bell (se : Session) (x : Subn) (b : List Byte) (s : State) :
    (endSub se x b s).bell = s.bell := by
  unfold endSub; simp only []; repeat' split
  all_goals simp [*]
@[simp] theorem writeDir_bell (f : Dir → Dir) (s : State) :
    (writeDir f s).bell = s.bell := by
  unfold writeDir; simp
@[simp] theorem haltBoot_bell (code : BitVec 2) (s : State) :
    (haltBoot code s).bell = s.bell := by
  unfold haltBoot; simp
@[simp] theorem releaseCore_bell (c : Fin 4) (s2 : Digest) (s : State) :
    (releaseCore c s2 s).bell = s.bell := by
  unfold releaseCore; simp
@[simp] theorem activateSlot_bell (s : State) :
    (activateSlot s).bell = s.bell := by
  unfold activateSlot; simp
@[simp] theorem advanceRollback_bell (s : State) :
    (advanceRollback s).bell = s.bell := by
  unfold advanceRollback; simp
@[simp] theorem repairDirectory_bell (s : State) :
    (repairDirectory s).bell = s.bell := by
  unfold repairDirectory; simp
@[simp] theorem healthPasses_bell (s : State) :
    (healthPasses s).bell = s.bell := by
  unfold healthPasses; simp
@[simp] theorem writePage_bell (off : Nat) (b : List Byte) (s : State) :
    (writePage off b s).bell = s.bell := by
  unfold writePage; simp
@[simp] theorem slotPacket_bell (l : List Item) (s : State) :
    (slotPacket l s).bell = s.bell := by
  unfold slotPacket; simp
@[simp] theorem updateSlot_bell (x : SlotScan) (s : State) :
    (updateSlot x s).1.bell = s.bell := by
  unfold updateSlot; repeat' split
  all_goals simp
@[simp] theorem rotate_bell (rq : Req) (hash : Digest) (s : State) :
    (rotate rq hash s).bell = s.bell := by
  unfold rotate; simp
@[simp] theorem attest_bell (role : Role) (nonce : BitVec 256) (s : State) :
    (attest role nonce s).bell = s.bell := by
  unfold attest; rfl
@[simp] theorem runAttest_bell (rq : Req) (nonce : BitVec 256) (s : State) :
    (runAttest rq nonce s).bell = s.bell := by
  unfold runAttest; split <;> simp
@[simp] theorem rngFailed_bell (s : State) :
    (rngFailed s).bell = s.bell := by
  unfold rngFailed; simp
@[simp] theorem wakeOne_bell (w : WaitOp) (s : State) :
    (wakeOne w s).bell = s.bell := by
  unfold wakeOne; split <;> simp
@[simp] theorem seedDrbg_bell (s : State) :
    (seedDrbg s).bell = s.bell := by
  unfold seedDrbg; simp
@[simp] theorem coresBack_bell (s : State) :
    (coresBack s).bell = s.bell := by
  unfold coresBack; simp
@[simp] theorem beginLoad_bell (h : Fin 32) (s : State) :
    (beginLoad h s).bell = s.bell := by
  unfold beginLoad; simp
@[simp] theorem loadReady_bell (h : Fin 32) (s : State) :
    (loadReady h s).bell = s.bell := by
  unfold loadReady; split <;> simp
@[simp] theorem bindDecl_bell (h : Fin 32) (e : Nat) (d : Decl) (q : Fin 256) (s : State) :
    (bindDecl h e d q s).bell = s.bell := by
  unfold bindDecl; simp
@[simp] theorem bindDecls_bell (h : Fin 32) (e : Nat) (l : List Decl) (s : State) :
    (bindDecls h e l s).1.bell = s.bell := by
  induction l generalizing s with
  | nil => rfl
  | cons d l ih => unfold bindDecls; repeat' split
                   all_goals simp [ih]
@[simp] theorem bindStep_bell (l : Load) (s : State) :
    (bindStep l s).bell = s.bell := by
  unfold bindStep; simp only []; repeat' split
  all_goals simp [*]
@[simp] theorem applyConfig_bell (p : Fin 64) (a : Nat) (w : Word) (s : State) :
    (applyConfig p a w s).bell = s.bell := by
  unfold applyConfig; split <;> simp
theorem applyWord_bell (l : Load) (x : ImgSection) (a : Nat) (w : Word) (s t : State) (h : applyWord l x a w s = some t) :
    t.bell = s.bell := by
  unfold applyWord at h; dsimp only at h; repeat' split at h
  all_goals simp at h
  all_goals (subst h; simp)
@[simp] theorem endSection_bell (l : Load) (x : ImgSection) (s : State) :
    (endSection l x s).bell = s.bell := by
  unfold endSection; simp
@[simp] theorem openFrame_bell (l : Load) (x : ImgSection) (s : State) :
    (openFrame l x s).bell = s.bell := by
  unfold openFrame; simp
@[simp] theorem frameWord_bell (l : Load) (x : ImgSection) (s : State) :
    (frameWord l x s).bell = s.bell := by
  unfold frameWord; dsimp only; split
  · simp
  · rename_i t ht; simp [applyWord_bell _ _ _ _ _ _ ht]
@[simp] theorem finishLoad_bell (l : Load) (s : State) :
    (finishLoad l s).bell = s.bell := by
  unfold finishLoad; dsimp only; split <;> simp
theorem applyStep_bell (l : Load) (s t : State) (ht : applyStep l s = some t) : t.bell = s.bell := by
  unfold applyStep at ht; dsimp only at ht; repeat' split at ht
  all_goals simp at ht
  all_goals (subst ht; simp)
@[simp] theorem takeBytes_bell (l : Load) (n : Nat) (s : State) :
    (takeBytes l n s).bell = s.bell := by
  unfold takeBytes; simp
theorem loadStep_bell (l : Load) (s t : State) (ht : loadStep l s = some t) : t.bell = s.bell := by
  unfold loadStep at ht; dsimp only at ht; repeat' split at ht
  all_goals first
    | (simp at ht; done)
    | exact applyStep_bell _ _ _ ht
    | (simp at ht; subst ht; simp)
@[simp] theorem runLoader_bell (a0 : Nat) (s : State) :
    (runLoader a0 s).bell = s.bell := by
  induction a0 generalizing s with
  | zero => rfl
  | succ n ih =>
    unfold runLoader; split
    · rfl
    · split
      · rfl
      · split
        · rw [ih, loadStep_bell _ _ _ (by assumption)]
        · dsimp only; repeat' split
          all_goals simp [ih]
@[simp] theorem loader_bell (s : State) :
    (loader s).bell = s.bell := by
  unfold loader; split <;> simp
@[simp] theorem loadEdge_bell (s : State) :
    (loadEdge s).bell = s.bell := by
  unfold loadEdge; split <;> simp
@[simp] theorem takeSource_bell (l : Load) (s : State) :
    (takeSource l s).bell = s.bell := by
  unfold takeSource; split <;> simp
@[simp] theorem takeItemsUpTo_bell (a0 : Nat) (s : State) :
    (takeItemsUpTo a0 s).bell = s.bell := by
  induction a0 generalizing s with
  | zero => rfl
  | succ n ih =>
    unfold takeItemsUpTo; repeat' split
    all_goals simp [ih]
@[simp] theorem addChunk_bell (rq : Req) (b : List Byte) (l : Load) (s : State) :
    (addChunk rq b l s).bell = s.bell := by
  unfold addChunk; simp
@[simp] theorem configScrub_bell (p : Fin 64) (s : State) :
    (configScrub p s).bell = s.bell := by
  unfold configScrub; simp
@[simp] theorem writeRecord_bell (r : Rec) (s : State) :
    (writeRecord r s).bell = s.bell := by
  unfold writeRecord; split <;> simp
@[simp] theorem flushIntake_bell (s : State) :
    (flushIntake s).bell = s.bell := by
  unfold flushIntake; simp
@[simp] theorem losePage_bell (p : Nat) (s : State) :
    (losePage p s).bell = s.bell := by
  unfold losePage; simp
@[simp] theorem intakeStep_bell (ue : Bool) (s : State) :
    (intakeStep ue s).bell = s.bell := by
  unfold intakeStep; split <;> simp
@[simp] theorem scrubLedger_bell (s : State) :
    (scrubLedger s).bell = s.bell := by
  unfold scrubLedger; simp
@[simp] theorem thermalRecord_bell (e : Ev) (sensors : List Nat) (s : State) :
    (thermalRecord e sensors s).bell = s.bell := by
  unfold thermalRecord; simp
@[simp] theorem thermalAlert_bell (s : State) :
    (thermalAlert s).bell = s.bell := by
  unfold thermalAlert; simp
@[simp] theorem samplePlot_bell (v : Sensors) (p : Fin 64) (s : State) :
    (samplePlot v p s).bell = s.bell := by
  unfold samplePlot; simp
@[simp] theorem sampleHolding_bell (h : Fin 32) (s : State) :
    (sampleHolding h s).bell = s.bell := by
  unfold sampleHolding; rfl
@[simp] theorem sampleSensors_bell (v : Sensors) (s : State) :
    (sampleSensors v s).bell = s.bell := by
  unfold sampleSensors; simp
@[simp] theorem tripPlot_bell (p : Fin 64) (s : State) :
    (tripPlot p s).bell = s.bell := by
  unfold tripPlot; simp
@[simp] theorem modSlice_bell (f : Slice → Slice) (s : State) :
    (modSlice f s).bell = s.bell := by
  unfold modSlice; rfl
@[simp] theorem shutHolding_bell (h : Fin 32) (s : State) :
    (shutHolding h s).bell = s.bell := by
  unfold shutHolding; simp
@[simp] theorem beginShutdown_bell (rq : Req) (s : State) :
    (beginShutdown rq s).bell = s.bell := by
  unfold beginShutdown; simp
@[simp] theorem enterShut_bell (s : State) :
    (enterShut s).bell = s.bell := by
  unfold enterShut; simp
@[simp] theorem endSlice_bell (x : Slice) (s : State) :
    (endSlice x s).bell = s.bell := by
  unfold endSlice; simp
@[simp] theorem sliceNext_bell (s : State) :
    (sliceNext s).bell = s.bell := by
  unfold sliceNext; split <;> simp
@[simp] theorem beginSlice_bell (s : State) :
    (beginSlice s).bell = s.bell := by
  unfold beginSlice; simp
@[simp] theorem keptPlotEnd_bell (p : Fin 64) (s : State) :
    (keptPlotEnd p s).bell = s.bell := by
  unfold keptPlotEnd; simp
@[simp] theorem transparentMarch_bell (p : Fin 64) (sub : Nat) (s : State) :
    (transparentMarch p sub s).bell = s.bell := by
  unfold transparentMarch; simp
@[simp] theorem unitEffect_bell (k : Nat) (x : Slice) (s : State) :
    (unitEffect k x s).bell = s.bell := by
  unfold unitEffect; split <;> simp
@[simp] theorem addRepair_bell (e : BitVec 32) (s : State) :
    (addRepair e s).bell = s.bell := by
  unfold addRepair; simp
@[simp] theorem unitFails_bell (k : Nat) (x : Slice) (addr : Nat) (cells : List (Nat × Nat)) (s : State) :
    (unitFails k x addr cells s).bell = s.bell := by
  unfold unitFails; split <;> simp
@[simp] theorem endUnit_bell (k : Nat) (o : UnitOutcome) (x : Slice) (s : State) :
    (endUnit k o x s).bell = s.bell := by
  unfold endUnit; split <;> simp
@[simp] theorem modSpill_bell (f : Spill → Spill) (s : State) :
    (modSpill f s).bell = s.bell := by
  unfold modSpill; rfl
@[simp] theorem eraseOldest_bell (s : State) :
    (eraseOldest s).bell = s.bell := by
  unfold eraseOldest; split <;> simp
@[simp] theorem openSpill_bell (s : State) :
    (openSpill s).bell = s.bell := by
  unfold openSpill; simp only []; repeat' split
  all_goals simp [*]
@[simp] theorem appendRun_bell (b : List Byte) (fresh ok : Bool) (s : State) :
    (appendRun b fresh ok s).bell = s.bell := by
  unfold appendRun; simp
@[simp] theorem writeRun_bell (b : List Byte) (ok0 ok1 : Bool) (s : State) :
    (writeRun b ok0 ok1 s).bell = s.bell := by
  unfold writeRun; simp
@[simp] theorem finishRun_bell (x : Slice) (ok0 ok1 : Bool) (s : State) :
    (finishRun x ok0 ok1 s).bell = s.bell := by
  unfold finishRun; simp
@[simp] theorem fuseRepairs_bell (s : State) :
    (fuseRepairs s).bell = s.bell := by
  unfold fuseRepairs; simp
@[simp] theorem memberRec_bell (e : Ev) (i : Nat) (s : State) :
    (memberRec e i s).bell = s.bell := by
  unfold memberRec; simp
@[simp] theorem toJoining_bell (s : State) :
    (toJoining s).bell = s.bell := by
  unfold toJoining; rfl
@[simp] theorem musterAbandoned_bell (s : State) :
    (musterAbandoned s).bell = s.bell := by
  unfold musterAbandoned; simp only []; repeat' split
  all_goals simp [*]
@[simp] theorem stepZero_bell (s : State) :
    (stepZero s).bell = s.bell := by
  unfold stepZero; simp
@[simp] theorem latchWord_bell (w : BitVec 256) (s : State) :
    (latchWord w s).bell = s.bell := by
  unfold latchWord; rfl
@[simp] theorem exclude_bell (i : Nat) (s : State) :
    (exclude i s).bell = s.bell := by
  unfold exclude; simp
@[simp] theorem ownOutcome_bell (m : List Byte) (ws : List (BitVec 256)) (s : State) :
    (ownOutcome m ws s).1.bell = s.bell := by
  unfold ownOutcome; simp only []; repeat' split
  all_goals simp [*]
@[simp] theorem alignOutcome_bell (m : List Byte) (ws : List (BitVec 256)) (wasJoined : Bool) (s : State) :
    (alignOutcome m ws wasJoined s).bell = s.bell := by
  unfold alignOutcome; simp only []; repeat' split
  all_goals simp [*]
@[simp] theorem othersOutcome_bell (m : List Byte) (ws : List (BitVec 256)) (i : Nat) (s : State) :
    (othersOutcome m ws i s).bell = s.bell := by
  unfold othersOutcome; repeat' split
  all_goals simp
@[simp] theorem membersOutcome_bell (m : List Byte) (ws : List (BitVec 256)) (own : OwnRec) (s : State) :
    (membersOutcome m ws own s).bell = s.bell := by
  unfold membersOutcome; simp
@[simp] theorem spansOutcome_bell (m : List Byte) (ws : List (BitVec 256)) (s : State) :
    (spansOutcome m ws s).bell = s.bell := by
  unfold spansOutcome; simp
@[simp] theorem musterOutcome_bell (s : State) :
    (musterOutcome s).bell = s.bell := by
  unfold musterOutcome; simp
@[simp] theorem villageEdge_bell (s : State) :
    (villageEdge s).bell = s.bell := by
  unfold villageEdge; simp
@[simp] theorem powerPlot_bell (p : Fin 64) (s : State) :
    (powerPlot p s).bell = s.bell := by
  unfold powerPlot; simp
@[simp] theorem powerPlots_bell (s : State) :
    (powerPlots s).bell = s.bell := by
  unfold powerPlots; simp
@[simp] theorem dropCpg_bell (s : State) :
    (dropCpg s).bell = s.bell := by
  unfold dropCpg; rfl
@[simp] theorem loseBank_bell (p : Fin 64) (s : State) :
    (loseBank p s).bell = s.bell := by
  unfold loseBank; simp
@[simp] theorem vgranFails_bell (s : State) :
    (vgranFails s).bell = s.bell := by
  unfold vgranFails; simp
@[simp] theorem vinIvrFails_bell (s : State) :
    (vinIvrFails s).bell = s.bell := by
  unfold vinIvrFails; simp
@[simp] theorem serdesFails_bell (s : State) :
    (serdesFails s).bell = s.bell := by
  unfold serdesFails; simp
@[simp] theorem loseLatch_bell (s : State) :
    (loseLatch s).bell = s.bell := by
  unfold loseLatch; rfl
@[simp] theorem modTap_bell (f : Tap → Tap) (s : State) :
    (modTap f s).bell = s.bell := by
  unfold modTap; rfl
@[simp] theorem loadTap_bell (op : Byte) (s : State) :
    (loadTap op s).bell = s.bell := by
  unfold loadTap; rfl
@[simp] theorem holdPins_bell (op : Byte) (s : State) :
    (holdPins op s).bell = s.bell := by
  unfold holdPins; simp
@[simp] theorem settleKeys_bell (s : State) :
    (settleKeys s).bell = s.bell := by
  unfold settleKeys; split <;> simp
@[simp] theorem testLedger_bell (s : State) :
    (testLedger s).bell = s.bell := by
  unfold testLedger; simp
@[simp] theorem readDirectory_bell (s : State) :
    (readDirectory s).bell = s.bell := by
  unfold readDirectory; rfl
@[simp] theorem bootSlot_bell (b trial fallback : Bool) (x : SlotScan) (s : State) :
    (bootSlot b trial fallback x s).bell = s.bell := by
  unfold bootSlot; simp
@[simp] theorem trySlots_bell (scan : Bool → SlotScan) (trial first : Bool) (l : List Bool) (s : State) :
    (trySlots scan trial first l s).bell = s.bell := by
  induction l generalizing first s with
  | nil => simp [trySlots]
  | cons b l ih => unfold trySlots; split <;> simp [ih]
@[simp] theorem chooseSlot_bell (scan : Bool → SlotScan) (s : State) :
    (chooseSlot scan s).bell = s.bell := by
  unfold chooseSlot; simp
@[simp] theorem loadRepair_bell (e : BitVec 32) (s : State) :
    (loadRepair e s).bell = s.bell := by
  unfold loadRepair; simp
@[simp] theorem loadRun_bell (b : List Byte) (s : State) :
    (loadRun b s).bell = s.bell := by
  unfold loadRun; simp
@[simp] theorem scanSpill_bell (s : State) :
    (scanSpill s).bell = s.bell := by
  unfold scanSpill; simp only []; repeat' split
  all_goals simp [*]
@[simp] theorem recheckManifest_bell (s : State) :
    (recheckManifest s).bell = s.bell := by
  unfold recheckManifest; simp only []; repeat' split
  all_goals simp [*]
@[simp] theorem queueWrite_bell (q : Fin 256) (sub n : Nat) (s : State) :
    (queueWrite q sub n s).bell = s.bell := by
  unfold queueWrite; rfl
@[simp] theorem holdWrite_bell (h : Fin 32) (g sub n : Nat) (s : State) :
    (holdWrite h g sub n s).bell = s.bell := by
  unfold holdWrite; rfl
@[simp] theorem volatileWrite_bell (ix : BitVec 16) (sub off : Nat) (v : Val) (s : State) :
    (volatileWrite ix sub off v s).bell = s.bell := by
  unfold volatileWrite
  generalize areaOf ix = c
  rcases c with _ | a
  · rfl
  · cases a with
    | snap => rcases sub with _ | _ | _ | _ | k <;> rfl
    | queue q => exact queueWrite_bell ..
    | hold h g => exact holdWrite_bell ..
    | lane l => exact laneWrite_bell ..
    | cvu u => exact cvuWrite_bell ..
    | ssp => exact sspWrite_bell ..
    | _ => rfl
@[simp] theorem writeEntry_bell (rq : Req) (role : Role) (ix : BitVec 16) (sub off : Nat) (a : Attr) (v : Val) (s : State) :
    (writeEntry rq role ix sub off a v s).bell = s.bell := by
  unfold writeEntry; simp
@[simp] theorem addSub_bell (rq : Req) (se : Session) (ix : BitVec 16) (sub : Byte) (period phase : BitVec 32) (s : State) :
    (addSub rq se ix sub period phase s).bell = s.bell := by
  unfold addSub; simp
@[simp] theorem eraseStore_bell (s : State) :
    (eraseStore s).bell = s.bell := by
  have k : ∀ l t, ((copyRecords l t).getD t).bell = t.bell := by
    intro l t; cases h : copyRecords l t with
    | none => rfl
    | some u => exact copyRecords_bell _ _ _ h
  unfold eraseStore; simp [k]
@[simp] theorem suspendAudit_bell (on : Bool) (c : FatalCause) (s : State) :
    (suspendAudit on c s).bell = s.bell := by
  unfold suspendAudit; split <;> simp
@[simp] theorem rebuildStore_bell (s : State) :
    (rebuildStore s).bell = s.bell := by
  unfold rebuildStore; simp
@[simp] theorem rebuildTallies_bell (s : State) :
    (rebuildTallies s).bell = s.bell := by
  unfold rebuildTallies; rfl
@[simp] theorem rebuildCredits_bell (q : Fin 256) (s : State) :
    (rebuildCredits q s).bell = s.bell := by
  unfold rebuildCredits; simp
@[simp] theorem rebuild_bell (c : FatalCause) (s : State) :
    (rebuild c s).bell = s.bell := by
  have k : ∀ t : State, (eachFin 256 rebuildCredits t).bell = t.bell := fun t => eachFin_bell _ _ _ fun _ _ => rebuildCredits_bell _ _
  cases c
  case slotAudit => exact rebuildStore_bell s
  case commonsRoute => exact rebuildStore_bell s
  case tallyAudit => exact rebuildTallies_bell s
  case creditAudit => exact k s
  all_goals rfl
@[simp] theorem rebuildAll_bell (s : State) :
    (rebuildAll s).bell = s.bell := by
  unfold rebuildAll; simp
@[simp] theorem recovery_bell (s : State) :
    (recovery s).bell = s.bell := by
  unfold recovery; simp
@[simp] theorem recoveryEdge_bell (fails : List (Nat × FatalCause)) (s : State) :
    (recoveryEdge fails s).bell = s.bell := by
  unfold recoveryEdge; simp
@[simp] theorem actAtEdge_bell (h : Fin 32) (t : Trans) (s : State) :
    (actAtEdge h t s).bell = s.bell := by
  unfold actAtEdge; split <;> simp
@[simp] theorem actionsDue_bell (h : Fin 32) (a0 : Nat) (s : State) :
    (actionsDue h a0 s).bell = s.bell := by
  induction a0 generalizing s with
  | zero => rfl
  | succ n ih =>
    unfold actionsDue; repeat' split
    all_goals simp [ih]
@[simp] theorem clearingEdge_bell (h : Fin 32) (s : State) :
    (clearingEdge h s).bell = s.bell := by
  unfold clearingEdge; split
  · dsimp only; rw [modHolding_bell, eachOf_bell _ _ _ fun _ _ => by simp]
  · rfl
@[simp] theorem mapsEdge_bell (s : State) :
    (mapsEdge s).bell = s.bell := by
  unfold mapsEdge; exact eachOf_bell _ _ _ fun _ _ => by simp
@[simp] theorem derivedEdge_bell (s : State) :
    (derivedEdge s).bell = s.bell := by
  unfold derivedEdge; rfl
@[simp] theorem bindEdge_bell (q : Fin 256) (s : State) :
    (bindEdge q s).bell = s.bell := by
  unfold bindEdge; simp only []; repeat' split
  all_goals simp [*]
@[simp] theorem cadenceEdge_bell (s : State) :
    (cadenceEdge s).bell = s.bell := by
  unfold cadenceEdge; exact eachOf_bell _ _ _ fun _ _ => by simp
@[simp] theorem captureEdge_bell (s : State) :
    (captureEdge s).bell = s.bell := by
  unfold captureEdge; rfl
@[simp] theorem queuesEdge_bell (s : State) :
    (queuesEdge s).bell = s.bell := by
  unfold queuesEdge; simp
@[simp] theorem fatalEdge_bell (s : State) :
    (fatalEdge s).bell = s.bell := by
  unfold fatalEdge; simp
@[simp] theorem holdingsEdge_bell (s : State) :
    (holdingsEdge s).bell = s.bell := by
  unfold holdingsEdge; simp
@[simp] theorem pulse_bell (s : State) :
    (pulse s).bell = s.bell := by
  unfold pulse; simp
@[simp] theorem storeScrub_bell (ces : Nat) (s : State) :
    (storeScrub ces s).bell = s.bell := by
  unfold storeScrub; rfl
end Sys2Proof.Machine
end

