-- ==== Sys2Proof/Laws/Bytes.lean ====
section
/-! SUPPORT. Numbers laid out as bytes and read back, and the lengths of what the byte helpers give. -/

namespace Sys2Proof.Machine

@[simp] theorem beBytes_length (n v : Nat) : (beBytes n v).length = n := by
  induction n generalizing v with
  | zero => rfl
  | succ n ih => simp [beBytes, ih]

@[simp] theorem leBytes_length (n v : Nat) : (leBytes n v).length = n := by
  induction n generalizing v with
  | zero => rfl
  | succ n ih => simp [leBytes, ih]

@[simp] theorem bytesAt_length (b : List Byte) (k n : Nat) : (bytesAt b k n).length = n := by simp [bytesAt]

theorem ofBe_snoc (l : List Byte) (x : Byte) : ofBe (l ++ [x]) = ofBe l * 256 + x.toNat := by simp [ofBe]

theorem ofBe_beBytes (n v : Nat) : ofBe (beBytes n v) = v % 256 ^ n := by
  induction n generalizing v with
  | zero => simp [beBytes, ofBe, Nat.mod_one]
  | succ n ih =>
    have h := Nat.mod_mul (x := v) (a := 256) (b := 256 ^ n)
    rw [beBytes, ofBe_snoc, ih, BitVec.toNat_ofNat, show 256 ^ (n + 1) = 256 * 256 ^ n by rw [Nat.pow_succ, Nat.mul_comm], h]
    omega

theorem ofLe_leBytes (n v : Nat) : ofLe (leBytes n v) = v % 256 ^ n := by
  induction n generalizing v with
  | zero => simp [leBytes, ofLe, Nat.mod_one]
  | succ n ih =>
    have h : ofLe (leBytes (n + 1) v) = (BitVec.ofNat 8 v).toNat + 256 * ofLe (leBytes n (v / 256)) := rfl
    rw [h, ih, BitVec.toNat_ofNat, show 256 ^ (n + 1) = 256 * 256 ^ n by rw [Nat.pow_succ, Nat.mul_comm], Nat.mod_mul]

end Sys2Proof.Machine
end

