-- ==== Sys2Proof/Laws/Slots.lean ====
section
/-! SUPPORT. What each operation and each meaning leaves of the slot maps: all of them, but for the few that the spec lets
change a map (their lemmas are in Laws/Legal.lean). -/

namespace Sys2Proof.Machine
@[simp] theorem eachFin_slots (n : Nat) (f : Fin n → State → State) (s : State) (h : ∀ i t, (f i t).slots = t.slots) :
    (eachFin n f s).slots = s.slots := by
  unfold eachFin
  generalize List.finRange n = l
  induction l generalizing s with
  | nil => rfl
  | cons a l ih => simp [ih, h]
@[simp] theorem eachOf_slots {α : Type} (l : List α) (f : α → State → State) (s : State) (h : ∀ i t, (f i t).slots = t.slots) :
    (eachOf l f s).slots = s.slots := by
  unfold eachOf
  induction l generalizing s with
  | nil => rfl
  | cons a l ih => simp [ih, h]
@[simp] theorem ite_slots (c : Prop) [Decidable c] (a b : State) : (if c then a else b).slots = if c then a.slots else b.slots := apply_ite _ _ _ _

@[simp] theorem modCore_slots (c : Fin 4) (f : Core → Core) (s : State) :
    (modCore c f s).slots = s.slots := by
  unfold modCore; rfl
@[simp] theorem latch_slots (r : Rec) (s : State) :
    (latch r s).slots = s.slots := by
  unfold latch; rfl
@[simp] theorem record_slots (e : Ev) (owner : Fin 32) (data : Word) (s : State) :
    (record e owner data s).slots = s.slots := by
  unfold record; simp
@[simp] theorem raiseVec_slots (f : Fin 33) (v : Nat) (s : State) :
    (raiseVec f v s).slots = s.slots := by
  unfold raiseVec; simp
@[simp] theorem mbxPut_slots (i : Fin 33) (v : BitVec 128) (s : State) :
    (mbxPut i v s).slots = s.slots := by
  unfold mbxPut; simp
@[simp] theorem mailbox_slots (e : Ev) (h : Fin 32) (data : Word) (s : State) :
    (mailbox e h data s).slots = s.slots := by
  unfold mailbox; simp
@[simp] theorem post_slots (e : Ev) (h : Fin 32) (data : Word) (s : State) :
    (post e h data s).slots = s.slots := by
  unfold post; simp
@[simp] theorem limitWrite_slots (code : BitVec 12) (subj n : Nat) (s : State) :
    (limitWrite code subj n s).slots = s.slots := by
  unfold limitWrite; simp
@[simp] theorem limited_slots (e : Ev) (subj n : Nat) (s : State) :
    (limited e subj n s).slots = s.slots := by
  unfold limited; simp only []; repeat' split
  all_goals simp [*]
@[simp] theorem limitFlush_slots (s : State) :
    (limitFlush s).slots = s.slots := by
  unfold limitFlush; simp
@[simp] theorem pf0Respond_slots (k : Fin 8) (msg : List Byte) (len : Nat) (s : State) :
    (pf0Respond k msg len s).slots = s.slots := by
  unfold pf0Respond; simp
@[simp] theorem ssp1Respond_slots (msg : List Byte) (len : Nat) (s : State) :
    (ssp1Respond msg len s).slots = s.slots := by
  unfold ssp1Respond; simp
@[simp] theorem noResponse_slots (p : Path) (s : State) :
    (noResponse p s).slots = s.slots := by
  unfold noResponse; split <;> simp
@[simp] theorem sendResponse_slots (p : Path) (sess ctr : BitVec 32) (inner : List Byte) (s : State) :
    (sendResponse p sess ctr inner s).slots = s.slots := by
  unfold sendResponse; split <;> simp
@[simp] theorem pf0Notice_slots (msg : List Byte) (len : Nat) (s : State) :
    (pf0Notice msg len s).slots = s.slots := by
  unfold pf0Notice; simp
@[simp] theorem ssp1Notice_slots (msg : List Byte) (s : State) :
    (ssp1Notice msg s).slots = s.slots := by
  unfold ssp1Notice; simp
@[simp] theorem sendNotice_slots (p : Path) (sess ctr : BitVec 32) (inner : List Byte) (s : State) :
    (sendNotice p sess ctr inner s).slots = s.slots := by
  unfold sendNotice; split <;> simp
@[simp] theorem closeSession_slots (se : Session) (reason : Byte) (s : State) :
    (closeSession se reason s).slots = s.slots := by
  unfold closeSession; simp
@[simp] theorem closeSessions_slots (p : Session → Bool) (reason : Byte) (s : State) :
    (closeSessions p reason s).slots = s.slots := by
  unfold closeSessions; simp
@[simp] theorem respond_slots (rq : Req) (op st ty : Byte) (bell : BellNo) (body : List Byte) (s : State) :
    (respond rq op st ty bell body s).slots = s.slots := by
  unfold respond; split <;> simp
@[simp] theorem rxDrop_slots (s : State) :
    (rxDrop s).slots = s.slots := by
  unfold rxDrop; rfl
@[simp] theorem serve_slots (rq : Req) (run : Session → State → State) (s : State)
    (h : ∀ se t, (run se t).slots = t.slots) : (serve rq run s).slots = s.slots := by
  unfold serve; repeat' split
  all_goals simp [h]
@[simp] theorem afterArbiter_slots (guard : Nat) (s : State) :
    (afterArbiter guard s).slots = s.slots := by
  unfold afterArbiter; simp
@[simp] theorem writeReq_slots (rq : Req) (ix : BitVec 16) (sub : Nat) (lenOk valOk : Bool) (cond : State → Option Byte)
    (eff : State → State × BellNo) (s : State) (h : ∀ t, (eff t).1.slots = t.slots) :
    (writeReq rq ix sub lenOk valOk cond eff s).slots = s.slots := by
  unfold writeReq
  refine serve_slots _ _ _ fun se t => ?_
  dsimp only; repeat' split
  all_goals simp [h]
@[simp] theorem invokeReq_slots (rq : Req) (ix : BitVec 16) (sub : Nat) (lenOk : Bool) (cond : Session → State → Option Byte)
    (eff : Session → State → State × Option (Byte × BellNo)) (s : State)
    (h : ∀ se t, (eff se t).1.slots = t.slots) : (invokeReq rq ix sub lenOk cond eff s).slots = s.slots := by
  unfold invokeReq
  refine serve_slots _ _ _ fun se t => ?_
  dsimp only; repeat' split
  all_goals simp [h]
@[simp] theorem invokeDone_slots (rq : Option Req) (st : Byte) (b : BellNo) (s : State) :
    (invokeDone rq st b s).slots = s.slots := by
  unfold invokeDone; split <;> simp
@[simp] theorem flashRun_slots (l : List FlashOp) (s : State) : (flashRun l s).slots = s.slots := by
  induction l generalizing s with
  | nil => simp [flashRun]
  | cons o l ih => cases o <;> simp [flashRun, ih]
@[simp] theorem flashStart_slots (s : State) :
    (flashStart s).slots = s.slots := by
  unfold flashStart; repeat' split
  · rfl
  · rw [eachOf_slots _ _ _ fun _ _ => by simp]; simp
  · simp
@[simp] theorem flashPush_slots (o : FlashOp) (s : State) :
    (flashPush o s).slots = s.slots := by
  unfold flashPush; simp
@[simp] theorem openSector_slots (i : Nat) (s : State) :
    (openSector i s).slots = s.slots := by
  unfold openSector; rfl
theorem placeRecord_slots (n : Nat) (s t : State) (a : Nat) (h : placeRecord n s = some (t, a)) : t.slots = s.slots := by
  unfold placeRecord at h; repeat' split at h
  all_goals simp at h
  all_goals (obtain ⟨rfl, -⟩ := h; simp)
theorem copyRecord_slots (r : StoreRec) (s t : State) (h : copyRecord r s = some t) : t.slots = s.slots := by
  unfold copyRecord at h; simp at h
  obtain ⟨u, a, hp, rfl⟩ := h; simp [placeRecord_slots _ _ _ _ hp]
theorem copyRecords_slots (l : List StoreRec) (s t : State) (h : copyRecords l s = some t) : t.slots = s.slots := by
  induction l generalizing s with
  | nil => simp [copyRecords] at h; rw [h]
  | cons r l ih =>
    unfold copyRecords at h
    cases hr : copyRecord r s with
    | none => simp [hr] at h
    | some u => simp [hr] at h; rw [ih _ h, copyRecord_slots _ _ _ hr]
@[simp] theorem eraseSector_slots (i : Nat) (s : State) :
    (eraseSector i s).slots = s.slots := by
  unfold eraseSector; rfl
@[simp] theorem recordRetired_slots (i : Nat) (s : State) :
    (recordRetired i s).slots = s.slots := by
  unfold recordRetired; simp
@[simp] theorem compactSector_slots (i : Nat) (s : State) :
    (compactSector i s).slots = s.slots := by
  unfold compactSector; dsimp only; split
  · rfl
  · rename_i t h; simp [copyRecords_slots _ _ _ h]
theorem placeAfterCompaction_slots (n : Nat) (s t : State) (a : Nat) (h : placeAfterCompaction n s = some (t, a)) :
    t.slots = s.slots := by
  unfold placeAfterCompaction at h; repeat' split at h
  all_goals first
    | (simp at h; done)
    | (have := placeRecord_slots _ _ _ _ h; simpa using this)
    | (simp at h; obtain ⟨rfl, -⟩ := h; exact placeRecord_slots _ _ _ _ (by assumption))
@[simp] theorem setEntry_slots (ix : BitVec 16) (sub : Nat) (v : Val) (s : State) :
    (setEntry ix sub v s).slots = s.slots := by
  unfold setEntry; split <;> simp
@[simp] theorem extendM_slots (i : Fin 8) (d : Digest) (s : State) :
    (extendM i d s).slots = s.slots := by
  unfold extendM; rfl
@[simp] theorem rescrub_slots (oldI newI first : Nat) (s : State) :
    (rescrub oldI newI first s).slots = s.slots := by
  unfold rescrub; rfl
@[simp] theorem applyEntry_slots (ix : BitVec 16) (sub : Nat) (v : Val) (s : State) :
    (applyEntry ix sub v s).1.slots = s.slots := by
  unfold applyEntry; simp only []; repeat' split
  all_goals simp [*]
@[simp] theorem startDad_slots (s : State) :
    (startDad s).slots = s.slots := by
  unfold startDad; rfl
@[simp] theorem afterEntry_slots (ix : BitVec 16) (sub : Nat) (s : State) :
    (afterEntry ix sub s).slots = s.slots := by
  unfold afterEntry; split <;> simp
@[simp] theorem storeFailed_slots (w : StorePend) (a : Nat) (s : State) :
    (storeFailed w a s).slots = s.slots := by
  unfold storeFailed; simp
@[simp] theorem flashDone_slots (k : FlashCont) (s : State) :
    (flashDone k s).slots = s.slots := by
  unfold flashDone; split <;> simp
@[simp] theorem flashFailed_slots (o : FlashOp) (s : State) :
    (flashFailed o s).slots = s.slots := by
  unfold flashFailed; split <;> simp
@[simp] theorem persistNow_slots (rq : Req) (ix : BitVec 16) (sub : Nat) (role : Role) (v : Val) (s : State) :
    (persistNow rq ix sub role v s).slots = s.slots := by
  unfold persistNow; dsimp only; repeat' split
  all_goals try (simp; done)
  rename_i t a h; simp [placeAfterCompaction_slots _ _ _ _ h]
@[simp] theorem persist_slots (rq : Req) (ix : BitVec 16) (sub : Nat) (role : Role) (v : Val) (s : State) :
    (persist rq ix sub role v s).slots = s.slots := by
  unfold persist; simp
@[simp] theorem wakeStore_slots (s : State) :
    (wakeStore s).slots = s.slots := by
  unfold wakeStore; simp
@[simp] theorem writePersist_slots (rq : Req) (ix : BitVec 16) (sub : Nat) (lenOk valOk : Bool) (cond : State → Option Byte) (v : Val) (s : State) :
    (writePersist rq ix sub lenOk valOk cond v s).slots = s.slots := by
  unfold writePersist
  refine serve_slots _ _ _ fun se t => ?_
  split <;> simp
@[simp] theorem appendRecord_slots (tag ix : BitVec 16) (sub ty : BitVec 8) (value : List Byte) (s : State) :
    (appendRecord tag ix sub ty value s).slots = s.slots := by
  unfold appendRecord; dsimp only; split
  · simp
  · rename_i t a h; simp [placeRecord_slots _ _ _ _ h]
@[simp] theorem replayAppend_slots (id : BitVec 128) (s : State) :
    (replayAppend id s).slots = s.slots := by
  unfold replayAppend; simp
@[simp] theorem storeEpoch_slots (h : Fin 32) (s : State) :
    (storeEpoch h s).slots = s.slots := by
  unfold storeEpoch; simp
@[simp] theorem showTap_slots (kind n : Nat) (e : TapEv) (s : State) :
    (showTap kind n e s).slots = s.slots := by
  unfold showTap; simp
@[simp] theorem tapRewind_slots (q : Fin 256) (s : State) :
    (tapRewind q s).slots = s.slots := by
  unfold tapRewind; simp
@[simp] theorem addLossPending_slots (q : Fin 256) (n : Nat) (s : State) :
    (addLossPending q n s).slots = s.slots := by
  unfold addLossPending; split <;> simp
@[simp] theorem countDrop_slots (q : Fin 256) (n : Nat) (s : State) :
    (countDrop q n s).slots = s.slots := by
  unfold countDrop; simp
@[simp] theorem afterAppend_slots (q : Fin 256) (s : State) :
    (afterAppend q s).slots = s.slots := by
  unfold afterAppend; simp
@[simp] theorem gapCount_slots (q : Fin 256) (n : Nat) (s : State) :
    (gapCount q n s).slots = s.slots := by
  unfold gapCount; simp only []; repeat' split
  all_goals simp [*]
@[simp] theorem commitItem_slots (cb : Nat) (q : Fin 256) (it0 : Item) (s : State) :
    (commitItem cb q it0 s).slots = s.slots := by
  unfold commitItem; simp
@[simp] theorem rewindOpen_slots (q : Fin 256) (s : State) :
    (rewindOpen q s).slots = s.slots := by
  unfold rewindOpen; simp
@[simp] theorem lossReached_slots (q : Fin 256) (n : Nat) (ended : Bool) (s : State) :
    (lossReached q n ended s).slots = s.slots := by
  unfold lossReached; simp
@[simp] theorem commitMarker_slots (q : Fin 256) (code arg : Nat) (s : State) :
    (commitMarker q code arg s).slots = s.slots := by
  unfold commitMarker; simp
@[simp] theorem resyncReached_slots (q : Fin 256) (gap : Nat) (recovery : Bool) (s : State) :
    (resyncReached q gap recovery s).slots = s.slots := by
  unfold resyncReached; simp
@[simp] theorem commitStaged_slots (cb : Nat) (q : Fin 256) (l : List Staged) (n : Nat) (s : State) :
    (commitStaged cb q l n s).1.slots = s.slots := by
  induction l generalizing n s with
  | nil => simp [commitStaged]
  | cons x l ih => cases x <;> (try cases n) <;> simp [commitStaged, ih]
@[simp] theorem leaveStaging_slots (q : Fin 256) (n : Nat) (s : State) :
    (leaveStaging q n s).slots = s.slots := by
  unfold leaveStaging; split <;> simp
@[simp] theorem commitN_slots (q : Fin 256) (n : Nat) (s : State) :
    (commitN q n s).slots = s.slots := by
  unfold commitN; simp
@[simp] theorem loseArrival_slots (q : Fin 256) (last : Bool) (s : State) :
    (loseArrival q last s).slots = s.slots := by
  unfold loseArrival; simp
@[simp] theorem stageItem_slots (q : Fin 256) (it : Item) (s : State) :
    (stageItem q it s).slots = s.slots := by
  unfold stageItem; simp
@[simp] theorem rewindPlace_slots (q : Fin 256) (s : State) :
    (rewindPlace q s).slots = s.slots := by
  unfold rewindPlace; simp
@[simp] theorem takeItem_slots (q : Fin 256) (s : State) :
    (takeItem q s).slots = s.slots := by
  unfold takeItem; simp
@[simp] theorem emptyQueue_slots (q : Fin 256) (s : State) :
    (emptyQueue q s).slots = s.slots := by
  unfold emptyQueue; simp
@[simp] theorem flushItems_slots (q : Fin 256) (s : State) :
    (flushItems q s).slots = s.slots := by
  unfold flushItems; simp
@[simp] theorem updateItemsHeld_slots (h : Fin 32) (s : State) :
    (updateItemsHeld h s).slots = s.slots := by
  unfold updateItemsHeld; simp
@[simp] theorem laneBound_slots (q : Fin 256) (s : State) :
    (laneBound q s).slots = s.slots := by
  unfold laneBound; split <;> simp
@[simp] theorem bindQueue_slots (q : Fin 256) (edge : Nat) (decl : Option Nat) (s : State) :
    (bindQueue q edge decl s).slots = s.slots := by
  unfold bindQueue; simp
@[simp] theorem unbindQueue_slots (q : Fin 256) (edge : Nat) (s : State) :
    (unbindQueue q edge s).slots = s.slots := by
  unfold unbindQueue; simp
@[simp] theorem bindingEdge_slots (e : Nat) (q : Fin 256) (s : State) :
    (bindingEdge e q s).slots = s.slots := by
  unfold bindingEdge; simp
@[simp] theorem releaseTo_slots (q : Fin 256) (n : Nat) (s : State) :
    (releaseTo q n s).slots = s.slots := by
  unfold releaseTo; rfl
@[simp] theorem commitLate_slots (q : Fin 256) (e : Nat) (s : State) :
    (commitLate q e s).slots = s.slots := by
  unfold commitLate; simp
@[simp] theorem lateEdge_slots (q : Fin 256) (e : Nat) (s : State) :
    (lateEdge q e s).slots = s.slots := by
  unfold lateEdge; simp
@[simp] theorem closedEdge_slots (q : Fin 256) (e n : Nat) (s : State) :
    (closedEdge q e n s).slots = s.slots := by
  unfold closedEdge; simp
@[simp] theorem judgeQueue_slots (e : Nat) (q : Fin 256) (s : State) :
    (judgeQueue e q s).slots = s.slots := by
  unfold judgeQueue; simp only []; repeat' split
  all_goals simp [*]
@[simp] theorem idleEdge_slots (q : Fin 256) (s : State) :
    (idleEdge q s).slots = s.slots := by
  unfold idleEdge; simp
@[simp] theorem closeEdge_slots (q : Fin 256) (s : State) :
    (closeEdge q s).slots = s.slots := by
  unfold closeEdge; rfl
@[simp] theorem queueRuns_slots (q : Fin 256) (s : State) :
    (queueRuns q s).slots = s.slots := by
  unfold queueRuns; simp
@[simp] theorem queueRecovered_slots (q : Fin 256) (s : State) :
    (queueRecovered q s).slots = s.slots := by
  unfold queueRecovered; simp
@[simp] theorem fillBuffer_slots (q : Fin 256) (n : Nat) (wrong : List Nat) (s : State) :
    (fillBuffer q n wrong s).slots = s.slots := by
  unfold fillBuffer; simp
@[simp] theorem ringMessage_slots (q : Fin 256) (s : State) :
    (ringMessage q s).slots = s.slots := by
  unfold ringMessage; simp
@[simp] theorem writeBack_slots (q : Fin 256) (t : Tally) (code : Byte) (s : State) :
    (writeBack q t code s).slots = s.slots := by
  unfold writeBack; simp
@[simp] theorem sendForced_slots (q : Fin 256) (a0 : Nat) (s : State) :
    (sendForced q a0 s).slots = s.slots := by
  induction a0 generalizing s with
  | zero => rfl
  | succ n ih =>
    unfold sendForced; repeat' split
    all_goals simp [ih]
@[simp] theorem forceTallies_slots (q : Fin 256) (code : Byte) (s : State) :
    (forceTallies q code s).slots = s.slots := by
  unfold forceTallies; simp
@[simp] theorem flushQueue_slots (q : Fin 256) (s : State) :
    (flushQueue q s).slots = s.slots := by
  unfold flushQueue; simp
@[simp] theorem faultTallies_slots (h : Fin 32) (s : State) :
    (faultTallies h s).slots = s.slots := by
  unfold faultTallies; simp
@[simp] theorem fatalTallies_slots (s : State) :
    (fatalTallies s).slots = s.slots := by
  unfold fatalTallies; simp
@[simp] theorem unbindRing_slots (q : Fin 256) (s : State) :
    (unbindRing q s).slots = s.slots := by
  unfold unbindRing; simp
@[simp] theorem unbindWhole_slots (q : Fin 256) (edge : Nat) (s : State) :
    (unbindWhole q edge s).slots = s.slots := by
  unfold unbindWhole; simp
@[simp] theorem abandonTallies_slots (q : Fin 256) (event : Bool) (s : State) :
    (abandonTallies q event s).slots = s.slots := by
  unfold abandonTallies; simp
@[simp] theorem resetRing_slots (q : Fin 256) (keepAbandoned : Bool) (s : State) :
    (resetRing q keepAbandoned s).slots = s.slots := by
  unfold resetRing; simp
@[simp] theorem disableRing_slots (q : Fin 256) (s : State) :
    (disableRing q s).slots = s.slots := by
  unfold disableRing; simp
@[simp] theorem ringError_slots (q : Fin 256) (cause : BitVec 2) (s : State) :
    (ringError q cause s).slots = s.slots := by
  unfold ringError; simp
@[simp] theorem bindRing_slots (q : Fin 256) (s : State) :
    (bindRing q s).slots = s.slots := by
  unfold bindRing; split <;> simp
@[simp] theorem refreshHedges_slots (s : State) :
    (refreshHedges s).slots = s.slots := by
  unfold refreshHedges; rfl
@[simp] theorem setState_slots (h : Fin 32) (st : HState) (s : State) :
    (setState h st s).slots = s.slots := by
  unfold setState; simp
@[simp] theorem rampPlot_slots (p : Fin 64) (mv : Nat) (s : State) :
    (rampPlot p mv s).slots = s.slots := by
  unfold rampPlot; rfl
@[simp] theorem rampHolding_slots (h : Fin 32) (mv : Nat) (s : State) :
    (rampHolding h mv s).slots = s.slots := by
  unfold rampHolding; simp
@[simp] theorem rampAwaited_slots (h : Fin 32) (mv : Nat) (s : State) :
    (rampAwaited h mv s).slots = s.slots := by
  unfold rampAwaited; simp
@[simp] theorem startRegulator_slots (p : Fin 64) (s : State) :
    (startRegulator p s).slots = s.slots := by
  unfold startRegulator; rfl
@[simp] theorem callForRestart_slots (p : Fin 64) (s : State) :
    (callForRestart p s).slots = s.slots := by
  unfold callForRestart; simp
@[simp] theorem stopRegulator_slots (p : Fin 64) (s : State) :
    (stopRegulator p s).slots = s.slots := by
  unfold stopRegulator; rfl
@[simp] theorem busyAnswer_slots (rq : Option Req) (s : State) :
    (busyAnswer rq s).slots = s.slots := by
  unfold busyAnswer; simp
@[simp] theorem unforce_slots (h : Fin 32) (s : State) :
    (unforce h s).slots = s.slots := by
  unfold unforce; exact eachOf_slots _ _ _ fun _ _ => by simp
@[simp] theorem endSnapshot_slots (st : SnapState) (code : Byte) (s : State) :
    (endSnapshot st code s).slots = s.slots := by
  unfold endSnapshot; split <;> simp
@[simp] theorem endRestore_slots (st : SnapState) (code : Byte) (s : State) :
    (endRestore st code s).slots = s.slots := by
  unfold endRestore; split <;> simp
@[simp] theorem cutJobs_slots (h : Fin 32) (s : State) :
    (cutJobs h s).slots = s.slots := by
  unfold cutJobs; simp only []; repeat' split
  all_goals simp [*]
@[simp] theorem cutFreezes_slots (h : Fin 32) (s : State) :
    (cutFreezes h s).slots = s.slots := by
  unfold cutFreezes; simp
@[simp] theorem cancelled_slots (h : Fin 32) (t : Trans) (s : State) :
    (cancelled h t s).slots = s.slots := by
  unfold cancelled; split <;> simp
@[simp] theorem cancelTransitions_slots (h : Fin 32) (s : State) :
    (cancelTransitions h s).slots = s.slots := by
  unfold cancelTransitions; simp
@[simp] theorem dropPending_slots (keepClears : Bool) (h : Fin 32) (s : State) :
    (dropPending keepClears h s).slots = s.slots := by
  unfold dropPending; simp
@[simp] theorem clearPlot_slots (p : Fin 64) (s : State) :
    (clearPlot p s).slots = s.slots := by
  unfold clearPlot; simp
@[simp] theorem answerWaiting_slots (ep : Bool) (p : Fin 64) (s : State) :
    (answerWaiting ep p s).slots = s.slots := by
  unfold answerWaiting; simp
@[simp] theorem unbindDeclared_slots (h : Fin 32) (s : State) :
    (unbindDeclared h s).slots = s.slots := by
  unfold unbindDeclared; simp
@[simp] theorem backToEmpty_slots (h : Fin 32) (s : State) :
    (backToEmpty h s).slots = s.slots := by
  unfold backToEmpty
  simp only [setState_slots, unbindDeclared_slots, unforce_slots, rampHolding_slots]
  exact eachOf_slots _ _ _ fun _ _ => by simp
@[simp] theorem fatalQuiesce_slots (h : Fin 32) (s : State) :
    (fatalQuiesce h s).slots = s.slots := by
  unfold fatalQuiesce; simp
@[simp] theorem modQuern_slots (p : Fin 64) (n : Fin 16) (f : Quern → Quern) (s : State) :
    (modQuern p n f s).slots = s.slots := by
  unfold modQuern; rfl
@[simp] theorem quernEmit_slots (p : Fin 64) (n : Fin 16) (zs : List Word) (f : QFlags) (s : State) :
    (quernEmit p n zs f s).slots = s.slots := by
  unfold quernEmit; rfl
@[simp] theorem quernOp_slots (p : Fin 64) (f : State → State) (s : State) (h : ∀ t, (f t).slots = t.slots) :
    (quernOp p f s).slots = s.slots := by
  unfold quernOp; split <;> simp [h]
@[simp] theorem budgetMove_slots (h : Fin 32) (load : Nat) (s : State) :
    (budgetMove h load s).slots = s.slots := by
  unfold budgetMove; simp only []; repeat' split
  all_goals simp [*]
@[simp] theorem budgetEval_slots (h : Fin 32) (s : State) :
    (budgetEval h s).slots = s.slots := by
  unfold budgetEval; simp
@[simp] theorem budgetSet_slots (h : Fin 32) (units : BitVec 32) (s : State) :
    (budgetSet h units s).slots = s.slots := by
  unfold budgetSet; simp
@[simp] theorem clearUnfit_slots (p : Fin 64) (s : State) :
    (clearUnfit p s).slots = s.slots := by
  unfold clearUnfit; simp
@[simp] theorem bankWrite_slots (p : Fin 64) (a : Nat) (w : Stored) (s : State) :
    (bankWrite p a w s).slots = s.slots := by
  unfold bankWrite; rfl
@[simp] theorem countHolding_slots (p : Fin 64) (f : Found) (s : State) :
    (countHolding p f s).slots = s.slots := by
  unfold countHolding; simp
@[simp] theorem countFound_slots (p : Fin 64) (f : Found) (s : State) :
    (countFound p f s).slots = s.slots := by
  unfold countFound; simp
@[simp] theorem recordUe_slots (p : Fin 64) (a : Nat) (s : State) :
    (recordUe p a s).slots = s.slots := by
  unfold recordUe; simp
@[simp] theorem queueLine_slots (p : Fin 64) (line : Nat) (s : State) :
    (queueLine p line s).slots = s.slots := by
  unfold queueLine; simp
@[simp] theorem windowMiss_slots (vf : Fin 33) (h : Fin 32) (write : Bool) (len : Nat) (s : State) :
    (windowMiss vf h write len s).slots = s.slots := by
  unfold windowMiss; simp
@[simp] theorem windowParts_slots (vf : Fin 33) (w : Bool) (k off len : Nat) (b : List Byte) (s : State) :
    (windowParts vf w k off len b s).slots = s.slots := by
  induction k generalizing off len b s with
  | zero => rfl
  | succ n ih =>
    unfold windowParts; dsimp only; repeat' split
    all_goals simp [ih]
@[simp] theorem windowReadUnit_slots (p : Fin 64) (o : WinOp) (s : State) :
    (windowReadUnit p o s).slots = s.slots := by
  unfold windowReadUnit; simp
@[simp] theorem windowWriteUnit_slots (p : Fin 64) (o : WinOp) (s : State) :
    (windowWriteUnit p o s).slots = s.slots := by
  unfold windowWriteUnit; simp
@[simp] theorem windowUnit_slots (p : Fin 64) (o : WinOp) (s : State) :
    (windowUnit p o s).slots = s.slots := by
  unfold windowUnit; simp
@[simp] theorem repairCandidate_slots (p : Fin 64) (a : Nat) (s : State) :
    (repairCandidate p a s).slots = s.slots := by
  unfold repairCandidate; simp
@[simp] theorem noteRow_slots (p : Fin 64) (a : Nat) (s : State) :
    (noteRow p a s).slots = s.slots := by
  unfold noteRow; simp
@[simp] theorem correctWord_slots (scrub : Bool) (p : Fin 64) (a : Nat) (s : State) :
    (correctWord scrub p a s).slots = s.slots := by
  unfold correctWord; simp
@[simp] theorem correctLine_slots (scrub : Bool) (p : Fin 64) (line : Nat) (s : State) :
    (correctLine scrub p line s).slots = s.slots := by
  unfold correctLine; simp
@[simp] theorem scrubUnit_slots (p : Fin 64) (s : State) :
    (scrubUnit p s).slots = s.slots := by
  unfold scrubUnit; simp
@[simp] theorem sysUnit_slots (p : Fin 64) (s : State) :
    (sysUnit p s).slots = s.slots := by
  unfold sysUnit; split <;> simp
@[simp] theorem binWriteAt_slots (p : Fin 64) (b : Fin 24) (addr d : Word) (s : State) :
    (binWriteAt p b addr d s).slots = s.slots := by
  unfold binWriteAt; rfl
@[simp] theorem binScrubAt_slots (p : Fin 64) (b : Fin 24) (s : State) :
    (binScrubAt p b s).slots = s.slots := by
  unfold binScrubAt; simp
@[simp] theorem stageGated_slots (q : Fin 256) (p : Fin 64) (port : Fin 8) (it : Item) (s : State) :
    (stageGated q p port it s).slots = s.slots := by
  unfold stageGated; simp
@[simp] theorem refill_slots (q : Fin 256) (s : State) :
    (refill q s).slots = s.slots := by
  unfold refill; repeat' split
  all_goals simp
@[simp] theorem offerItem_slots (q : Fin 256) (it : Item) (s : State) :
    (offerItem q it s).slots = s.slots := by
  unfold offerItem; repeat' split
  all_goals simp
@[simp] theorem acceptItem_slots (q : Fin 256) (s : State) :
    (acceptItem q s).slots = s.slots := by
  unfold acceptItem; split <;> simp
@[simp] theorem closeHandshake_slots (q : Fin 256) (s : State) :
    (closeHandshake q s).slots = s.slots := by
  unfold closeHandshake; simp
@[simp] theorem badItem_slots (q : Fin 256) (toConsumer : Bool) (s : State) :
    (badItem q toConsumer s).slots = s.slots := by
  unfold badItem; rfl
@[simp] theorem routeDiscard_slots (q : Fin 256) (s : State) :
    (routeDiscard q s).slots = s.slots := by
  unfold routeDiscard; rfl
@[simp] theorem dropReplay_slots (l : Fin 48) (s : State) :
    (dropReplay l s).slots = s.slots := by
  unfold dropReplay; rfl
@[simp] theorem leaveActive_slots (l : Fin 48) (s : State) :
    (leaveActive l s).slots = s.slots := by
  unfold leaveActive; simp
@[simp] theorem limvaInit_slots (l : Fin 48) (s : State) :
    (limvaInit l s).slots = s.slots := by
  unfold limvaInit; simp
@[simp] theorem limvaOff_slots (l : Fin 48) (s : State) :
    (limvaOff l s).slots = s.slots := by
  unfold limvaOff; simp
@[simp] theorem limvaUnfit_slots (l : Fin 48) (s : State) :
    (limvaUnfit l s).slots = s.slots := by
  unfold limvaUnfit; simp
@[simp] theorem limvaPeriod_slots (s : State) :
    (limvaPeriod s).slots = s.slots := by
  unfold limvaPeriod; simp
@[simp] theorem laneOff_slots (l : Fin 48) (s : State) :
    (laneOff l s).slots = s.slots := by
  unfold laneOff; simp
@[simp] theorem laneEval_slots (l : Fin 48) (s : State) :
    (laneEval l s).slots = s.slots := by
  unfold laneEval; simp
@[simp] theorem laneLost_slots (l : Fin 48) (cut : Bool) (s : State) :
    (laneLost l cut s).slots = s.slots := by
  unfold laneLost; simp
@[simp] theorem laneUp_slots (l : Fin 48) (s : State) :
    (laneUp l s).slots = s.slots := by
  unfold laneUp; simp
@[simp] theorem laneLeaves_slots (l : Fin 48) (s : State) :
    (laneLeaves l s).slots = s.slots := by
  unfold laneLeaves; simp
@[simp] theorem prbsFeed_slots (l : Fin 48) (bits : List Bool) (s : State) :
    (prbsFeed l bits s).slots = s.slots := by
  unfold prbsFeed; rfl
@[simp] theorem laneReceive_slots (l : Fin 48) (it : Item) (s : State) :
    (laneReceive l it s).slots = s.slots := by
  unfold laneReceive; split <;> simp
@[simp] theorem gearboxItem_slots (l : Fin 48) (it : Item) (s : State) :
    (gearboxItem l it s).slots = s.slots := by
  unfold gearboxItem; simp
@[simp] theorem receiveGroup_slots (l : Fin 48) (bs : List Block) (s : State) :
    (receiveGroup l bs s).slots = s.slots := by
  unfold receiveGroup; simp
@[simp] theorem loopBlocks_slots (l : Fin 48) (bs : List Block) (s : State) :
    (loopBlocks l bs s).slots = s.slots := by
  unfold loopBlocks; simp
@[simp] theorem txBlock_slots (l : Fin 48) (b : Block) (s : State) :
    (txBlock l b s).slots = s.slots := by
  unfold txBlock; rfl
@[simp] theorem farEcho_slots (l : Fin 48) (bs : List Block) (s : State) :
    (farEcho l bs s).slots = s.slots := by
  unfold farEcho; simp
@[simp] theorem receiveRaw_slots (l : Fin 48) (w : Word) (s : State) :
    (receiveRaw l w s).slots = s.slots := by
  unfold receiveRaw; simp
@[simp] theorem txRaw_slots (l : Fin 48) (w : Word) (s : State) :
    (txRaw l w s).slots = s.slots := by
  unfold txRaw; rfl
@[simp] theorem laneTake_slots (l : Fin 48) (q : Fin 256) (s : State) :
    (laneTake l q s).slots = s.slots := by
  unfold laneTake; split <;> simp
@[simp] theorem takeItems_slots (l : Fin 48) (q : Fin 256) (n : Nat) (s : State) :
    (takeItems l q n s).slots = s.slots := by
  unfold takeItems; simp
@[simp] theorem discardOdd_slots (l : Fin 48) (q : Fin 256) (a0 : Nat) (s : State) :
    (discardOdd l q a0 s).slots = s.slots := by
  induction a0 generalizing s with
  | zero => rfl
  | succ n ih =>
    unfold discardOdd; repeat' split
    all_goals simp [ih]
@[simp] theorem sendBlock_slots (l : Fin 48) (b : Block) (s : State) :
    (sendBlock l b s).slots = s.slots := by
  unfold sendBlock; simp
@[simp] theorem txCoded_slots (l : Fin 48) (s : State) :
    (txCoded l s).slots = s.slots := by
  unfold txCoded; simp only []; repeat' split
  all_goals simp [*]
@[simp] theorem sendRaw_slots (l : Fin 48) (w : Word) (s : State) :
    (sendRaw l w s).slots = s.slots := by
  unfold sendRaw; simp
@[simp] theorem dropMarkers_slots (l : Fin 48) (q : Fin 256) (a0 : Nat) (s : State) :
    (dropMarkers l q a0 s).slots = s.slots := by
  induction a0 generalizing s with
  | zero => rfl
  | succ n ih =>
    unfold dropMarkers; repeat' split
    all_goals simp [ih]
@[simp] theorem txRawWord_slots (l : Fin 48) (s : State) :
    (txRawWord l s).slots = s.slots := by
  unfold txRawWord; simp only []; repeat' split
  all_goals simp [*]
@[simp] theorem txFabric_slots (l : Fin 48) (s : State) :
    (txFabric l s).slots = s.slots := by
  unfold txFabric; simp only []; repeat' split
  all_goals simp [*]
@[simp] theorem sendFrame_slots (l : Fin 48) (seq : BitVec 12) (count kind : Nat) (body : List (BitVec 64)) (s : State) :
    (sendFrame l seq count kind body s).slots = s.slots := by
  unfold sendFrame; rfl
@[simp] theorem replayFrames_slots (l : Fin 48) (f : List (BitVec 12 × List Item)) (n : Nat) (s : State) :
    (replayFrames l f n s).1.slots = s.slots := by
  induction f generalizing n s with
  | nil => simp [replayFrames]
  | cons f fs ih => unfold replayFrames; split <;> simp [ih]
@[simp] theorem newFrame_slots (l : Fin 48) (n : Nat) (s : State) :
    (newFrame l n s).slots = s.slots := by
  unfold newFrame; split <;> simp
@[simp] theorem newFrames_slots (l : Fin 48) (k n : Nat) (s : State) : (newFrames l k n s).slots = s.slots := by
  induction k generalizing n s with
  | zero => rfl
  | succ k ih => unfold newFrames; dsimp only; split <;> simp [ih]
@[simp] theorem firstFrames_slots (l : Fin 48) (n : Nat) (s : State) :
    (firstFrames l n s).slots = s.slots := by
  unfold firstFrames; simp
@[simp] theorem limvaSlot_slots (l : Fin 48) (s : State) :
    (limvaSlot l s).slots = s.slots := by
  unfold limvaSlot; simp only []; repeat' split
  all_goals simp [*]
@[simp] theorem limvaSlot15_slots (l : Fin 48) (s : State) :
    (limvaSlot15 l s).slots = s.slots := by
  unfold limvaSlot15; simp only []; repeat' split
  all_goals simp [*]
@[simp] theorem limvaBoundary_slots (s : State) :
    (limvaBoundary s).slots = s.slots := by
  unfold limvaBoundary; simp
@[simp] theorem takeFrame_slots (l : Fin 48) (f : Frame) (st : LimvaSt) (k : Nat) (run : State → State) (s : State)
    (h : ∀ t, (run t).slots = t.slots) : (takeFrame l f st k run s).slots = s.slots := by
  unfold takeFrame; dsimp only; repeat' split
  all_goals simp [h]
@[simp] theorem dataFrame_slots (l : Fin 48) (f : Frame) (s : State) :
    (dataFrame l f s).slots = s.slots := by
  unfold dataFrame; simp
@[simp] theorem bellFrame_slots (l : Fin 48) (f : Frame) (s : State) :
    (bellFrame l f s).slots = s.slots := by
  unfold bellFrame; simp
@[simp] theorem resume_slots (l : Fin 48) (f : Frame) (s : State) :
    (resume l f s).slots = s.slots := by
  unfold resume; simp
@[simp] theorem freshStart_slots (l : Fin 48) (f : Frame) (s : State) :
    (freshStart l f s).slots = s.slots := by
  unfold freshStart; simp
@[simp] theorem initFrame_slots (l : Fin 48) (f : Frame) (s : State) :
    (initFrame l f s).slots = s.slots := by
  unfold initFrame; simp
@[simp] theorem resyncFrame_slots (l : Fin 48) (f : Frame) (s : State) :
    (resyncFrame l f s).slots = s.slots := by
  unfold resyncFrame; simp only []; repeat' split
  all_goals simp [*]
@[simp] theorem limvaEdge_slots (s : State) :
    (limvaEdge s).slots = s.slots := by
  unfold limvaEdge; simp
@[simp] theorem laneWrite_slots (l : Fin 48) (sub v : Nat) (s : State) :
    (laneWrite l sub v s).slots = s.slots := by
  unfold laneWrite; split <;> simp
@[simp] theorem commitOut_slots (u : Fin 32) (its : List Item) (s : State) :
    (commitOut u its s).slots = s.slots := by
  unfold commitOut; split <;> simp
@[simp] theorem cvuTake_slots (u : Fin 32) (r : Cvu × List Item) (s : State) :
    (cvuTake u r s).slots = s.slots := by
  unfold cvuTake; simp
@[simp] theorem cvuItem_slots (u : Fin 32) (s : State) :
    (cvuItem u s).slots = s.slots := by
  unfold cvuItem; simp only []; repeat' split
  all_goals simp [*]
@[simp] theorem cvuStop_slots (u : Fin 32) (s : State) :
    (cvuStop u s).slots = s.slots := by
  unfold cvuStop; simp
@[simp] theorem unitLeaves_slots (u : Fin 32) (s : State) :
    (unitLeaves u s).slots = s.slots := by
  unfold unitLeaves; simp
@[simp] theorem cvuEdge_slots (u : Fin 32) (s : State) :
    (cvuEdge u s).slots = s.slots := by
  unfold cvuEdge; simp
@[simp] theorem cvuWrite_slots (u : Fin 32) (sub v : Nat) (s : State) :
    (cvuWrite u sub v s).slots = s.slots := by
  unfold cvuWrite; rfl
@[simp] theorem xferEnd_slots (n : Nat) (rx : List Byte) (st : Byte) (s : State) :
    (xferEnd n rx st s).slots = s.slots := by
  unfold xferEnd; simp
@[simp] theorem sspError_slots (s : State) :
    (sspError s).slots = s.slots := by
  unfold sspError; rfl
@[simp] theorem sspSubmit_slots (len : Nat) (s : State) :
    (sspSubmit len s).slots = s.slots := by
  unfold sspSubmit; simp
@[simp] theorem sspAckResponse_slots (s : State) :
    (sspAckResponse s).slots = s.slots := by
  unfold sspAckResponse; rfl
@[simp] theorem sspAckNotice_slots (s : State) :
    (sspAckNotice s).slots = s.slots := by
  unfold sspAckNotice; rfl
@[simp] theorem controlWrite_slots (a : Nat) (b : Byte) (s : State) :
    (controlWrite a b s).slots = s.slots := by
  unfold controlWrite; repeat' split
  all_goals simp
@[simp] theorem blockWrite_slots (block a : Nat) (b : Byte) (s : State) :
    (blockWrite block a b s).slots = s.slots := by
  unfold blockWrite; simp
@[simp] theorem guarded_slots (a n : Nat) (o : FlashOp) (s : State) :
    (guarded a n o s).slots = s.slots := by
  unfold guarded; simp
@[simp] theorem failOp_slots (o : FlashOp) (e : Ev) (s : State) :
    (failOp o e s).slots = s.slots := by
  unfold failOp; simp
@[simp] theorem pageDone_slots (a : Nat) (b : List Byte) (k : FlashCont) (s : State) :
    (pageDone a b k s).slots = s.slots := by
  unfold pageDone; simp
@[simp] theorem opEnded_slots (o : FlashOp) (rejected : Bool) (readBack : List Byte) (s : State) :
    (opEnded o rejected readBack s).slots = s.slots := by
  unfold opEnded; repeat' split
  all_goals simp
@[simp] theorem sspWrite_slots (sub off : Nat) (v : Val) (s : State) :
    (sspWrite sub off v s).slots = s.slots := by
  unfold sspWrite; split <;> simp
@[simp] theorem addTrans_slots (h : Fin 32) (k : TransKind) (rq : Option Req) (s : State) :
    (addTrans h k rq s).1.slots = s.slots := by
  unfold addTrans; simp
@[simp] theorem edgeAction_slots (h : Fin 32) (k : TransKind) (s : State) :
    (edgeAction h k s).1.slots = s.slots := by
  unfold edgeAction; simp
@[simp] theorem onceAction_slots (h : Fin 32) (k : TransKind) (rq : Req) (now : Option Req → State → State) (s : State)
    (hn : ∀ r t, (now r t).slots = t.slots) : (onceAction h k rq now s).1.slots = s.slots := by
  unfold onceAction; split <;> simp [hn]
@[simp] theorem setOwner_slots (p : Fin 64) (h : Fin 32) (s : State) :
    (setOwner p h s).slots = s.slots := by
  unfold setOwner; simp
@[simp] theorem assignRect_slots (h : Fin 32) (v : BitVec 32) (s : State) :
    (assignRect h v s).slots = s.slots := by
  unfold assignRect; simp
@[simp] theorem setMask_slots (h : Fin 32) (k : MaskKind) (v : Nat) (s : State) :
    (setMask h k v s).slots = s.slots := by
  unfold setMask; dsimp only; split
  all_goals rw [modHolding_slots, eachOf_slots _ _ _ fun _ _ => by simp]
@[simp] theorem becomeRunning_slots (h : Fin 32) (s : State) :
    (becomeRunning h s).slots = s.slots := by
  unfold becomeRunning; simp
@[simp] theorem becomeQuiesced_slots (h : Fin 32) (s : State) :
    (becomeQuiesced h s).slots = s.slots := by
  unfold becomeQuiesced; simp
@[simp] theorem forceStopped_slots (h : Fin 32) (s : State) :
    (forceStopped h s).slots = s.slots := by
  unfold forceStopped; simp
@[simp] theorem beginDoze_slots (h : Fin 32) (s : State) :
    (beginDoze h s).slots = s.slots := by
  unfold beginDoze; simp
@[simp] theorem dozeDone_slots (h : Fin 32) (s : State) :
    (dozeDone h s).slots = s.slots := by
  unfold dozeDone; simp
@[simp] theorem dozeNow_slots (h : Fin 32) (rq : Option Req) (s : State) :
    (dozeNow h rq s).slots = s.slots := by
  unfold dozeNow; simp only []; repeat' split
  all_goals simp [*]
@[simp] theorem wakeNow_slots (h : Fin 32) (rq : Option Req) (s : State) :
    (wakeNow h rq s).slots = s.slots := by
  unfold wakeNow; simp
@[simp] theorem wakeEdge_slots (h : Fin 32) (s : State) :
    (wakeEdge h s).slots = s.slots := by
  unfold wakeEdge; simp
@[simp] theorem resetHolding_slots (h : Fin 32) (s : State) :
    (resetHolding h s).slots = s.slots := by
  unfold resetHolding; dsimp only
  refine (eachFin_slots _ _ _ fun u t => ?_).trans ((eachOf_slots _ _ _ fun _ _ => ?_).trans ((eachOf_slots _ _ _ fun _ _ => ?_).trans ?_))
  · split <;> simp
  all_goals simp
@[simp] theorem resetNow_slots (h : Fin 32) (rq : Option Req) (s : State) :
    (resetNow h rq s).slots = s.slots := by
  unfold resetNow; simp
@[simp] theorem clearComplete_slots (h : Fin 32) (s : State) :
    (clearComplete h s).slots = s.slots := by
  unfold clearComplete; simp
@[simp] theorem plotCleared_slots (p : Fin 64) (s : State) :
    (plotCleared p s).slots = s.slots := by
  unfold plotCleared; simp
@[simp] theorem applyVoltage_slots (h : Fin 32) (s : State) :
    (applyVoltage h s).slots = s.slots := by
  unfold applyVoltage; simp only []; repeat' split
  all_goals simp [*]
@[simp] theorem beginFreeze_slots (h : Fin 32) (s : State) :
    (beginFreeze h s).slots = s.slots := by
  unfold beginFreeze; split
  · rfl
  · exact (modHolding_slots _ _ _).trans (eachOf_slots _ _ _ fun _ _ => rfl)
@[simp] theorem cutHeld_slots (h : Fin 32) (s : State) :
    (cutHeld h s).slots = s.slots := by
  unfold cutHeld; simp
@[simp] theorem freezeEdgeWork_slots (h : Fin 32) (s : State) :
    (freezeEdgeWork h s).slots = s.slots := by
  unfold freezeEdgeWork; simp
@[simp] theorem freezeGivenUp_slots (h : Fin 32) (s : State) :
    (freezeGivenUp h s).slots = s.slots := by
  unfold freezeGivenUp; simp
@[simp] theorem startSnapshot_slots (h : Fin 32) (rq : Req) (s : State) :
    (startSnapshot h rq s).slots = s.slots := by
  unfold startSnapshot; simp
@[simp] theorem force_slots (h : Fin 32) (s : State) :
    (force h s).slots = s.slots := by
  unfold force; exact eachOf_slots _ _ _ fun _ _ => by simp
@[simp] theorem beginSnapshot_slots (h : Fin 32) (s : State) :
    (beginSnapshot h s).slots = s.slots := by
  unfold beginSnapshot; split <;> simp
@[simp] theorem commitPacket_slots (q : Fin 256) (l : List Item) (s : State) :
    (commitPacket q l s).slots = s.slots := by
  unfold commitPacket; simp
@[simp] theorem countSnapshotReads_slots (h : Fin 32) (s : State) :
    (countSnapshotReads h s).slots = s.slots := by
  unfold countSnapshotReads; simp
@[simp] theorem snapshotDone_slots (j : SnapJob) (total : Nat) (s : State) :
    (snapshotDone j total s).slots = s.slots := by
  unfold snapshotDone; simp
@[simp] theorem snapshotStep_slots (j : SnapJob) (s : State) :
    (snapshotStep j s).slots = s.slots := by
  unfold snapshotStep; simp
@[simp] theorem beginRestore_slots (h : Fin 32) (s : State) :
    (beginRestore h s).slots = s.slots := by
  unfold beginRestore; split <;> simp
@[simp] theorem discardQueues_slots (h : Fin 32) (s : State) :
    (discardQueues h s).slots = s.slots := by
  unfold discardQueues; simp
@[simp] theorem applyPoison_slots (p : Fin 64) (e : Nat) (s : State) :
    (applyPoison p e s).slots = s.slots := by
  unfold applyPoison; simp
@[simp] theorem applySection_slots (h : Fin 32) (x : Section) (s : State) :
    (applySection h x s).slots = s.slots := by
  unfold applySection; simp only []; repeat' split
  all_goals simp [*]
@[simp] theorem applyStream_slots (h : Fin 32) (k : Nat) (b : List Byte) (s : State) :
    (applyStream h k b s).1.slots = s.slots := by
  induction k generalizing b s with
  | zero => rfl
  | succ k ih => unfold applyStream; repeat' split
                 all_goals simp [ih]
@[simp] theorem commitCarried_slots (q : Fin 256) (b : List Byte) (s : State) :
    (commitCarried q b s).slots = s.slots := by
  unfold commitCarried; simp
@[simp] theorem restoreQueue_slots (j : RestoreJob) (q : Fin 256) (s : State) :
    (restoreQueue j q s).slots = s.slots := by
  unfold restoreQueue; split <;> simp
@[simp] theorem restoreDone_slots (s : State) :
    (restoreDone s).slots = s.slots := by
  unfold restoreDone; repeat' split
  all_goals simp
@[simp] theorem restoreFails_slots (code : Byte) (s : State) :
    (restoreFails code s).slots = s.slots := by
  unfold restoreFails; split <;> simp
@[simp] theorem applyRecord_slots (j : RestoreJob) (x : SnapHdr) (plain : List Byte) (s : State) :
    (applyRecord j x plain s).slots = s.slots := by
  unfold applyRecord; simp only []; repeat' split
  all_goals simp [*]
@[simp] theorem restorePart_slots (j : RestoreJob) (part : SnapPart) (s : State) :
    (restorePart j part s).slots = s.slots := by
  unfold restorePart; repeat' split
  all_goals simp
@[simp] theorem takePacket_slots (q : Fin 256) (n : Nat) (s : State) :
    (takePacket q n s).slots = s.slots := by
  unfold takePacket; simp
@[simp] theorem reportUnfit_slots (s : State) :
    (reportUnfit s).slots = s.slots := by
  unfold reportUnfit; simp
@[simp] theorem abandonAll_slots (s : State) :
    (abandonAll s).slots = s.slots := by
  unfold abandonAll; simp
@[simp] theorem ringCtrl_slots (q : Fin 256) (v : BitVec 32) (s : State) :
    (ringCtrl q v s).slots = s.slots := by
  unfold ringCtrl; rfl
@[simp] theorem drainRing_slots (q : Fin 256) (s : State) :
    (drainRing q s).slots = s.slots := by
  unfold drainRing; rfl
@[simp] theorem ringTail_slots (q : Fin 256) (v : BitVec 16) (s : State) :
    (ringTail q v s).slots = s.slots := by
  unfold ringTail; simp
@[simp] theorem clearRingError_slots (q : Fin 256) (s : State) :
    (clearRingError q s).slots = s.slots := by
  unfold clearRingError; simp
@[simp] theorem unmask_slots (f : Fin 33) (v : Nat) (s : State) :
    (unmask f v s).slots = s.slots := by
  unfold unmask; simp
@[simp] theorem tableWrite_slots (f : Fin 33) (off : Nat) (v : BitVec 32) (s : State) :
    (tableWrite f off v s).slots = s.slots := by
  unfold tableWrite; simp
@[simp] theorem submit_slots (slot : Fin 8) (len : Nat) (s : State) :
    (submit slot len s).slots = s.slots := by
  unfold submit; simp
@[simp] theorem clearReady_slots (mask : Byte) (s : State) :
    (clearReady mask s).slots = s.slots := by
  unfold clearReady; rfl
@[simp] theorem ringRegWrite_slots (q : Fin 256) (off : Nat) (v : BitVec 32) (s : State) :
    (ringRegWrite q off v s).slots = s.slots := by
  unfold ringRegWrite; simp
@[simp] theorem pf0Write_slots (off : Nat) (v : BitVec 32) (s : State) :
    (pf0Write off v s).slots = s.slots := by
  unfold pf0Write; simp
@[simp] theorem vfWrite_slots (f : Fin 33) (off : Nat) (v : BitVec 32) (s : State) :
    (vfWrite f off v s).slots = s.slots := by
  unfold vfWrite; simp
@[simp] theorem regWrite_slots (f : Fin 33) (off : Nat) (v : BitVec 32) (s : State) :
    (regWrite f off v s).slots = s.slots := by
  unfold regWrite; simp
@[simp] theorem issue_slots (q : Fin 256) (s : State) :
    (issue q s).slots = s.slots := by
  unfold issue; rfl
@[simp] theorem modTallies_slots (q : Fin 256) (p : Tally → Bool) (f : Tally → Tally) (s : State) :
    (modTallies q p f s).slots = s.slots := by
  unfold modTallies; rfl
@[simp] theorem dataWrite_slots (q : Fin 256) (s : State) :
    (dataWrite q s).slots = s.slots := by
  unfold dataWrite; split <;> simp
@[simp] theorem dataRead_slots (q : Fin 256) (s : State) :
    (dataRead q s).slots = s.slots := by
  unfold dataRead; split <;> simp
@[simp] theorem descRead_slots (q : Fin 256) (s : State) :
    (descRead q s).slots = s.slots := by
  unfold descRead; rfl
@[simp] theorem spend_slots (q : Fin 256) (s : State) :
    (spend q s).slots = s.slots := by
  unfold spend; rfl
@[simp] theorem runUnit_slots (q : Fin 256) (k : DmaKind) (s : State) :
    (runUnit q k s).slots = s.slots := by
  unfold runUnit; simp only []; repeat' split
  all_goals simp [*]
@[simp] theorem descFailed_slots (q : Fin 256) (code : Nat) (s : State) :
    (descFailed q code s).slots = s.slots := by
  unfold descFailed; simp
@[simp] theorem takeWord_slots (q : Fin 256) (bad : Bool) (w : BitVec 64) (s : State) :
    (takeWord q bad w s).slots = s.slots := by
  unfold takeWord; simp
@[simp] theorem readFails_slots (q : Fin 256) (aer : Nat) (s : State) :
    (readFails q aer s).slots = s.slots := by
  unfold readFails; simp
@[simp] theorem dataArrives_slots (q : Fin 256) (poisoned : Bool) (words : List (BitVec 64)) (s : State) :
    (dataArrives q poisoned words s).slots = s.slots := by
  unfold dataArrives; split <;> simp
@[simp] theorem eachRing_slots (f : Fin 33) (g : Fin 256 → State → State) (s : State)
    (h : ∀ q t, (g q t).slots = t.slots) : (eachRing f g s).slots = s.slots := by
  unfold eachRing; simp [h]
@[simp] theorem vfReset_slots (f : Fin 33) (s : State) :
    (vfReset f s).slots = s.slots := by
  unfold vfReset; simp
@[simp] theorem clearPf0Mailbox_slots (s : State) :
    (clearPf0Mailbox s).slots = s.slots := by
  unfold clearPf0Mailbox; rfl
@[simp] theorem disableVfs_slots (s : State) :
    (disableVfs s).slots = s.slots := by
  unfold disableVfs; simp
@[simp] theorem pf0Reset_slots (s : State) :
    (pf0Reset s).slots = s.slots := by
  unfold pf0Reset
  exact (disableVfs_slots _).trans ((eachRing_slots _ _ _ fun _ _ => resetRing_slots _ _ _).trans (by simp))
@[simp] theorem hotReset_slots (s : State) :
    (hotReset s).slots = s.slots := by
  unfold hotReset; simp
@[simp] theorem notify_slots (se : Session) (inner : List Byte) (s : State) :
    (notify se inner s).slots = s.slots := by
  unfold notify; simp
@[simp] theorem modSub_slots (id : BitVec 32) (k : BitVec 8) (f : Subn → Subn) (s : State) :
    (modSub id k f s).slots = s.slots := by
  unfold modSub; rfl
@[simp] theorem sendReport_slots (id : BitVec 32) (k : BitVec 8) (s : State) :
    (sendReport id k s).slots = s.slots := by
  unfold sendReport; simp only []; repeat' split
  all_goals simp [*]
@[simp] theorem transmitOne_slots (s : State) :
    (transmitOne s).slots = s.slots := by
  unfold transmitOne; simp only []; repeat' split
  all_goals simp [*]
@[simp] theorem enqueue_slots (o : Out) (s : State) :
    (enqueue o s).slots = s.slots := by
  unfold enqueue; rfl
@[simp] theorem hearNeighbour_slots (src : BitVec 64) (body : List Byte) (s : State) :
    (hearNeighbour src body s).slots = s.slots := by
  unfold hearNeighbour; rfl
@[simp] theorem answerSolicit_slots (src : BitVec 64) (s : State) :
    (answerSolicit src s).slots = s.slots := by
  unfold answerSolicit; simp
@[simp] theorem answerPlain_slots (p : Path) (kind : Byte) (sess : BitVec 32) (body : List Byte) (s : State) :
    (answerPlain p kind sess body s).slots = s.slots := by
  unfold answerPlain; split <;> simp
@[simp] theorem refuse_slots (p : Path) (st : Byte) (s : State) :
    (refuse p st s).slots = s.slots := by
  unfold refuse; simp
@[simp] theorem welcome_slots (p : Path) (hello : List Byte) (s : State) :
    (welcome p hello s).slots = s.slots := by
  unfold welcome; simp
@[simp] theorem hello_slots (p : Path) (body : List Byte) (s : State) :
    (hello p body s).slots = s.slots := by
  unfold hello; simp
@[simp] theorem authFails_slots (rq : Req) (se : Session) (c : Cred) (s : State) :
    (authFails rq se c s).slots = s.slots := by
  unfold authFails; simp only []; repeat' split
  all_goals simp [*]
@[simp] theorem putReport_slots (se : Session) (k : BitVec 8) (b : List Byte) (s : State) :
    (putReport se k b s).slots = s.slots := by
  unfold putReport; simp
@[simp] theorem endSub_slots (se : Session) (x : Subn) (b : List Byte) (s : State) :
    (endSub se x b s).slots = s.slots := by
  unfold endSub; simp only []; repeat' split
  all_goals simp [*]
@[simp] theorem writeDir_slots (f : Dir → Dir) (s : State) :
    (writeDir f s).slots = s.slots := by
  unfold writeDir; simp
@[simp] theorem haltBoot_slots (code : BitVec 2) (s : State) :
    (haltBoot code s).slots = s.slots := by
  unfold haltBoot; simp
@[simp] theorem releaseCore_slots (c : Fin 4) (s2 : Digest) (s : State) :
    (releaseCore c s2 s).slots = s.slots := by
  unfold releaseCore; simp
@[simp] theorem activateSlot_slots (s : State) :
    (activateSlot s).slots = s.slots := by
  unfold activateSlot; simp
@[simp] theorem advanceRollback_slots (s : State) :
    (advanceRollback s).slots = s.slots := by
  unfold advanceRollback; simp
@[simp] theorem repairDirectory_slots (s : State) :
    (repairDirectory s).slots = s.slots := by
  unfold repairDirectory; simp
@[simp] theorem healthPasses_slots (s : State) :
    (healthPasses s).slots = s.slots := by
  unfold healthPasses; simp
@[simp] theorem writePage_slots (off : Nat) (b : List Byte) (s : State) :
    (writePage off b s).slots = s.slots := by
  unfold writePage; simp
@[simp] theorem slotPacket_slots (l : List Item) (s : State) :
    (slotPacket l s).slots = s.slots := by
  unfold slotPacket; simp
@[simp] theorem updateSlot_slots (x : SlotScan) (s : State) :
    (updateSlot x s).1.slots = s.slots := by
  unfold updateSlot; repeat' split
  all_goals simp
@[simp] theorem rotate_slots (rq : Req) (hash : Digest) (s : State) :
    (rotate rq hash s).slots = s.slots := by
  unfold rotate; simp
@[simp] theorem attest_slots (role : Role) (nonce : BitVec 256) (s : State) :
    (attest role nonce s).slots = s.slots := by
  unfold attest; rfl
@[simp] theorem runAttest_slots (rq : Req) (nonce : BitVec 256) (s : State) :
    (runAttest rq nonce s).slots = s.slots := by
  unfold runAttest; split <;> simp
@[simp] theorem rngFailed_slots (s : State) :
    (rngFailed s).slots = s.slots := by
  unfold rngFailed; simp
@[simp] theorem wakeOne_slots (w : WaitOp) (s : State) :
    (wakeOne w s).slots = s.slots := by
  unfold wakeOne; split <;> simp
@[simp] theorem seedDrbg_slots (s : State) :
    (seedDrbg s).slots = s.slots := by
  unfold seedDrbg; simp
@[simp] theorem coresBack_slots (s : State) :
    (coresBack s).slots = s.slots := by
  unfold coresBack; simp
@[simp] theorem beginLoad_slots (h : Fin 32) (s : State) :
    (beginLoad h s).slots = s.slots := by
  unfold beginLoad; simp
@[simp] theorem loadReady_slots (h : Fin 32) (s : State) :
    (loadReady h s).slots = s.slots := by
  unfold loadReady; split <;> simp
@[simp] theorem bindDecl_slots (h : Fin 32) (e : Nat) (d : Decl) (q : Fin 256) (s : State) :
    (bindDecl h e d q s).slots = s.slots := by
  unfold bindDecl; simp
@[simp] theorem bindDecls_slots (h : Fin 32) (e : Nat) (l : List Decl) (s : State) :
    (bindDecls h e l s).1.slots = s.slots := by
  induction l generalizing s with
  | nil => rfl
  | cons d l ih => unfold bindDecls; repeat' split
                   all_goals simp [ih]
@[simp] theorem applyConfig_slots (p : Fin 64) (a : Nat) (w : Word) (s : State) :
    (applyConfig p a w s).slots = s.slots := by
  unfold applyConfig; split <;> simp
@[simp] theorem finishLoad_slots (l : Load) (s : State) :
    (finishLoad l s).slots = s.slots := by
  unfold finishLoad; dsimp only; split <;> simp
@[simp] theorem takeBytes_slots (l : Load) (n : Nat) (s : State) :
    (takeBytes l n s).slots = s.slots := by
  unfold takeBytes; simp
@[simp] theorem writeRecord_slots (r : Rec) (s : State) :
    (writeRecord r s).slots = s.slots := by
  unfold writeRecord; split <;> simp
@[simp] theorem flushIntake_slots (s : State) :
    (flushIntake s).slots = s.slots := by
  unfold flushIntake; simp
@[simp] theorem losePage_slots (p : Nat) (s : State) :
    (losePage p s).slots = s.slots := by
  unfold losePage; simp
@[simp] theorem intakeStep_slots (ue : Bool) (s : State) :
    (intakeStep ue s).slots = s.slots := by
  unfold intakeStep; split <;> simp
@[simp] theorem scrubLedger_slots (s : State) :
    (scrubLedger s).slots = s.slots := by
  unfold scrubLedger; simp
@[simp] theorem thermalRecord_slots (e : Ev) (sensors : List Nat) (s : State) :
    (thermalRecord e sensors s).slots = s.slots := by
  unfold thermalRecord; simp
@[simp] theorem thermalAlert_slots (s : State) :
    (thermalAlert s).slots = s.slots := by
  unfold thermalAlert; simp
@[simp] theorem samplePlot_slots (v : Sensors) (p : Fin 64) (s : State) :
    (samplePlot v p s).slots = s.slots := by
  unfold samplePlot; simp
@[simp] theorem sampleHolding_slots (h : Fin 32) (s : State) :
    (sampleHolding h s).slots = s.slots := by
  unfold sampleHolding; rfl
@[simp] theorem sampleSensors_slots (v : Sensors) (s : State) :
    (sampleSensors v s).slots = s.slots := by
  unfold sampleSensors; simp
@[simp] theorem modSlice_slots (f : Slice → Slice) (s : State) :
    (modSlice f s).slots = s.slots := by
  unfold modSlice; rfl
@[simp] theorem enterShut_slots (s : State) :
    (enterShut s).slots = s.slots := by
  unfold enterShut; simp
@[simp] theorem endSlice_slots (x : Slice) (s : State) :
    (endSlice x s).slots = s.slots := by
  unfold endSlice; simp
@[simp] theorem sliceNext_slots (s : State) :
    (sliceNext s).slots = s.slots := by
  unfold sliceNext; split <;> simp
@[simp] theorem beginSlice_slots (s : State) :
    (beginSlice s).slots = s.slots := by
  unfold beginSlice; simp
@[simp] theorem keptPlotEnd_slots (p : Fin 64) (s : State) :
    (keptPlotEnd p s).slots = s.slots := by
  unfold keptPlotEnd; simp
@[simp] theorem transparentMarch_slots (p : Fin 64) (sub : Nat) (s : State) :
    (transparentMarch p sub s).slots = s.slots := by
  unfold transparentMarch; simp
@[simp] theorem unitEffect_slots (k : Nat) (x : Slice) (s : State) :
    (unitEffect k x s).slots = s.slots := by
  unfold unitEffect; split <;> simp
@[simp] theorem addRepair_slots (e : BitVec 32) (s : State) :
    (addRepair e s).slots = s.slots := by
  unfold addRepair; simp
@[simp] theorem modSpill_slots (f : Spill → Spill) (s : State) :
    (modSpill f s).slots = s.slots := by
  unfold modSpill; rfl
@[simp] theorem eraseOldest_slots (s : State) :
    (eraseOldest s).slots = s.slots := by
  unfold eraseOldest; split <;> simp
@[simp] theorem openSpill_slots (s : State) :
    (openSpill s).slots = s.slots := by
  unfold openSpill; simp only []; repeat' split
  all_goals simp [*]
@[simp] theorem appendRun_slots (b : List Byte) (fresh ok : Bool) (s : State) :
    (appendRun b fresh ok s).slots = s.slots := by
  unfold appendRun; simp
@[simp] theorem writeRun_slots (b : List Byte) (ok0 ok1 : Bool) (s : State) :
    (writeRun b ok0 ok1 s).slots = s.slots := by
  unfold writeRun; simp
@[simp] theorem finishRun_slots (x : Slice) (ok0 ok1 : Bool) (s : State) :
    (finishRun x ok0 ok1 s).slots = s.slots := by
  unfold finishRun; simp
@[simp] theorem fuseRepairs_slots (s : State) :
    (fuseRepairs s).slots = s.slots := by
  unfold fuseRepairs; simp
@[simp] theorem memberRec_slots (e : Ev) (i : Nat) (s : State) :
    (memberRec e i s).slots = s.slots := by
  unfold memberRec; simp
@[simp] theorem toJoining_slots (s : State) :
    (toJoining s).slots = s.slots := by
  unfold toJoining; rfl
@[simp] theorem musterAbandoned_slots (s : State) :
    (musterAbandoned s).slots = s.slots := by
  unfold musterAbandoned; simp only []; repeat' split
  all_goals simp [*]
@[simp] theorem stepZero_slots (s : State) :
    (stepZero s).slots = s.slots := by
  unfold stepZero; simp
@[simp] theorem latchWord_slots (w : BitVec 256) (s : State) :
    (latchWord w s).slots = s.slots := by
  unfold latchWord; rfl
@[simp] theorem exclude_slots (i : Nat) (s : State) :
    (exclude i s).slots = s.slots := by
  unfold exclude; simp
@[simp] theorem ownOutcome_slots (m : List Byte) (ws : List (BitVec 256)) (s : State) :
    (ownOutcome m ws s).1.slots = s.slots := by
  unfold ownOutcome; simp only []; repeat' split
  all_goals simp [*]
@[simp] theorem alignOutcome_slots (m : List Byte) (ws : List (BitVec 256)) (wasJoined : Bool) (s : State) :
    (alignOutcome m ws wasJoined s).slots = s.slots := by
  unfold alignOutcome; simp only []; repeat' split
  all_goals simp [*]
@[simp] theorem othersOutcome_slots (m : List Byte) (ws : List (BitVec 256)) (i : Nat) (s : State) :
    (othersOutcome m ws i s).slots = s.slots := by
  unfold othersOutcome; repeat' split
  all_goals simp
@[simp] theorem membersOutcome_slots (m : List Byte) (ws : List (BitVec 256)) (own : OwnRec) (s : State) :
    (membersOutcome m ws own s).slots = s.slots := by
  unfold membersOutcome; simp
@[simp] theorem spansOutcome_slots (m : List Byte) (ws : List (BitVec 256)) (s : State) :
    (spansOutcome m ws s).slots = s.slots := by
  unfold spansOutcome; simp
@[simp] theorem musterOutcome_slots (s : State) :
    (musterOutcome s).slots = s.slots := by
  unfold musterOutcome; simp
@[simp] theorem villageEdge_slots (s : State) :
    (villageEdge s).slots = s.slots := by
  unfold villageEdge; simp
@[simp] theorem powerPlot_slots (p : Fin 64) (s : State) :
    (powerPlot p s).slots = s.slots := by
  unfold powerPlot; simp
@[simp] theorem powerPlots_slots (s : State) :
    (powerPlots s).slots = s.slots := by
  unfold powerPlots; simp
@[simp] theorem dropCpg_slots (s : State) :
    (dropCpg s).slots = s.slots := by
  unfold dropCpg; rfl
@[simp] theorem loseBank_slots (p : Fin 64) (s : State) :
    (loseBank p s).slots = s.slots := by
  unfold loseBank; simp
@[simp] theorem loseLatch_slots (s : State) :
    (loseLatch s).slots = s.slots := by
  unfold loseLatch; rfl
@[simp] theorem modTap_slots (f : Tap → Tap) (s : State) :
    (modTap f s).slots = s.slots := by
  unfold modTap; rfl
@[simp] theorem loadTap_slots (op : Byte) (s : State) :
    (loadTap op s).slots = s.slots := by
  unfold loadTap; rfl
@[simp] theorem holdPins_slots (op : Byte) (s : State) :
    (holdPins op s).slots = s.slots := by
  unfold holdPins; simp
@[simp] theorem settleKeys_slots (s : State) :
    (settleKeys s).slots = s.slots := by
  unfold settleKeys; split <;> simp
@[simp] theorem testLedger_slots (s : State) :
    (testLedger s).slots = s.slots := by
  unfold testLedger; simp
@[simp] theorem readDirectory_slots (s : State) :
    (readDirectory s).slots = s.slots := by
  unfold readDirectory; rfl
@[simp] theorem bootSlot_slots (b trial fallback : Bool) (x : SlotScan) (s : State) :
    (bootSlot b trial fallback x s).slots = s.slots := by
  unfold bootSlot; simp
@[simp] theorem trySlots_slots (scan : Bool → SlotScan) (trial first : Bool) (l : List Bool) (s : State) :
    (trySlots scan trial first l s).slots = s.slots := by
  induction l generalizing first s with
  | nil => simp [trySlots]
  | cons b l ih => unfold trySlots; split <;> simp [ih]
@[simp] theorem chooseSlot_slots (scan : Bool → SlotScan) (s : State) :
    (chooseSlot scan s).slots = s.slots := by
  unfold chooseSlot; simp
@[simp] theorem loadRec_slots (l : List StoreRec) (r : StoreRec) (s : State) :
    (loadRec l r s).slots = s.slots := by
  unfold loadRec; split <;> simp
@[simp] theorem scanStore_slots (s : State) :
    (scanStore s).slots = s.slots := by
  unfold scanStore; simp
@[simp] theorem bellFromStore_slots (s : State) :
    (bellFromStore s).slots = s.slots := by
  unfold bellFromStore; rfl
@[simp] theorem loadRepair_slots (e : BitVec 32) (s : State) :
    (loadRepair e s).slots = s.slots := by
  unfold loadRepair; simp
@[simp] theorem loadRun_slots (b : List Byte) (s : State) :
    (loadRun b s).slots = s.slots := by
  unfold loadRun; simp
@[simp] theorem scanSpill_slots (s : State) :
    (scanSpill s).slots = s.slots := by
  unfold scanSpill; simp only []; repeat' split
  all_goals simp [*]
@[simp] theorem recheckManifest_slots (s : State) :
    (recheckManifest s).slots = s.slots := by
  unfold recheckManifest; simp only []; repeat' split
  all_goals simp [*]
@[simp] theorem afterSlot_slots (s : State) :
    (afterSlot s).slots = s.slots := by
  unfold afterSlot; simp
@[simp] theorem startUp_slots (scan : Bool → SlotScan) (s : State) :
    (startUp scan s).slots = s.slots := by
  unfold startUp; simp
@[simp] theorem queueWrite_slots (q : Fin 256) (sub n : Nat) (s : State) :
    (queueWrite q sub n s).slots = s.slots := by
  unfold queueWrite; rfl
@[simp] theorem holdWrite_slots (h : Fin 32) (g sub n : Nat) (s : State) :
    (holdWrite h g sub n s).slots = s.slots := by
  unfold holdWrite; rfl
@[simp] theorem volatileWrite_slots (ix : BitVec 16) (sub off : Nat) (v : Val) (s : State) :
    (volatileWrite ix sub off v s).slots = s.slots := by
  unfold volatileWrite
  generalize areaOf ix = c
  rcases c with _ | a
  · rfl
  · cases a with
    | snap => rcases sub with _ | _ | _ | _ | k <;> rfl
    | queue q => exact queueWrite_slots ..
    | hold h g => exact holdWrite_slots ..
    | lane l => exact laneWrite_slots ..
    | cvu u => exact cvuWrite_slots ..
    | ssp => exact sspWrite_slots ..
    | _ => rfl
@[simp] theorem writeEntry_slots (rq : Req) (role : Role) (ix : BitVec 16) (sub off : Nat) (a : Attr) (v : Val) (s : State) :
    (writeEntry rq role ix sub off a v s).slots = s.slots := by
  unfold writeEntry; simp
@[simp] theorem addSub_slots (rq : Req) (se : Session) (ix : BitVec 16) (sub : Byte) (period phase : BitVec 32) (s : State) :
    (addSub rq se ix sub period phase s).slots = s.slots := by
  unfold addSub; simp
@[simp] theorem eraseStore_slots (s : State) :
    (eraseStore s).slots = s.slots := by
  have k : ∀ l t, ((copyRecords l t).getD t).slots = t.slots := by
    intro l t; cases h : copyRecords l t with
    | none => rfl
    | some u => exact copyRecords_slots _ _ _ h
  unfold eraseStore; simp [k]
@[simp] theorem suspendAudit_slots (on : Bool) (c : FatalCause) (s : State) :
    (suspendAudit on c s).slots = s.slots := by
  unfold suspendAudit; split <;> simp
@[simp] theorem rebuildStore_slots (s : State) :
    (rebuildStore s).slots = s.slots := by
  unfold rebuildStore; simp
@[simp] theorem rebuildTallies_slots (s : State) :
    (rebuildTallies s).slots = s.slots := by
  unfold rebuildTallies; rfl
@[simp] theorem rebuildCredits_slots (q : Fin 256) (s : State) :
    (rebuildCredits q s).slots = s.slots := by
  unfold rebuildCredits; simp
@[simp] theorem recovery_slots (s : State) :
    (recovery s).slots = s.slots := by
  unfold recovery; simp
@[simp] theorem bindEdge_slots (q : Fin 256) (s : State) :
    (bindEdge q s).slots = s.slots := by
  unfold bindEdge; simp only []; repeat' split
  all_goals simp [*]
@[simp] theorem periodEdge_slots (s : State) :
    (periodEdge s).slots = s.slots := by
  unfold periodEdge; simp only []; repeat' split
  all_goals simp [*]
@[simp] theorem turn_slots (s : State) :
    (turn s).slots = s.slots := by
  unfold turn; simp
@[simp] theorem cadenceEdge_slots (s : State) :
    (cadenceEdge s).slots = s.slots := by
  unfold cadenceEdge; exact eachOf_slots _ _ _ fun _ _ => by simp
@[simp] theorem captureEdge_slots (s : State) :
    (captureEdge s).slots = s.slots := by
  unfold captureEdge; rfl
@[simp] theorem queuesEdge_slots (s : State) :
    (queuesEdge s).slots = s.slots := by
  unfold queuesEdge; simp
@[simp] theorem fatalEdge_slots (s : State) :
    (fatalEdge s).slots = s.slots := by
  unfold fatalEdge; simp
@[simp] theorem lengthEdge_slots (s : State) :
    (lengthEdge s).slots = s.slots := by
  unfold lengthEdge; simp
@[simp] theorem pulse_slots (s : State) :
    (pulse s).slots = s.slots := by
  unfold pulse; simp
@[simp] theorem storeScrub_slots (ces : Nat) (s : State) :
    (storeScrub ces s).slots = s.slots := by
  unfold storeScrub; rfl
@[simp] theorem beginSlot_slots (j : Fin 16) (qsCe : Nat) (s : State) :
    (beginSlot j qsCe s).slots = s.slots := by
  unfold beginSlot; simp
@[simp] theorem binLock_slots (near : Bool) (s : State) :
    (binLock near s).slots = s.slots := by
  unfold binLock; simp only []; repeat' split
  all_goals simp [*]
@[simp] theorem bellIn_slots (s : State) :
    (bellIn s).slots = s.slots := by
  unfold bellIn; simp only []; repeat' split
  all_goals simp [*]
@[simp] theorem idle_slots (s : State) :
    (idle s).slots = s.slots := by
  unfold idle; rfl
end Sys2Proof.Machine
end

