-- ==== Sys2Proof/Laws/Legal.lean ====
section
/-! SUPPORT. What the operations that change a slot map, or may end in one that does, leave of its legality. -/

namespace Sys2Proof.Machine
open Sys2Proof.Safety
/-- The legality of the slot maps depends on the slot maps alone. -/
def legalIn (x : Slots) : Bool :=
  x.maps.all legalMap && x.granary.all legalMap && x.pend.all fun w => legalMap w.map
theorem slotsLegal_eq (s : State) : slotsLegal s = legalIn s.slots := rfl
theorem eachFin_legal (n : Nat) (f : Fin n → State → State) (s : State)
    (hf : ∀ i t, legalIn t.slots = true → legalIn (f i t).slots = true) (h : legalIn s.slots = true) :
    legalIn (eachFin n f s).slots = true := by
  unfold eachFin
  generalize List.finRange n = l
  induction l generalizing s with
  | nil => exact h
  | cons a l ih => exact ih _ (hf _ _ h)
theorem eachOf_legal {α : Type} (l : List α) (f : α → State → State) (s : State)
    (hf : ∀ i t, legalIn t.slots = true → legalIn (f i t).slots = true) (h : legalIn s.slots = true) :
    legalIn (eachOf l f s).slots = true := by
  unfold eachOf
  induction l generalizing s with
  | nil => exact h
  | cons a l ih => exact ih _ (hf _ _ h)
@[simp] theorem reset_legal : legalIn State.reset.slots = true := by decide +kernel

theorem serve_legal (rq : Req) (run : Session → State → State) (s : State)
    (hr : ∀ se t, legalIn t.slots = true → legalIn (run se t).slots = true) (h : legalIn s.slots = true) :
    legalIn (serve rq run s).slots = true := by
  unfold serve; split
  · exact h
  · split
    · simp [h]
    · split
      · simp [h]
      · split
        · exact hr _ _ (by simpa using h)
        · split
          · simp [h]
          · split <;> simp [h]
theorem writeReq_legal (rq : Req) (ix : BitVec 16) (sub : Nat) (lenOk valOk : Bool) (cond : State → Option Byte)
    (eff : State → State × BellNo) (s : State)
    (he : ∀ t, legalIn t.slots = true → valOk = true → cond t = none → legalIn (eff t).1.slots = true)
    (h : legalIn s.slots = true) : legalIn (writeReq rq ix sub lenOk valOk cond eff s).slots = true := by
  unfold writeReq
  refine serve_legal _ _ _ (fun se t ht => ?_) h
  dsimp only; split
  · simp [ht]
  · rename_i hn
    cases hk : checkEntry t se.role ix sub .w true lenOk valOk with
    | some e => simp [hk] at hn
    | none =>
      simp [hk] at hn
      have hv : valOk = true := by
        cases valOk with
        | true => rfl
        | false =>
          exfalso
          unfold checkEntry at hk
          repeat' split at hk
          all_goals simp at *
      simp [he _ ht hv hn]
theorem invokeReq_legal (rq : Req) (ix : BitVec 16) (sub : Nat) (lenOk : Bool) (cond : Session → State → Option Byte)
    (eff : Session → State → State × Option (Byte × BellNo)) (s : State)
    (he : ∀ se t, legalIn t.slots = true → cond se t = none → legalIn (eff se t).1.slots = true)
    (h : legalIn s.slots = true) : legalIn (invokeReq rq ix sub lenOk cond eff s).slots = true := by
  unfold invokeReq
  refine serve_legal _ _ _ (fun se t ht => ?_) h
  dsimp only; split
  · simp [ht]
  · rename_i hn
    have hc : cond se t = none := by
      cases hk : checkEntry t se.role ix sub .x true lenOk true <;> simp [hk] at hn; exact hn
    split
    · simp [he _ _ ht hc]
    · exact he _ _ ht hc
theorem nameFree_legal (h : Fin 32) (m : Vector Byte 16) (hm : legalMap m = true) : legalMap (nameFree h m) = true := by
  unfold legalMap mapBooks at *
  rw [List.all_eq_true] at *
  intro b hb
  have key : ∀ j, (hj : j < 16) → (if j = 15 then (nameFree h m)[j] == 0xFE
      else decide ((nameFree h m)[j].toNat < 32) || (nameFree h m)[j] == 0xFF) = true := by
    intro j hj
    have := hm (m[j], j) (by
      rw [List.mem_zipIdx_iff_getElem?]; simp [hj])
    simp only [nameFree, Vector.getElem_map]
    by_cases h15 : j = 15
    · simp only [h15, if_true] at this ⊢
      have e : m[15] = 0xFE#8 := by simpa using this
      have : ¬ (m[15].toNat = h.val) := by rw [e]; have := h.isLt; simp; omega
      rw [if_neg this, e]; rfl
    · simp only [h15, if_false] at this ⊢
      split
      · simp
      · exact this
  rw [List.mem_zipIdx_iff_getElem?] at hb
  obtain ⟨x, j⟩ := b
  simp only at hb ⊢
  have hj : j < 16 := by
    rcases Nat.lt_or_ge j 16 with h' | h'
    · exact h'
    · simp [h'] at hb
  have hx : x = (nameFree h m)[j] := by simpa [hj] using hb.symm
  subst hx
  exact key j hj
@[simp] theorem enterClearing_legal (h : Fin 32) (s : State) (hs : legalIn s.slots = true) :
    legalIn (enterClearing h s).slots = true := by
  unfold enterClearing; dsimp only
  rw [eachOf_slots _ _ _ fun _ _ => by simp]
  simp only [record_slots]
  have e : ∀ t : State, t.slots = s.slots → legalIn { t.slots with
      pend := t.slots.pend.map fun w => { w with map := nameFree h w.map } } = true := by
    intro t ht; rw [ht]
    simp only [legalIn, Bool.and_eq_true, List.all_eq_true, List.mem_map] at hs ⊢
    refine ⟨hs.1, ?_⟩
    rintro w ⟨v, hv, rfl⟩
    exact nameFree_legal _ _ (hs.2 v hv)
  refine e _ ?_
  simp
@[simp] theorem failLoad_legal (code : Byte) (toClearing : Bool) (s : State) (h : legalIn s.slots = true) :
    legalIn (failLoad code toClearing s).slots = true := by
  unfold failLoad; split
  · exact h
  · dsimp only
    have e : ∀ t : State, legalIn t.slots = true → ∀ (l : List (Req × Nat)) (k : Fin 32), legalIn (eachOf (ownedPlots
        (eachOf l (fun c t => respond c.1 opWrite stBusy 8 (bellNow t) [] t) t) k)
        (fun p t => modBank p (fun b => { b with sys := [] }) t)
        (eachOf l (fun c t => respond c.1 opWrite stBusy 8 (bellNow t) [] t) t)).slots = true := by
      intro t ht l k
      rw [eachOf_slots _ _ _ fun _ _ => by simp, eachOf_slots _ _ _ fun _ _ => by simp]; exact ht
    split
    · simp only [modHolding_slots]; exact e _ (by simpa using h) _ _
    · split
      · refine enterClearing_legal _ _ ?_
        simp only [unforce_slots]; exact e _ (by simpa using h) _ _
      · simp only [backToEmpty_slots]; exact e _ (by simpa using h) _ _
@[simp] theorem faultHolding_legal (h : Fin 32) (cause : FaultCause) (s : State) (hs : legalIn s.slots = true) :
    legalIn (faultHolding h cause s).slots = true := by
  unfold faultHolding; repeat' split
  all_goals simp [hs]
@[simp] theorem setUnfit_legal (p : Fin 64) (s : State) (h : legalIn s.slots = true) :
    legalIn (setUnfit p s).slots = true := by
  unfold setUnfit; simp [h]
@[simp] theorem fatalHolding_legal (h : Fin 32) (s : State) (hs : legalIn s.slots = true) :
    legalIn (fatalHolding h s).slots = true := by
  unfold fatalHolding; dsimp only; repeat' split
  all_goals simp [hs]
@[simp] theorem deviceFatal_legal (causes : List FatalCause) (s : State) (h : legalIn s.slots = true) :
    legalIn (deviceFatal causes s).slots = true := by
  have k : ∀ t : State, legalIn t.slots = true → legalIn (eachFin 32 fatalHolding t).slots = true :=
    fun t ht => eachFin_legal _ _ _ (fun i u hu => fatalHolding_legal _ _ hu) ht
  have q : ∀ t : State, (eachFin 32 fatalQuiesce t).slots = t.slots := fun t => eachFin_slots _ _ _ fun _ _ => by simp
  unfold deviceFatal; split
  · exact h
  · dsimp only
    split
    · rw [q]; simp only [k, h, fatalTallies_slots, emit_slots, raiseVec_slots, record_slots, ite_slots, ite_self]
    · simp only [k, h, fatalTallies_slots, emit_slots, raiseVec_slots, record_slots, ite_slots, ite_self]
@[simp] theorem quernResidue_legal (p : Fin 64) (n : Fin 16) (s : State) (h : legalIn s.slots = true) :
    legalIn (quernResidue p n s).slots = true := by
  unfold quernResidue; simp [h]
@[simp] theorem withProduct_legal (p : Fin 64) (n : Fin 16) (ok : Bool) (f : State → State) (s : State)
    (hf : ∀ t, (f t).slots = t.slots) (h : legalIn s.slots = true) : legalIn (withProduct p n ok f s).slots = true := by
  unfold withProduct quernOp; repeat' split
  all_goals simp [hf, h]
@[simp] theorem quernMul_legal (p : Fin 64) (n : Fin 16) (ok : Bool) (x : BitVec 96) (s : State) (h : legalIn s.slots = true) :
    legalIn (quernMul p n ok x s).slots = true := by
  unfold quernMul; simp [h]
@[simp] theorem quernAcc_legal (p : Fin 64) (n : Fin 16) (ok : Bool) (x : Int) (v : BitVec 104 → Bool) (s : State) (h : legalIn s.slots = true) :
    legalIn (quernAcc p n ok x v s).slots = true := by
  unfold quernAcc; simp [h]
@[simp] theorem calUnfit_legal (p : Fin 64) (e : Ev) (s : State) (h : legalIn s.slots = true) :
    legalIn (calUnfit p e s).slots = true := by
  unfold calUnfit; simp [h]
@[simp] theorem passesDone_slots (h : Fin 32) (s : State) :
    (passesDone h s).slots = s.slots := by
  unfold passesDone; dsimp only; repeat' split
  all_goals simp [*]
@[simp] theorem passEnd_legal (p : Fin 64) (c0 c1 : Nat) (s : State) (h : legalIn s.slots = true) :
    legalIn (passEnd p c0 c1 s).slots = true := by
  unfold passEnd; dsimp only; repeat' split
  all_goals simp [h]
@[simp] theorem uePolicy_legal (p : Fin 64) (data : Word) (s : State) (h : legalIn s.slots = true) :
    legalIn (uePolicy p data s).slots = true := by
  unfold uePolicy; dsimp only; repeat' split
  all_goals simp [h]
@[simp] theorem granaryPortRead_legal (p : Fin 64) (a : Nat) (s : State) (h : legalIn s.slots = true) :
    legalIn (granaryPortRead p a s).slots = true := by
  unfold granaryPortRead; dsimp only; repeat' split
  all_goals simp [h]
theorem derivedMap_legal (s : State) (p : Fin 64) (n : Nat) (h : legalMap s.slots.granary[p] = true) :
    legalMap (derivedMap s p n) = true := by
  unfold derivedMap; dsimp only; repeat' split
  · decide +kernel
  · have k := s.plots[p].owner.isLt
    unfold legalMap mapBooks
    rw [List.all_eq_true]; rintro ⟨x, j⟩ hb
    rw [List.mem_zipIdx_iff_getElem?] at hb
    simp only at hb ⊢
    have hj : j < 16 := by
      rcases Nat.lt_or_ge j 16 with h' | h'
      · exact h'
      · simp [h'] at hb
    simp [hj] at hb
    subst hb
    by_cases h15 : j = 15
    · simp [h15]
    · simp [h15]; left; omega
  · exact h
@[simp] theorem binUe_legal (p : Fin 64) (b : Fin 24) (row : Nat) (s : State) (h : legalIn s.slots = true) :
    legalIn (binUe p b row s).slots = true := by
  unfold binUe; simp [h]
@[simp] theorem binReadAt_legal (p : Fin 64) (b : Fin 24) (addr : Word) (s : State) (h : legalIn s.slots = true) :
    legalIn (binReadAt p b addr s).slots = true := by
  unfold binReadAt; dsimp only; repeat' split
  all_goals simp [h]
@[simp] theorem pllLost_legal (n : Fin 12) (b : Bool) (s : State) (h : legalIn s.slots = true) :
    legalIn (pllLost n b s).slots = true := by
  unfold pllLost; dsimp only
  refine eachOf_legal _ _ _ (fun i t ht => faultHolding_legal _ _ _ ht) ?_
  rw [eachOf_slots _ _ _ fun _ _ => by simp]; simpa using h
@[simp] theorem checkHedge_legal (e : Fin 112) (s : State) (h : legalIn s.slots = true) :
    legalIn (checkHedge e s).slots = true := by
  unfold checkHedge; split
  · exact h
  · dsimp only
    refine eachOf_legal _ _ _ (fun i t ht => faultHolding_legal _ _ _ ht) ?_
    rw [eachOf_slots _ _ _ fun _ _ => by simp]; simpa using h
@[simp] theorem checkHedges_legal (s : State) (h : legalIn s.slots = true) :
    legalIn (checkHedges s).slots = true := by
  unfold checkHedges; exact eachFin_legal _ _ _ (fun i t ht => by simp [ht]) h
@[simp] theorem clearHolding_legal (h : Fin 32) (s : State) (hs : legalIn s.slots = true) :
    legalIn (clearHolding h s).slots = true := by
  unfold clearHolding; split <;> simp [hs]
@[simp] theorem clearNow_legal (h : Fin 32) (rq : Option Req) (s : State) (hs : legalIn s.slots = true) :
    legalIn (clearNow h rq s).slots = true := by
  unfold clearNow; split <;> simp [hs]
@[simp] theorem regulatorFault_legal (p : Fin 64) (overCur : Bool) (s : State) (h : legalIn s.slots = true) :
    legalIn (regulatorFault p overCur s).slots = true := by
  unfold regulatorFault; simp [h]
@[simp] theorem linkLost_legal (s : State) (h : legalIn s.slots = true) :
    legalIn (linkLost s).slots = true := by
  unfold linkLost; split <;> simp [h]
@[simp] theorem coldState_legal (s : State) (_h : legalIn s.slots = true) :
    legalIn (coldState s).slots = true := by exact reset_legal
@[simp] theorem sectionFails_legal (s : State) (h : legalIn s.slots = true) :
    legalIn (sectionFails s).slots = true := by
  unfold sectionFails; simp [h]
@[simp] theorem loseCore_legal (c : Fin 4) (s : State) (h : legalIn s.slots = true) :
    legalIn (loseCore c s).slots = true := by
  unfold loseCore; dsimp only; repeat' split
  all_goals simp [h]
@[simp] theorem bindStep_legal (l : Load) (s : State) (h : legalIn s.slots = true) :
    legalIn (bindStep l s).slots = true := by
  unfold bindStep; dsimp only; repeat' split
  all_goals simp [h]
theorem applyWord_slots (l : Load) (x : ImgSection) (a : Nat) (w : Word) (s t : State) (h : applyWord l x a w s = some t) :
    t.slots = s.slots := by
  unfold applyWord at h; dsimp only at h; repeat' split at h
  all_goals simp at h
  all_goals (subst h; simp)
@[simp] theorem endSection_legal (l : Load) (x : ImgSection) (s : State) (h : legalIn s.slots = true) :
    legalIn (endSection l x s).slots = true := by
  unfold endSection; split <;> simp [h]
@[simp] theorem openFrame_legal (l : Load) (x : ImgSection) (s : State) (h : legalIn s.slots = true) :
    legalIn (openFrame l x s).slots = true := by
  unfold openFrame; dsimp only; repeat' split
  all_goals simp [h]
@[simp] theorem frameWord_legal (l : Load) (x : ImgSection) (s : State) (h : legalIn s.slots = true) :
    legalIn (frameWord l x s).slots = true := by
  unfold frameWord; dsimp only; split
  · exact failLoad_legal _ _ _ h
  · rename_i t ht; simp [applyWord_slots _ _ _ _ _ _ ht, h]
theorem applyStep_legal (l : Load) (s t : State) (h : legalIn s.slots = true) (ht : applyStep l s = some t) :
    legalIn t.slots = true := by
  unfold applyStep at ht; dsimp only at ht; repeat' split at ht
  all_goals simp at ht
  all_goals (subst ht; simp [h])
theorem loadStep_legal (l : Load) (s t : State) (h : legalIn s.slots = true) (ht : loadStep l s = some t) :
    legalIn t.slots = true := by
  unfold loadStep at ht; dsimp only at ht; repeat' split at ht
  all_goals first
    | (simp at ht; done)
    | exact applyStep_legal _ _ _ h ht
    | (simp at ht; subst ht; simp [h])
@[simp] theorem runLoader_legal (a0 : Nat) (s : State) (h : legalIn s.slots = true) :
    legalIn (runLoader a0 s).slots = true := by
  induction a0 generalizing s with
  | zero => exact h
  | succ n ih =>
    unfold runLoader; split
    · exact h
    · split
      · exact h
      · split
        · exact ih _ (loadStep_legal _ _ _ h (by assumption))
        · dsimp only; repeat' split
          all_goals first | exact h | exact failLoad_legal _ _ _ h | exact ih _ (by simpa using h)
@[simp] theorem loader_legal (s : State) (h : legalIn s.slots = true) :
    legalIn (loader s).slots = true := by
  unfold loader; split
  · exact h
  · exact runLoader_legal _ _ h
@[simp] theorem loadEdge_legal (s : State) (h : legalIn s.slots = true) :
    legalIn (loadEdge s).slots = true := by
  unfold loadEdge; split <;> simp [h]
@[simp] theorem takeSource_legal (l : Load) (s : State) (h : legalIn s.slots = true) :
    legalIn (takeSource l s).slots = true := by
  unfold takeSource; repeat' split
  all_goals simp [h]
@[simp] theorem takeItemsUpTo_legal (a0 : Nat) (s : State) (h : legalIn s.slots = true) :
    legalIn (takeItemsUpTo a0 s).slots = true := by
  induction a0 generalizing s with
  | zero => exact h
  | succ n ih =>
    unfold takeItemsUpTo; repeat' split
    all_goals first | exact h | exact ih _ (takeSource_legal _ _ h)
@[simp] theorem addChunk_legal (rq : Req) (b : List Byte) (l : Load) (s : State) (h : legalIn s.slots = true) :
    legalIn (addChunk rq b l s).slots = true := by
  unfold addChunk; repeat' split
  all_goals simp [h]
@[simp] theorem configScrub_legal (p : Fin 64) (s : State) (h : legalIn s.slots = true) :
    legalIn (configScrub p s).slots = true := by
  unfold configScrub; dsimp only; repeat' split
  all_goals simp [h]
@[simp] theorem tripPlot_legal (p : Fin 64) (s : State) (h : legalIn s.slots = true) :
    legalIn (tripPlot p s).slots = true := by
  unfold tripPlot; simp [h]
@[simp] theorem shutHolding_legal (h : Fin 32) (s : State) (hs : legalIn s.slots = true) :
    legalIn (shutHolding h s).slots = true := by
  unfold shutHolding; dsimp only; repeat' split
  all_goals simp [hs]
@[simp] theorem beginShutdown_legal (rq : Req) (s : State) (h : legalIn s.slots = true) :
    legalIn (beginShutdown rq s).slots = true := by
  unfold beginShutdown; dsimp only
  rw [eachFin_slots _ _ _ fun _ _ => by simp]
  exact eachFin_legal _ _ _ (fun i t ht => shutHolding_legal _ _ ht) (by simpa using h)
@[simp] theorem unitFails_legal (k : Nat) (x : Slice) (addr : Nat) (cells : List (Nat × Nat)) (s : State) (h : legalIn s.slots = true) :
    legalIn (unitFails k x addr cells s).slots = true := by
  unfold unitFails; repeat' split
  all_goals simp [h]
@[simp] theorem endUnit_legal (k : Nat) (o : UnitOutcome) (x : Slice) (s : State) (h : legalIn s.slots = true) :
    legalIn (endUnit k o x s).slots = true := by
  unfold endUnit; split <;> simp [h]
@[simp] theorem vgranFails_legal (s : State) (h : legalIn s.slots = true) :
    legalIn (vgranFails s).slots = true := by
  unfold vgranFails; split <;> simp [h]
@[simp] theorem vinIvrFails_legal (s : State) (h : legalIn s.slots = true) :
    legalIn (vinIvrFails s).slots = true := by
  unfold vinIvrFails; exact eachFin_legal _ _ _ (fun i t ht => by split <;> simp [ht]) h
@[simp] theorem serdesFails_legal (s : State) (h : legalIn s.slots = true) :
    legalIn (serdesFails s).slots = true := by
  unfold serdesFails
  refine linkLost_legal _ (eachFin_legal _ _ _ (fun i t ht => ?_) h)
  dsimp only; repeat' split
  all_goals simp [ht]
@[simp] theorem failAudits_legal (l : List (Nat × FatalCause)) (s : State) (h : legalIn s.slots = true) :
    legalIn (failAudits l s).slots = true := by
  unfold failAudits; split <;> simp [h]
@[simp] theorem rebuild_legal (c : FatalCause) (s : State) (h : legalIn s.slots = true) :
    legalIn (rebuild c s).slots = true := by
  have k : ∀ t : State, (eachFin 256 rebuildCredits t).slots = t.slots := fun t => eachFin_slots _ _ _ fun _ _ => rebuildCredits_slots _ _
  have m : legalIn { s.slots with maps := Vector.replicate 18 mapReset } = true := by
    simp only [legalIn, Bool.and_eq_true] at h ⊢
    refine ⟨⟨?_, h.1.2⟩, h.2⟩
    rw [Vector.all_eq_true]; intro i hi; rw [Vector.getElem_replicate]; decide +kernel
  cases c
  case slotAudit => exact (congrArg legalIn (rebuildStore_slots s)).trans h
  case commonsRoute => exact (congrArg legalIn (rebuildStore_slots s)).trans h
  case tallyAudit => exact (congrArg legalIn (rebuildTallies_slots s)).trans h
  case creditAudit => exact (congrArg legalIn (k s)).trans h
  case bellSlotAudit => exact m
  all_goals exact h
@[simp] theorem rebuildAll_legal (s : State) (h : legalIn s.slots = true) :
    legalIn (rebuildAll s).slots = true := by
  unfold rebuildAll; dsimp only
  exact eachOf_legal _ _ _ (fun c t ht => by rw [suspendAudit_slots]; exact rebuild_legal _ _ ht) h
@[simp] theorem recoveryEdge_legal (fails : List (Nat × FatalCause)) (s : State) (h : legalIn s.slots = true) :
    legalIn (recoveryEdge fails s).slots = true := by
  unfold recoveryEdge; dsimp only; repeat' split
  all_goals simp [h]
@[simp] theorem actAtEdge_legal (h : Fin 32) (t : Trans) (s : State) (hs : legalIn s.slots = true) :
    legalIn (actAtEdge h t s).slots = true := by
  unfold actAtEdge; split <;> simp [hs]
@[simp] theorem actionsDue_legal (h : Fin 32) (a0 : Nat) (s : State) (hs : legalIn s.slots = true) :
    legalIn (actionsDue h a0 s).slots = true := by
  induction a0 generalizing s with
  | zero => exact hs
  | succ n ih =>
    unfold actionsDue; repeat' split
    all_goals first | exact hs | exact ih _ (actAtEdge_legal _ _ _ (by simpa using hs))
@[simp] theorem clearingEdge_legal (h : Fin 32) (s : State) (hs : legalIn s.slots = true) :
    legalIn (clearingEdge h s).slots = true := by
  unfold clearingEdge; split
  · dsimp only
    simp only [modHolding_slots]
    rw [eachOf_slots _ _ _ fun _ _ => by simp]
    simp only [legalIn, Bool.and_eq_true] at hs ⊢
    refine ⟨⟨?_, hs.1.2⟩, hs.2⟩
    have := hs.1.1
    rw [Vector.all_eq_true] at this ⊢
    intro i hi; rw [Vector.getElem_map]; exact nameFree_legal _ _ (this i hi)
  · exact hs
@[simp] theorem mapsEdge_legal (s : State) (h : legalIn s.slots = true) :
    legalIn (mapsEdge s).slots = true := by
  unfold mapsEdge; dsimp only
  have e : ∀ (l : List MapWrite) (t : State), (∀ w ∈ l, legalMap w.map = true) → legalIn t.slots = true →
      legalIn (eachOf l (fun w t => { t with slots := { t.slots with maps := t.slots.maps.set w.m w.map } }) t).slots = true := by
    intro l; induction l with
    | nil => intro t _ ht; exact ht
    | cons w l ih =>
      intro t hl ht
      refine ih _ (fun x hx => hl x (List.mem_cons_of_mem _ hx)) ?_
      simp only [legalIn, Bool.and_eq_true] at ht ⊢
      refine ⟨⟨?_, ht.1.2⟩, ht.2⟩
      have hw := hl w List.mem_cons_self
      have := ht.1.1
      rw [Vector.all_eq_true] at this ⊢
      intro i hi
      rw [Vector.getElem_set]; split
      · exact hw
      · exact this i hi
  simp only [legalIn, Bool.and_eq_true, List.all_eq_true] at h
  refine e _ _ (fun w hw => h.2 w (List.mem_filter.1 hw).1) ?_
  simp only [legalIn, Bool.and_eq_true, List.all_eq_true]
  exact ⟨h.1, fun w hw => h.2 w (List.mem_filter.1 hw).1⟩
@[simp] theorem derivedEdge_legal (s : State) (h : legalIn s.slots = true) :
    legalIn (derivedEdge s).slots = true := by
  unfold derivedEdge
  simp only [legalIn, Bool.and_eq_true] at h ⊢
  refine ⟨⟨h.1.1, ?_⟩, h.2⟩
  have := h.1.2
  rw [Vector.all_eq_true] at this ⊢
  intro i hi; rw [Vector.getElem_ofFn]
  exact derivedMap_legal _ _ _ (this i hi)
@[simp] theorem holdingsEdge_legal (s : State) (h : legalIn s.slots = true) :
    legalIn (holdingsEdge s).slots = true := by
  unfold holdingsEdge
  exact eachFin_legal _ _ _ (fun i t ht => by rw [wakeEdge_slots]; exact actionsDue_legal _ _ _ (by simpa using ht)) (by simpa using h)
@[simp] theorem edge_legal (s : State) (h : legalIn s.slots = true) :
    legalIn (edge s).slots = true := by
  unfold edge; dsimp only
  rw [limitFlush_slots]
  refine failAudits_legal _ _ (recoveryEdge_legal _ _ ?_)
  rw [lengthEdge_slots]
  refine derivedEdge_legal _ ?_
  rw [villageEdge_slots, limvaEdge_slots]
  refine loadEdge_legal _ ?_
  rw [periodEdge_slots, eachFin_slots _ _ _ fun _ _ => by simp, eachFin_slots _ _ _ fun _ _ => by simp]
  refine mapsEdge_legal _ (eachFin_legal _ _ _ (fun i t ht => clearingEdge_legal _ _ ht) (holdingsEdge_legal _ ?_))
  rw [eachFin_slots _ _ _ fun _ _ => by simp]
  simpa using h
end Sys2Proof.Machine
end

