-- ==== Sys2Proof/Laws/Memory.lean ====
section
/-! SUPPORT. Every memory operation keeps the canonical form of a memory: keys rise strictly and no entry holds what an
unlisted key reads as. `memWf_cons` says the form of a longer memory by its first entry. -/

namespace Sys2Proof.Machine

/-- Every key of the memory lies above k. -/
def above {w : Nat} (k : Nat) (m : Mem w) : Prop := ∀ e ∈ m, k < e.1

theorem above_cons {w : Nat} {k : Nat} {e : Nat × BitVec w} {m : Mem w} :
    above k (e :: m) ↔ k < e.1 ∧ above k m := by simp [above]

theorem memWf_cons {w : Nat} (a : Nat) (v : BitVec w) (m : Mem w) :
    memWf ((a, v) :: m) = true ↔ v ≠ 0 ∧ above a m ∧ memWf m = true := by
  induction m generalizing a v with
  | nil => simp [memWf, above]
  | cons e m ih =>
    obtain ⟨b, x⟩ := e
    have step : memWf ((a, v) :: (b, x) :: m) = true ↔ v ≠ 0 ∧ a < b ∧ memWf ((b, x) :: m) = true := by
      simp [memWf, and_assoc]
    rw [step, above_cons]
    constructor
    · rintro ⟨h1, h2, h3⟩
      refine ⟨h1, ⟨h2, fun y hy => ?_⟩, h3⟩
      exact Nat.lt_trans h2 (((ih b x).1 h3).2.1 y hy)
    · rintro ⟨h1, ⟨h2, _⟩, h3⟩
      exact ⟨h1, h2, h3⟩

@[simp] theorem memWf_nil {w : Nat} : memWf ([] : Mem w) = true := rfl

theorem memSet_above {w : Nat} {m : Mem w} {k a : Nat} {v : BitVec w} (h : above a m) (hk : a < k) :
    above a (memSet m k v) := by
  induction m with
  | nil => by_cases hv : v = 0 <;> simp [memSet, hv, above, hk]
  | cons e m ih =>
    obtain ⟨b, x⟩ := e
    have h1 := above_cons.1 h
    unfold memSet
    split
    · split
      · exact h1.2
      · exact above_cons.2 ⟨hk, h1.2⟩
    · split
      · split
        · exact h
        · exact above_cons.2 ⟨hk, h⟩
      · exact above_cons.2 ⟨h1.1, ih h1.2⟩

/-- A write keeps the canonical form. -/
theorem memSet_wf {w : Nat} {m : Mem w} (k : Nat) (v : BitVec w) (h : memWf m = true) : memWf (memSet m k v) = true := by
  induction m with
  | nil =>
    unfold memSet
    split
    · rfl
    · rename_i hv
      exact (memWf_cons k v []).2 ⟨hv, by simp [above], rfl⟩
  | cons e m ih =>
    obtain ⟨b, x⟩ := e
    obtain ⟨h1, h2, h3⟩ := (memWf_cons b x m).1 h
    unfold memSet
    split
    · rename_i hb
      split
      · exact h3
      · rename_i hv
        exact (memWf_cons k v m).2 ⟨hv, hb ▸ h2, h3⟩
    · split
      · rename_i hlt
        split
        · exact h
        · rename_i hv
          refine (memWf_cons k v _).2 ⟨hv, above_cons.2 ⟨hlt, fun y hy => ?_⟩, h⟩
          exact Nat.lt_trans hlt (h2 y hy)
      · rename_i hne hge
        exact (memWf_cons b x _).2 ⟨h1, memSet_above h2 (by omega), ih h3⟩

theorem memPut_wf {w : Nat} (l : List (BitVec w)) (m : Mem w) (k : Nat) (h : memWf m = true) :
    memWf (memPut m k l) = true := by
  induction l generalizing m k with
  | nil => exact h
  | cons v l ih => exact ih _ _ (memSet_wf k v h)

theorem memKeep_wf {w : Nat} (p : Nat → Bool) (m : Mem w) (h : memWf m = true) : memWf (memKeep p m) = true := by
  induction m with
  | nil => rfl
  | cons e m ih =>
    obtain ⟨b, x⟩ := e
    obtain ⟨h1, h2, h3⟩ := (memWf_cons b x m).1 h
    have hrest : memWf (m.filter fun e => p e.1) = true := ih h3
    unfold memKeep
    rw [List.filter_cons]
    split
    · exact (memWf_cons b x _).2 ⟨h1, fun y hy => h2 y (List.mem_of_mem_filter hy), hrest⟩
    · exact hrest

theorem flashSet_wf (m : Mem 8) (a : Nat) (b : List Byte) (h : memWf m = true) : memWf (flashSet m a b) = true :=
  memPut_wf _ _ _ h

theorem flashProgram_wf (m : Mem 8) (a : Nat) (b : List Byte) (h : memWf m = true) : memWf (flashProgram m a b) = true :=
  flashSet_wf _ _ _ h

theorem flashWipe_wf (m : Mem 8) (a n : Nat) (h : memWf m = true) : memWf (flashWipe m a n) = true :=
  memKeep_wf _ _ h

end Sys2Proof.Machine
end

