-- ==== Sys2Proof/Laws/Requests.lean ====
section
/-! SUPPORT. Requests: what a request that executes does, once for all of them. A command's own meaning is cited with
`invokeReq_granted` or `writeReq_granted`; neither unfolds `serve`, the sessions or Table 13-3 again. -/

namespace Sys2Proof.Safety

open Sys2Proof.Machine

/-- The session as a request that it accepts finds it: the next counter, and the request's path. -/
def advanced (rq : Req) (se : Session) : Session := { se with next := se.next + 1, path := rq.path }

@[simp] theorem advanced_role (rq : Req) (se : Session) : (advanced rq se).role = se.role := rfl
@[simp] theorem advanced_id (rq : Req) (se : Session) : (advanced rq se).id = se.id := rfl
@[simp] theorem advanced_subs (rq : Req) (se : Session) : (advanced rq se).subs = se.subs := rfl
@[simp] theorem advanced_authFails (rq : Req) (se : Session) : (advanced rq se).authFails = se.authFails := rfl

theorem accepts_parts {s : State} {rq : Req} {se : Session} (h : accepts s rq se = true) :
    serving s = true ∧ findSession s rq.sess = some se ∧ rq.sealOk = true ∧ rq.ctr = se.next := by
  simpa [accepts, and_assoc] using h

theorem granted_parts {s : State} {rq : Req} {se : Session} {ix : BitVec 16} {sub : Nat} {a : Access}
    (h : granted s rq se ix sub a = true) :
    accepts s rq se = true ∧ checkEntry (executing rq se s) se.role ix sub a true true true = none := by
  simpa [granted, permits] using h

/-- While the service does not run a request has no effect. -/
theorem serve_waits {s : State} (rq : Req) (run : Session → State → State) (h : serving s = false) :
    serve rq run s = s := by simp [serve, h]

/-- A request of no session is counted and not answered. -/
theorem serve_no_session {s : State} (rq : Req) (run : Session → State → State) (h : serving s = true)
    (hf : findSession s rq.sess = none) : serve rq run s = noResponse rq.path (rxDrop s) := by simp [serve, h, hf]

/-- A request that its session accepts runs. -/
theorem serve_accepts {s : State} {rq : Req} {se : Session} (run : Session → State → State) (h : accepts s rq se = true) :
    serve rq run s = run (advanced rq se) (executing rq se s) := by
  obtain ⟨h1, h2, h3, h4⟩ := accepts_parts h
  simp [serve, h1, h2, h3, h4, advanced, executing]

@[simp] theorem executing_bell (rq : Req) (se : Session) (s : State) : (executing rq se s).bell = s.bell := rfl
@[simp] theorem executing_holdings (rq : Req) (se : Session) (s : State) : (executing rq se s).holdings = s.holdings := rfl
@[simp] theorem executing_plots (rq : Req) (se : Session) (s : State) : (executing rq se s).plots = s.plots := rfl
@[simp] theorem executing_queues (rq : Req) (se : Session) (s : State) : (executing rq se s).queues = s.queues := rfl
@[simp] theorem executing_boot (rq : Req) (se : Session) (s : State) : (executing rq se s).boot = s.boot := rfl
@[simp] theorem executing_dev (rq : Req) (se : Session) (s : State) : (executing rq se s).dev = s.dev := rfl
@[simp] theorem executing_ssp (rq : Req) (se : Session) (s : State) : (executing rq se s).ssp = s.ssp := rfl
@[simp] theorem executing_store (rq : Req) (se : Session) (s : State) : (executing rq se s).store = s.store := rfl
@[simp] theorem executing_slots (rq : Req) (se : Session) (s : State) : (executing rq se s).slots = s.slots := rfl

/-- An INVOKE that the checks of Table 13-3 pass: its own condition refuses it, or it has its effect, answered now or
later. -/
theorem invokeReq_granted {s : State} {rq : Req} {se : Session} {ix : BitVec 16} {sub : Nat}
    (cond : Session → State → Option Byte) (eff : Session → State → State × Option (Byte × BellNo))
    (h : granted s rq se ix sub .x = true) :
    invokeReq rq ix sub true cond eff s =
      match cond (advanced rq se) (executing rq se s) with
      | some st => respond rq opInvoke st (typeByte opInvoke ix sub) s.bell.number [] (executing rq se s)
      | none =>
        match (eff (advanced rq se) (executing rq se s)).2 with
        | some (st, b) =>
          respond rq opInvoke st (typeByte opInvoke ix sub) b [] (eff (advanced rq se) (executing rq se s)).1
        | none => (eff (advanced rq se) (executing rq se s)).1 := by
  obtain ⟨ha, hc⟩ := granted_parts h
  rw [invokeReq, serve_accepts _ ha]
  simp only [advanced_role, hc, Option.none_or]
  rfl

/-- A WRITE that the checks of Table 13-3 pass. -/
theorem writeReq_granted {s : State} {rq : Req} {se : Session} {ix : BitVec 16} {sub : Nat}
    (cond : State → Option Byte) (eff : State → State × BellNo) (h : granted s rq se ix sub .w = true) :
    writeReq rq ix sub true true cond eff s =
      match cond (executing rq se s) with
      | some st => refusedWith rq opWrite st ix sub (executing rq se s)
      | none => written rq ix sub (eff (executing rq se s)).2 (eff (executing rq se s)).1 := by
  obtain ⟨ha, hc⟩ := granted_parts h
  rw [writeReq, serve_accepts _ ha]
  simp only [advanced_role, hc, Option.none_or]
  rfl

/-- A WRITE whose value does not pass is answered with a status and has no other effect. -/
theorem writeReq_checked {s : State} {rq : Req} {se : Session} {ix : BitVec 16} {sub : Nat} {lenOk valOk : Bool} {st : Byte}
    (cond : State → Option Byte) (eff : State → State × BellNo) (ha : accepts s rq se = true)
    (hc : checkEntry (executing rq se s) se.role ix sub .w true lenOk valOk = some st) :
    writeReq rq ix sub lenOk valOk cond eff s = refusedWith rq opWrite st ix sub (executing rq se s) := by
  rw [writeReq, serve_accepts _ ha]
  simp only [advanced_role, hc, Option.some_or]
  rfl

end Sys2Proof.Safety
end

