-- ==== Sys2Proof/WellFormed.lean ====
section
/-! DEFINITION. What a command's operands must be for the spec to describe it: lengths and widths that its rules fix. The
machine gives every command a next state; a command that is not well formed is one that no sender can form. -/

namespace Sys2Proof

/-- PF0 and VFs 1 to 32; a window belongs to a VF (R202). -/
def isVf (f : Fin 33) : Bool := f.val != 0

/-- A window request is whole bytes within the 128 MiB of BAR2 (R202 to R207): 1 to 4,096 bytes that end in it. -/
def windowFits (off : BitVec 27) (len : Nat) : Bool :=
  1 ≤ len && len ≤ 4096 && off.toNat + len ≤ 2 ^ 27

/-- An opcode that loads BYPASS: 0xFF, or one not in Table 20-10 (R977). -/
def opcodeBypasses (o : Byte) : Bool := !([0x01, 0x02, 0x03, 0x04, 0x05, 0x06, 0x07, 0x10] : List Byte).contains o

/-- A unit of a Queue Store port moves 1 to 16 items (R238). -/
def unitSize (n : Nat) : Bool := 1 ≤ n && n ≤ 16

def Instr.wf : Instr → Bool
  | .slotBoundary _ ces => ces ≤ 64
  | .commitUnit _ n => unitSize n
  | .releaseUnit _ n wrong => unitSize n && wrong.length ≤ n
  | .bypass o => opcodeBypasses o
  | .windowRead vf off len => isVf vf && windowFits off len
  | .windowWrite vf off bytes => isVf vf && windowFits off bytes.length
  | .barRegisterWrite _ off width _ => (width == 4 || width == 8) && off.toNat % width == 0
  | .descriptorReadCompletion _ ok descs => descs.all (·.length == 32) && (ok || descs.isEmpty)
  | .ssp1CmdRead _ _ n => 1 ≤ n
  | .ssp1CmdWrite _ _ bytes cut => cut || !bytes.isEmpty
  | .mbxLostRead vf => isVf vf
  | .sspTransferEnd _ rx => rx.length ≤ 4096
  | .slotWriterPacket items => !items.isEmpty
  | .villageManifestWrite _ bytes _ => bytes.length ≤ 4096
  | .porstNLow ns => 1 ≤ ns
  | _ => true

end Sys2Proof
end

