-- ==== Sys2Proof/Tests/Slice0.lean ====
section
/-! SUPPORT. Small tests with values written out from the spec, an ill-formed command for each check of WellFormed, and for
each statement with hypotheses a state and operands that meet them. -/

namespace Sys2Proof.Tests

open Sys2Proof Sys2Proof.Machine Sys2Proof.Safety

set_option Elab.async false

/-! A device that runs: the timebase is locked in bell 9, 100 ticks after an edge, every supply is good, boot has ended, the
DRBG is seeded and session 1 is open. -/

def ses (r : Role) : Session :=
  { id := 1, role := r, path := .fnet 5, next := 1, dev := 1, transcript := 0, authFails := 0, kept := [], subs := [] }

def rq : Req := { path := .fnet 5, sess := 1, ctr := 1, sealOk := true, ct := [], tag := 7 }

def up (r : Role) : State :=
  let s := State.reset
  { s with
    bell := { s.bell with locked := true, firstEdge := false, edges := 10, number := 9, now := 100, slot := 2, slotBegun := true }
    boot := { s.boot with
      phase := .running, seeded := true, cores := Vector.replicate 4 { released := true, ready := true, lost := false, lostAt := none } }
    fnet := { s.fnet with sessions := [ses r] }
    store := { s.store with ready := true, sectors := [(0, 1)], openUsed := 16, sectorSeq := 1 }
    ssp := { s.ssp with flashReady := true }
    pins := { s.pins with vinIvr := true, vgran := true, vsd := true, vsdt := true, vfuse := true, corePowerGood := true } }

def op : State := up .operator

/-- Plot 3 belongs to Holding 1, which is in a state; its island is supplied. -/
def held (st : HState) (r : Role) : State :=
  modPlot 3 (fun x => { x with owner := 1, calibrated := true, regOn := true, voltMv := 800, target := 800 })
    (modHolding 1 (fun x => { x with st, rect := 0x03000101, vfMask := 1 }) (up r))

/-! 02. -/

def lost : State := { op with bell := { op.bell with locked := false, stopped := true } }
def binSoon : State := { op with bell := { op.bell with source := true, binLast := some 0 } }
def binDirect : State := { op with bell := { op.bell with source := true, pendSource := true } }
def binFar : State := { op with bell := { op.bell with source := true } }
def binNear : State := { op with bell := { op.bell with source := true, now := 1, slot := 0, aligned := 62 } }
def binLocks : State := { op with bell := { op.bell with source := true, now := 0, slot := 0, aligned := 63 } }
def binGone : State := { op with bell := { op.bell with source := true, binLast := some 0, now := 633, edgeAt := 600, slot := 0 } }
def mapDue : State := { op with slots := { op.slots with pend := [⟨0, 10, mapReset⟩, ⟨1, 11, mapReset⟩] } }

/-! 03: Plot 3 runs in Holding 1; cell 0 of its croft 511, in the corner, is the AND of its first two inputs. -/

def run3 : State := held .running .operator
def acc3 : State := modQuern 3 2 (fun x => { x with acc := BitVec.allOnes 104 }) run3
def cfg3 (a : Nat) (w : Word) (s : State) : State := modPlot 3 (fun x => { x with config := memSet x.config a (secWord w) }) s
def cell3 : State := cfg3 (32 * 511) 0x8888 run3
def edgeIn : CtlIn :=
  { extA := none, extB := none, extK := none, extCin := none, bits := [(96 * 511, true), (96 * 511 + 24, true)], extAck := false }
def pass5 : State := modPlot 5 (fun x => { x with regOn := true, calRunning := true, calTrim := 254 }) op

/-! 04: bank 3 with a wrong bit in word 8 and two in word 12; window and system work waits. -/

def bank3 (f : Bank → Bank) (s : State) : State := modBank 3 f s
def mem3 : State := bank3 (fun b => { b with
  cleared := true, mem := [(8, secWord 5 ^^^ 1), (12, secWord 7 ^^^ 3), (16, secWord 9)] }) run3
def fullQueue : State := bank3 (fun b => { b with wbq := (List.range 16).map fun k => (100 + k, 0) }) mem3
def report3 : State := modHolding 1 (fun x => { x with memUeReport := true }) mem3
def slot3 (j : Fin 16) (f : Bank → Bank) (s : State) : State :=
  { bank3 f s with bell := { s.bell with slot := j, slotBegun := true, now := 39 * j.val + 20 } }
def writesBack : State := slot3 15 (fun b => { b with slotUnits := 2, wbq := [(2, 0), (3, 0)] }) mem3
def scrubs : State := slot3 15 (fun b => { b with slotUnits := 1, scrubDue := 1 }) mem3
def loads : State := slot3 4 (fun b => { b with slotUnits := 1, sys := [⟨4, 77⟩] }) mem3
def winOp : WinOp := ⟨1, 0, false, 64, 8, []⟩
def served : State :=
  let s := modHolding 1 (fun x => { x with window := true }) (slot3 4 (fun b => { b with slotUnits := 1, win := [winOp] }) mem3)
  { s with
    slots := { s.slots with granary := s.slots.granary.set 3 (Vector.ofFn fun j => if j.val = 15 then 0xFE else 1) }
    host := { s.host with rate := 3, width := 4, vfEnable := true, numVfs := 32, winSeq := 1 } }
def fenced : State := slot3 14 (fun b => { b with scrubDue := 1, wbq := [(1, 0)] }) mem3
def fencedSys : State := slot3 3 (fun b => { b with sys := [⟨4, 77⟩, ⟨9, 78⟩] }) mem3
def bins3 : State := modPlot 3 (fun x => { x with bins := x.bins.set 1 ⟨1, 0, 0⟩ |>.set 2 ⟨2, 0, 1023⟩ }) run3
def binRow3 : State := modPlot 3 (fun x => { x with
  binMem := [(1023, secWord 5 ^^^ 2)], bins := x.bins.set 0 ⟨0, 0, 1023⟩ }) run3

/-! 05: queue 7 runs between two Plot ports of Holding 1, queue 8 from host DMA to a Reeve channel of the system. -/

def q7 (f : Queue → Queue) (s : State) : State :=
  modQueue 7 (fun x => f { x with
    bound := true, active := true, owner := 1, producer := 24, consumer := 25, depthLog2 := 6, pages := 1 }) s
def q8 (f : Queue → Queue) (s : State) : State :=
  modQueue 8 (fun x => f { x with
    bound := true, active := true, locked := false, producer := 0x3000, consumer := 0x5001, depthLog2 := 6, pages := 1 }) s
def item (first last bad : Bool) (d : Word) : Item := mkItem first last false bad d
def cell (it : Item) (cb : Nat) : QCell := ⟨it, cb, false, false⟩
def one : Item := item true true false 5
def mid : Item := item false false false 6
def badEnd : Item := item false true true 7
def q8Ready : State := q8 (fun x => { x with
  items := [cell one 3, cell one 4], vis := 2, buf := 1, consFree := 63, staging := [.item one], prodFree := 63 }) op
def q8Drops : State := q8 (fun x => { x with discarding := true }) op
def q7Runs : State := q7 (fun x => { x with
  items := [cell one 3, cell one 4], closeLen := some 1, lateRun := 15, staging := [.item one] }) run3
def q7Late : State := q7 (fun x => { x with items := [cell one 3], lateRun := 16 }) run3
def q7Full : State := q7 (fun x => { x with items := List.replicate 63 (cell one 3), openPk := [cell (item true false false 1) 9] }) run3
def q7Idles : State := q7 (fun x => { x with idleBells := 4, idleCnt := 4, idleFlush := true, items := [cell one 3] }) run3
def q9 : State := modQueue 9 (fun x => { x with producer := 0x3000, consumer := 0x5001 }) op
def fataled : State := { q8Ready with dev := { q8Ready.dev with fatal := true, faults := 1, code := 0x705, bell := 4 } }

/-! 06: Holding 1 in one state or another. -/

def h1 (f : Holding → Holding) (s : State) : State := modHolding 1 f s
def readyH : State := held .ready .operator
def quiet : State := held .quiesced .operator
def runT : State := held .running (.tenant 1)
def quietT : State := held .quiesced (.tenant 1)
def dozes : State := held .dozing .operator
def faulted : State := h1 (fun x => { x with cause := .lane }) (held .faulted .operator)
def emptyH : State := h1 (fun x => { x with vfMask := 0, rect := 0 }) (held .empty .operator)
def waits : State := h1 (fun x => { x with pend := [⟨.quiesce, 12, 11, none⟩] }) run3
def breach4 : State := modHedge 3 (fun x => { x with isOpen := false, sealHolds := false, atRest := false }) run3
def ramping : State := modPlot 3 (fun x => { x with ramping := true }) run3
def settling : State := modPlot 3 (fun x => { x with settling := true }) run3
def on5 : State := modPlot 5 (fun x => { x with regOn := true }) op
def clearing5 : State := modPlot 5 (fun x => { x with clearing := true }) (modBank 5 (fun b => { b with clearFail := true }) on5)
def act (k : TransKind) : Trans := ⟨k, 10, 9, none⟩
def maintUp : State := { up .maint with pins := { op.pins with maintLow := true } }
def onM : State := modPlot 5 (fun x => { x with regOn := true, unfit := true }) (modPlot 6 (fun x => { x with limit := true }) maintUp)
def quotas : State := modHolding 2 (fun x => { x with rect := 0x04000101, st := .ready, tallyQuota := 4096 })
  (h1 (fun x => { x with tallyQuota := 3584, itemsHeld := 128 }) readyH)

/-! 07: a cut of Holding 1, a snapshot and a restore of it. Queue 20 is SNAP.OUT_QUEUE, queue 21 SNAP.IN_QUEUE. -/

def attempt : State := h1 (fun x => { x with freeze := .attempt, freezeEdge := 10 }) run3
def timedOut : State := h1 (fun x => { x with freeze := .attempt, freezeEdge := 6, freezeRq := some rq }) (held .running (.tenant 1))
def service (q : Fin 256) (f : Queue → Queue) (s : State) : State :=
  modQueue q (fun x => f { x with bound := true, active := true, owner := 0, depthLog2 := 14 }) s
def snapQ (s : State) : State :=
  service 20 (fun x => { x with producer := 0x5007, consumer := 0x3000 })
    (service 21 (fun x => { x with producer := 0x3000, consumer := 0x5006 })
      { s with snap := { s.snap with outQueue := 20, inQueue := 21 } })
def cutH : State := h1 (fun x => { x with freeze := .cut }) quiet
def cutQ : State := snapQ cutH
def unseeded : State := { cutQ with boot := { cutQ.boot with seeded := false } }
def readyQ : State := snapQ readyH
def job0 : SnapJob :=
  { h := 1, rq := some rq, begun := true, queues := [], next := 0, id := 0, draw := 0, consistent := true, lastProgress := 0 }
def snapping : State := { cutQ with snap := { cutQ.snap with job := some job0 } }
def late (s : State) : State := { s with bell := { s.bell with edges := 65536 } }
def rjob : RestoreJob :=
  { h := 1, rq := some rq, begun := true, hdr := none, taken := 0, stream := [], losses := [], carried := [], lastProgress := 0 }
def two : List Item := [item true false false 1, item false true false 2]
def hdr0 : SnapHdr :=
  { magic := 0x5647534E, format := 1, family := 0x56, deviceCode := 0x4896, snapClass := 0x0B, consistent := true, move := false,
    w := 1, ht := 1, records := 2, digest := 0, snapId := 0, keyOk := true }
def restoresWith (j : RestoreJob) : State :=
  modQueue 21 (fun x => { x with items := two.map (cell · 3), vis := 2, buf := 2, consFree := 62 })
    { readyQ with snap := { readyQ.snap with restore := some j } }
def rhead : State := restoresWith rjob
def rrec : State := restoresWith { rjob with hdr := some hdr0 }
def rlate : State := late rhead
def slate : State := late snapping
def hdr2 : SnapHdr := { hdr0 with format := 2 }
def rjobHdr : RestoreJob := { rjob with hdr := some hdr0 }

/-! 08: the link is up; ring 8 carries queue 8 to the device, ring 10 queue 10 to the host. -/

def linked : State :=
  let s := modFn 0 (fun n => { n with busMaster := true, msixEnable := true, pba := 4, masked := 4 }) op
  { s with host := { s.host with rate := 3, width := 16 } }
def ring8 (f : Ring → Ring) (s : State) : State :=
  modRing 8 (fun r => f { r with fn := 0, h2d := true }) (q8 id s)
def r8Off : State := ring8 (fun r => { r with sizeLog2 := 6, abandoned := 3 }) linked
def r8On : State := ring8 (fun r => { r with st := .active, enable := true, tail := 4 }) linked
def r8Drains : State := ring8 (fun r => { r with st := .draining }) linked
def r8Err : State := ring8 (fun r => { r with st := .error, cause := 1 }) linked
def r8Due : State := ring8 (fun r => { r with due := true, vector := 3, holdoff := 2 }) linked
def tal (len sent asked : Nat) (code : Option Byte) : Tally :=
  { addr := 0x1000, len, irq := false, pack := false, sent, asked, whole := 0, code, lastSent := false }
def r8Reads : State := ring8 (fun r => { r with st := .active, tallies := [tal 64 0 0 none] }) linked
def r8Waits : State := ring8 (fun r => { r with st := .active, tallies := [tal 64 0 16 none] }) linked
def r8Last : State := ring8 (fun r => { r with st := .active, tallies := [tal 64 56 64 none] }) linked
def r8Done : State := ring8 (fun r => { r with st := .active, tallies := [tal 64 64 64 (some 0)] }) linked
def r8Asked : State := ring8 (fun r => { r with st := .active, asked := 2 }) linked
def r10 : State :=
  modRing 10 (fun r => { r with fn := 0, h2d := false, st := .active, tallies := [tal 64 0 0 none] })
    (modQueue 10 (fun x => { x with
      bound := true, active := true, locked := false, producer := 0x5002, consumer := 0x3000, pages := 1, items := [cell one 3, cell one 4], vis := 1, buf := 1, consFree := 63 }) linked)
def word8 : BitVec 64 := 0x000C000000000005
def vfUp : State :=
  { served with host := { served.host with ari := true } }
def mail (busy ready : Byte) : State := { linked with host := { linked.host with busy, respReady := ready, noticeLost := 2 } }

/-! 09: lane 4 of quad 1. -/

def ln (f : Lane → Lane) (s : State) : State :=
  modQuad 1 (fun x => { x with pllaM := 66, pllbM := 66, refOk := true, aLocked := true }) (modLane 4 f s)
def laneIdle : State := ln id op
def quadOff : State := modQuad 1 (fun x => { x with aLocked := false }) (ln (fun x => { x with enable := true }) op)
def laneTrains : State := ln (fun x => { x with enable := true, st := .training }) op
def laneLive : State := ln (fun x => { x with enable := true, st := .up, blockLocked := true, part := [⟨1, 5⟩] }) op
def laneRaw : State := ln (fun x => { x with enable := true, st := .up, b66 := false }) op
def laneFar : State := ln (fun x => { x with enable := true, st := .up, loopback := 3 }) op
def q11 (f : Queue → Queue) (s : State) : State :=
  modQueue 11 (fun x => f { x with
    bound := true, active := true, locked := false, producer := 0x1004, consumer := 0x5002, prodFree := 2048, pages := 1 }) s
def q12 (f : Queue → Queue) (s : State) : State :=
  modQueue 12 (fun x => f { x with bound := true, active := true, locked := false, producer := 0x5003, consumer := 0x2004, pages := 1 }) s
def four : List Item := [item true false false 1, item false false false 2, item false false false 3, item false true false 4]
def laneRx : State := q11 id laneLive
def laneTx : State := q12 (fun x => { x with items := four.map (cell · 3), vis := 4, buf := 4, consFree := 60 }) laneLive
def ones (n : Nat) : List Bool := List.replicate n true
def prbsNear : State :=
  ln (fun x => { x with enable := true, st := .up, prbsChk := 1, prbsReg := ones 7, prbsMatch := 63 }) op
def prbsFar : State := ln (fun x => { x with
  enable := true, st := .up, prbsChk := 1, prbsReg := ones 7, prbsLocked := true, prbsWindow := ones 31 ++ List.replicate 33 false }) op
def blk : Block := ⟨1, 0x123456789ABCDEF0⟩
def limva (st : LimvaSt) (f : Lane → Lane) : State :=
  q11 id (ln (fun x => f { x with enable := true, st := .up, limvaMode := true, limva := st, expect := 9, peer := 7 }) op)
def frm (kind : Nat) (seq : BitVec 12) (body : List (BitVec 64)) : Frame :=
  let h := frameHeader { Lane.reset with expect := 0 } seq (if kind = 0 then body.length else 0) kind
  mkFrame h body
def fData : Frame := frm 0 9 [0x8000000000001, 0x4000000000002]
def fAhead : Frame := frm 0 10 [0x8000000000001]
def fBehind : Frame := frm 0 8 [0x8000000000001]
def fBad : Frame := { fData with trailer := fData.trailer ^^^ 0x100 }
def fBell : Frame := frm 1 9 [0x12345]
def fInit : Frame := frm 2 0 [0x0100000000000007]
def fInitNew : Frame := frm 2 0 [0x0140000000000008]
def fResync : Frame := frm 3 9 [5]
def lActive : State := limva .active id
def lReplays : State := limva .active fun x => { x with replayCount := 8, replay := [(3, [0])] }
def lInit : State := limva .init fun x => { x with replay := [(3, [0])] }

/-! 10: unit 2 computes a CRC-32 over the packets of queue 13; unit 3 snoops. -/

def q13 (s : State) : State :=
  modQueue 13 (fun x => { x with
    bound := true, active := true, locked := false, producer := 0x5003, consumer := 0x4002, pages := 1,
    items := [cell one 3], vis := 1, buf := 1, consFree := 63 }) s
def unit (f : Cvu → Cvu) (s : State) : State := modCvu 2 (fun x => f { x with poly := 0, mode := 1, expect := 0xe10f3010 }) (q13 s)
def unitIdle : State := unit id op
def unitTaken : State :=
  modCvu 2 (fun x => { x with mode := 3, snoop := tapCode 1 8 })
    (modCvu 3 (fun x => { x with st := .running, mode := 3, snoop := tapCode 1 8 }) (q8 id op))
def unitRuns : State := unit (fun x => { x with st := .running }) op
def unitCvu : Cvu := { Cvu.reset with poly := 0, mode := 1, st := .running }
def cfgWordState : State := modPlot 3 (fun x => { x with config := [(5, secWord 9)] }) run3
def pkA : Item := item true false false 1
def pkZ : Item := item false true false 2

/-! 11: SSP1 as master, as CHAIN stage and as CMD slave; the boot flash at rest, at work and being programmed. -/

def sspS (f : Ssp → Ssp) (s : State) : State := { s with ssp := f s.ssp }
def sspMaster : State := sspS (fun x => { x with slave := false, xferCtrl := 12, xferTx := [0xA5, 0xF0] }) op
def sspSends : State := sspS (fun x => { x with xferBusy := true, xferRq := some rq }) sspMaster
def stage0 : State := sspS (fun x => { x with slave := true, chain := true, chainBits := 8, chainTx := [0x5A] }) op
def stage8 : State := sspS (fun x => { x with selected := true, stage := List.replicate 8 true }) stage0
def stage4 : State := sspS (fun x => { x with chainBits := 16 }) stage8
def slaveUp : State :=
  sspS (fun x => { x with slave := true, chain := false }) { op with pins := { op.pins with vreeve := true, vaux18 := true } }
def slaveBusy : State := sspS (fun x => { x with reqBusy := true, notices := [[1], [2]] }) slaveUp
def flashIdle : State := { op with store := { op.store with ready := false } }
def flashReads : State := sspS (fun x => { x with op := some (.read 32) }) op
def flashPrograms : State := sspS (fun x => { x with op := some (.program 0x1234500 [1, 2] .window) }) op

/-! 12: a follower and the coordUp of the segment; address detection; sessions that are public, full or subscribed. -/

def net (f : Fnet → Fnet) (s : State) : State := { s with fnet := f s.fnet }
def echo : Out := .echoReply 5 [1]
def follower : State := net (fun x => { x with nodeId := 3, enable := true, plcaOk := true, addrValid := true, txq := [echo], mac := 0x060000000007 }) op
def strayed : State := net (fun x => { x with plcaOk := false, addrValid := false, dadRunning := true }) follower
def coordUp : State := net (fun x => { x with nodeId := 0, enable := true, plcaOk := false, addrValid := true }) op
def known : State := net (fun x => { x with neighbours := [⟨7, [1]⟩, ⟨8, [2]⟩] }) follower
def body24 : List Byte := List.replicate 24 0
def helloBody : List Byte := List.replicate 113 1
def full64 : State := net (fun x => { x with sessions := List.replicate 64 (ses .pub) }) op
def notSeeded : State := { op with boot := { op.boot with seeded := false } }
def pubUp : State := up .pub
def credM : Cred :=
  { role := 1, holding := 0, serial := 0, epoch := State.reset.fnet.credEpoch }
def sub8 : Subn := { id := 8, ix := 0x2000, sub := 1, period := 1024, phase := 9, unsent := none, skipped := 0 }
def subscribed : State := net (fun x => { x with sessions := [{ ses .operator with subs := [sub8] }] })
  { op with bell := { op.bell with number := 1033 } }
def subSes : Session := { ses .operator with subs := [sub8] }

/-! 13: the Store open in sector 0, with or without a record being programmed, short of sectors, or with a write waiting. -/

def tenantUp : State := up (.tenant 1)
def portRec : StoreRec := ⟨0x5352, 0x6300, 3, 0x82, 1, [0x04, 0x00], 0, true⟩
def portW : StorePend := ⟨rq, portRec, .num 1024⟩
def pendS (w : StorePend) (s : State) : State :=
  { s with ssp := { s.ssp with op := some (.program (storeBase + 16) (recordBytes w.record) (.store w)) } }
def storing : State := pendS portW op
def storeOf (r : StoreRec) (v : Val) : StorePend := ⟨rq, r, v⟩
def retired8 : List Nat := (List.range 1024).drop 8
def sectorsLow : State :=
  { op with
    store := { op.store with
      sectors := [(0, 1), (1, 2)], openSector := 1, sectorSeq := 2,
      retired := retired8 } }
def maintS : State := { maintUp with bell := maintUp.bell }
def periodAttr : Attr := { sub := 1, ty := .u16, op := .rw, ten := .r, maint := .r, pub := .no, persistent := true }
def portAttr : Attr := { sub := 3, ty := .u16, op := .rw, ten := .no, maint := .r, pub := .r, persistent := true }
def polyAttr : Attr := { sub := 1, ty := .u8, op := .rw, ten := .rw, maint := .r, pub := .no, persistent := false }
def stored1 : StorePend := storeOf ⟨0x5352, 0x2000, 1, 0x82, 1, [0x04, 0x00], 0, true⟩ (.num 1024)
def stored2 : StorePend := storeOf ⟨0x5352, 0x6300, 2, 0x82, 1, [0x04, 0x00], 0, true⟩ (.num 1024)
def stored3 : StorePend := storeOf ⟨0x5352, 0x6300, 0x10, 0x82, 1, [0x04, 0x00], 0, true⟩ (.num 1024)

/-! 14: at reset, past the ROM, released; a slot write under way in the other slot; the DRBG seeded, tested or neither. -/

def bootS (f : Boot → Boot) (s : State) : State := { s with boot := f s.boot }
def cold : State :=
  { State.reset with pins := { State.reset.pins with vreeve := true, vaux18 := true } }
def gen0 : KeyGen := { State.reset.boot.gens[(0 : Fin 8)] with commit := true, checkOk := false }
def coldFuses : State := bootS (fun b => { b with gens := b.gens.set 0 gen0 }) cold
def goodSlot : SlotScan :=
  { wellFormed := true, sigOk := true, rollback := 3, s1Ok := true, sectionsOk := true, length := 4096, s1 := 1, s3 := [],
    fwVersion := 7, headerDigest := 2 }
def badSlot : SlotScan := { goodSlot with sigOk := false }
def romUp : State := bootS (fun b => { b with phase := .romPassed }) op
def dir3 : Dir := { activeB := false, trial := false, seq := 3, genA := 1, genB := 1, stA := .verified, stB := .writing }
def released : State := bootS (fun b => { b with phase := .released, dir0 := some dir3, dir1 := some { dir3 with seq := 2 } }) op
def core1Held : State := bootS (fun b => { b with
  cores := b.cores.set 1 { released := false, ready := false, lost := false, lostAt := none } }) released
def page (off : Nat) : List Item :=
  item true false false (BitVec.ofNat 48 off) :: (List.replicate 42 mid ++ [item false true false 8])
def pageQ (l : List Item) : State :=
  modQueue 30 (fun x => { x with
    bound := true, active := true, owner := 0, producer := 0x3000, consumer := reeveCode 5,
    items := l.map (cell · 3), vis := l.length, buf := l.length })
    (bootS (fun b => { b with
      dir0 := some dir3, dir1 := some { dir3 with seq := 2 }, writing := true, lastOffset := 256, written := 512 }) op)
def updates : State := bootS (fun b => { b with dir0 := some dir3, dir1 := none }) op
def rotates : State := updates
def alternating : List Bool := (List.range 1024).map fun k => k % 2 == 0
def stuck : List Bool := List.replicate 1024 true
def tested (s : State) : State := bootS (fun b => { b with startTest := true }) s
def waiting : State := bootS (fun b => { b with waiting := [.hello (.fnet 5) [1]] }) notSeeded
def coreLost (at_ : Option Nat) (l : Bool) : State := bootS (fun b => { b with
  cores := b.cores.set 2 { released := true, ready := true, lost := l, lostAt := at_ } }) op

/-! 15: Holding 1 is EMPTY and may be loaded from chunks; a load of it waits for a signature, a header, or bytes. -/

def loadable : State :=
  modPlot 3 (fun x => { x with owner := 1, calibrated := true, regOn := true })
    (h1 (fun x => { x with rect := 0x03000101, loadSource := 0xFFFE, vfMask := 1 }) op)
def load0 : Load := { newLoad op 1 rq with chunk := true, begun := true }
def loadingS (l : Load) (s : State) : State :=
  { modHolding 1 (fun x => { x with st := .loading, rect := 0x03000101 }) s with load := some l }
def atSig : State := loadingS { load0 with step := 1 } op
def atChunk : State := loadingS { load0 with avail := [9] } op
def atHeader : State := loadingS { load0 with taken := List.replicate 352 0 } op
def noBytes : State := loadingS load0 (late op)
def load1 : Load := { load0 with step := 1 }
def load9 : Load := { load0 with avail := [9] }
def loadHdr : Load := { load0 with taken := List.replicate 352 0 }

/-! 16: Plots 3 and 5 with words of configuration to scrub, a record in the intake, records in the Ledger, a hot Plot. -/

def scrub5 (w : BitVec 56) : State := modPlot 5 (fun x => { x with regOn := true, config := [(5, w)], scrubWord := 5 }) op
def rec1 : Rec := ⟨9, evConfigCe.sev, evConfigCe.code, 5, 0⟩
def intake1 : State := { op with ledger := { op.ledger with intake := [rec1] } }
def written1 : State := { op with ledger := { op.ledger with pages := [(3, ledgerSlot rec1 ^^^ 1)], pos := 4 } }
def trims (mv : BitVec 16) (t : Nat) : State :=
  modPlot 5 (fun x => { x with regOn := true, voltMv := mv, target := t, temp := 1512 }) op
def sensors0 : Sensors :=
  { plotTemp := Vector.replicate 64 300, quadTemp := Vector.replicate 12 400, package := 500,
    plotMv := Vector.replicate 64 0, plotMa := Vector.replicate 64 0, vinMa := 9 }

/-! 17: a shut-down accepted, a slice of the evening test in one of its units, and one that is over. -/

def testS (f : SelfTest → SelfTest) (s : State) : State := { s with test := f s.test }
def accepted : State := testS (fun t => { t with accepted := true, rq := some rq, enable := false }) op
def enabled : State := testS (fun t => { t with enable := true, sliceMs := 100 }) accepted
def slice0 : Slice :=
  { pos := 6, extra := [], budget := 100000, charged := 0, start := 0, ran := true, current := some 5, entries := [],
    passed := 0, failed := 0, skipped := 0, rotation := false, bell := 9, newRepairs := 0, done := false, abandon := false,
    kept := false, failedBanks := [], dirty := [], passes := [] }
def inUnit : State := testS (fun t => { t with slice := some slice0 }) enabled
def sliceOver : State := testS (fun t => { t with slice := some { slice0 with current := none, done := true } }) enabled
def repairs : State := testS (fun t => { t with pendingRepairs := [7] }) maintUp
def sliceEnd : Slice := { slice0 with current := none, done := true }

/-! 18: member 0 of a village of two, a muster due, begun, or complete; the device's own serial is in the manifest. -/

def man : List Byte :=
  beBytes 4 0x5647564D ++ [1, 2, 0, 0] ++ beBytes 4 1 ++ beBytes 4 0 ++ beBytes 6 Config.serial.toNat ++
    List.replicate 48 0 ++ beBytes 6 9 ++ List.replicate 48 0 ++ List.replicate 96 0
def villageS (f : Village → Village) (s : State) : State := modVillage f s
def master : State :=
  sspS (fun x => { x with slave := false, chain := true, chainBits := 256 })
    (villageS (fun v => { v with enable := true, manifest := man, inForce := man, st := .member, musterEdge := 6 }) op)
def mustering : State := villageS (fun v => { v with inMuster := true, own := 5, reg := 6, step := 3 }) master
def musterDone : State := villageS (fun v => { v with step := 16, words := List.replicate 15 7 ++ [5] }) mustering
def slewDone : State := villageS (fun v => { v with slewing := true, slewLeft := 0 }) op
def silent : State := villageS (fun v => { v with lastStep0 := 63488 }) (late master)

/-! 20: every supply good, one of them not, MAINT_N low. -/

def noFuse : State := { op with pins := { op.pins with vfuse := false, vreeve := true, vaux18 := true } }

/-! States and operands that meet the hypotheses of each statement, clause by clause. -/

theorem witness_EdgeBeginsTheNextBell :
    ticking State.reset = false ∧
    ticking op = true := by
  refine ⟨?_, ?_⟩ <;> decide +kernel

theorem witness_SlotsFollowTheirMaps :
    (noEdge op = false ∧ slotFollows op (3 : Fin 16) = true) ∧
    (noEdge op = false ∧ (5 : Fin 16).val ≠ ↑op.bell.slot + 1 ∧ (5 : Fin 16) ≠ (0 : Fin 16)) ∧
    (granted op rq (ses Role.operator) (0x2010 : BitVec 16) ((17 : Fin 18).val + 1) Access.w = true ∧
      mapReset.toList.length = 16 ∧ legalMap (mapOf mapReset.toList) = true ∧ noEdge op = false ∧ 16 ≤ toEdge op) ∧
    (granted op rq (ses Role.operator) (0x2010 : BitVec 16) ((17 : Fin 18).val + 1) Access.w = true ∧ (List.replicate 16
      (0 : Byte)).length = 16 ∧ legalMap (mapOf (List.replicate 16 (0 : Byte))) = false) := by
  refine ⟨?_, ?_, ?_, ?_⟩ <;> decide +kernel

theorem witness_TimebaseIsHeldAndAligned :
    (State.reset.bell.locked = false ∧ State.reset.bell.stopped = false) ∧
    ticking (held HState.running Role.operator) = true ∧
    (granted lost rq (ses Role.operator) (0x2000 : BitVec 16) 7 Access.x = true ∧ lost.bell.stopped = true ∧ (∀ (h : Fin
      32), h ≠ (0 : Fin 32) → lost.holdings[h].st ≠ HState.loading ∧ lost.holdings[h].st ≠ HState.running ∧
      lost.holdings[h].st ≠ HState.clearing)) ∧
    (binSoon.bell.source = true ∧ noEdge binSoon = false ∧ binSoon.bell.binLast = some 0 ∧ 2 * (binSoon.bell.now - 0) <
      binSoon.bell.period.toNat) ∧
    (binDirect.bell.source = true ∧ noEdge binDirect = false ∧ binDirect.bell.binLast = none ∧ binDirect.bell.pendSource
      = true) ∧
    (binFar.bell.source = true ∧ noEdge binFar = false ∧ binFar.bell.binLast = none ∧ binFar.bell.pendSource = false ∧
      (offNearest binFar < (-1 : ℤ) ∨ (1 : ℤ) < offNearest binFar)) ∧
    (binNear.bell.source = true ∧ noEdge binNear = false ∧ binNear.bell.binLast = none ∧ binNear.bell.pendSource = false
      ∧ (-1 : ℤ) ≤ offNearest binNear ∧ offNearest binNear ≤ (1 : ℤ) ∧ binNear.bell.aligned < 63) ∧
    (binLocks.bell.source = true ∧ noEdge binLocks = false ∧ binLocks.bell.binLast = none ∧ binLocks.bell.pendSource =
      false ∧ offNearest binLocks = (0 : ℤ) ∧ binLocks.bell.aligned = 63 ∧ binLocks.bell.binLocked = false ∧
      binLocks.bell.holdover = false) ∧
    (binGone.bell.source = true ∧ noEdge binGone = false ∧ binGone.bell.binLast = some 0 ∧ binGone.bell.holdover = false
      ∧ 0 + binGone.bell.period.toNat + 8 ≤ binGone.bell.now) := by
  refine ⟨?_, ?_, ?_, ?_, ?_, ?_, ?_, ?_, ?_⟩ <;> decide +kernel

theorem witness_ProductsAndAccumulatorAreExact :
    fabricRuns run3 (3 : Fin 64) = true := by decide +kernel

theorem witness_WrongProductBitIsSuppressed :
    fabricRuns run3 (3 : Fin 64) = true := by decide +kernel

theorem witness_WordOperationsAreExact :
    fabricRuns run3 (3 : Fin 64) = true := by decide +kernel

theorem witness_GfmulWorksOnFieldSymbols :
    fabricRuns run3 (3 : Fin 64) = true := by decide +kernel

theorem witness_CalibrationPassesRun :
    canCalibrate run3 (3 : Fin 64) = true ∧
    lineAtRest run3 (3 : Fin 64) 0 = true ∧
    (pass5.plots[(5 : Fin 64)].calRunning = true ∧ pass5.plots[(5 : Fin 64)].owner = (0 : Fin 32) ∧ 6 * min
      (BitVec.toNat (0x1388 : BitVec 16)) (BitVec.toNat (0x14B5 : BitVec 16)) < 100 * (max (BitVec.toNat (0x1388 :
      BitVec 16)) (BitVec.toNat (0x14B5 : BitVec 16)) - min (BitVec.toNat (0x1388 : BitVec 16)) (BitVec.toNat (0x14B5 :
      BitVec 16)))) := by
  refine ⟨?_, ?_, ?_⟩ <;> decide +kernel

theorem witness_ControllersWorkInTheirPlot :
    fabricRuns op (3 : Fin 64) = false ∧
    fabricRuns run3 (3 : Fin 64) = true ∧
    (fabricRuns cell3 (3 : Fin 64) = true ∧ gateStands cell3 cell3.plots[(3 : Fin 64)].owner = false ∧ edgeIn.extAck =
      false ∧ crWord cell3.plots[(3 : Fin 64)] (511 : Fin 512).val = false ∧ List.filter (dependsOn (truthTable
      cell3.plots[(3 : Fin 64)] (511 : Fin 512).val (0 : Fin 48).val)) (List.range 4) ≠ [] ∧ (∀ ch ∈ cell3.plots[(3 :
      Fin 64)].chans, ch.owner ≠ 64 * (511 : Fin 512).val + (0 : Fin 48).val) ∧ (∀ j ∈ List.filter (dependsOn
      (truthTable cell3.plots[(3 : Fin 64)] (511 : Fin 512).val (0 : Fin 48).val)) (List.range 4), inSrc cell3.plots[(3
      : Fin 64)] ((511 : Fin 512).val) ((0 : Fin 48).val) j = false ∧ croftAt ((511 : Fin 512).val) j 1 = none ∧
      List.find? (fun b => b.1 == 96 * (511 : Fin 512).val + 24 * j + (0 : Fin 48).val % 24) edgeIn.bits = some (96 *
      (511 : Fin 512).val + 24 * j + (0 : Fin 48).val % 24, true))) := by
  refine ⟨?_, ?_, ?_⟩ <;> decide +kernel

theorem witness_MemoriesReadBackAndAreCanonical :
    memWf ([(3, 1), (7, 5)] : Mem 8) = true ∧ ∀ k, memGet ([(3, 1), (7, 5)] : Mem 8) k = memGet [(3, 1), (7, 5)] k :=
  ⟨by decide, fun _ => rfl⟩

theorem witness_GranaryPortsWriteAndRead :
    (portOpen mem3 (3 : Fin 64) = true ∧ memWf mem3.banks[(3 : Fin 64)].mem = true) ∧
    (portOpen mem3 (3 : Fin 64) = true ∧ (secRead (bankWord mem3.banks[(3 : Fin 64)] (BitVec.toNat (16 : Word) % 2 ^
      18))).ce = false ∧ (secRead (bankWord mem3.banks[(3 : Fin 64)] (BitVec.toNat (16 : Word) % 2 ^ 18))).ue = false) ∧
    (portOpen mem3 (3 : Fin 64) = true ∧ (secRead (bankWord mem3.banks[(3 : Fin 64)] (BitVec.toNat (8 : Word) % 2 ^
      18))).ce = true ∧ (secRead (bankWord mem3.banks[(3 : Fin 64)] (BitVec.toNat (8 : Word) % 2 ^ 18))).ue = false) ∧
    (portOpen mem3 (3 : Fin 64) = true ∧ (secRead (bankWord mem3.banks[(3 : Fin 64)] (BitVec.toNat (12 : Word) % 2 ^
      18))).ue = true) := by
  refine ⟨?_, ?_, ?_, ?_⟩ <;> decide +kernel

theorem witness_BinsReadBackAndScrub :
    (fabricRuns bins3 (3 : Fin 64) = true ∧ memWf bins3.plots[(3 : Fin 64)].binMem = true) ∧
    (mem3.banks[(3 : Fin 64)].cleared = true ∧ mem3.pins.vgran = true ∧ gleanerRuns mem3 = true ∧ underTest mem3 (3 :
      Fin 64) = false ∧ mem3.banks[(3 : Fin 64)].nextDue ≤ mem3.bell.edges) ∧
    (binScrubbed bins3 (3 : Fin 64) = true ∧ bins3.plots[(3 : Fin 64)].bins[(0 : Fin 24)].shape = (0 : BitVec 2) ∧
      bins3.plots[(3 : Fin 64)].bins[(0 : Fin 24)].check = (0 : BitVec 2) ∧ (secRead (memGet bins3.plots[(3 : Fin
      64)].binMem (1024 * (0 : Fin 24).val + bins3.plots[(3 : Fin 64)].bins[(0 : Fin 24)].scrubRow))).ue = false) := by
  refine ⟨?_, ?_, ?_⟩ <;> decide +kernel

theorem witness_SystemUnitsFitTheirSlot :
    (noEdge fenced = false ∧ fenced.pins.vgran = true ∧ ↑fenced.bell.slot ≠ 15) ∧
    (writesBack.banks[(3 : Fin 64)].slotUnits ≠ 0 ∧ writesBack.pins.vgran = true ∧ ↑writesBack.bell.slot = 15 ∧
      writesBack.banks[(3 : Fin 64)].wbq = [(2, 0), (3, 0)]) ∧
    (loads.banks[(3 : Fin 64)].slotUnits ≠ 0 ∧ loads.pins.vgran = true ∧ ↑loads.bell.slot ≠ 15 ∧ loads.slots.granary[(3
      : Fin 64)][loads.bell.slot] = (0 : Byte) ∧ loads.banks[(3 : Fin 64)].sys = [(⟨4, (77 : Word)⟩ : SysOp)] ∧ (∀ (x :
      SysOp), [].head? = some x → x.addr / 4 ≠ (⟨4, (77 : Word)⟩ : SysOp).addr / 4)) ∧
    (served.banks[(3 : Fin 64)].slotUnits ≠ 0 ∧ served.pins.vgran = true ∧ ↑served.bell.slot ≠ 15 ∧
      served.slots.granary[(3 : Fin 64)][served.bell.slot] ≠ (0 : Byte) ∧ served.banks[(3 : Fin 64)].win = [winOp] ∧
      windowTurn served winOp = true ∧ windowServes served served.plots[(3 : Fin 64)].owner winOp.isWrite = true) ∧
    (scrubs.banks[(3 : Fin 64)].slotUnits ≠ 0 ∧ scrubs.pins.vgran = true ∧ ↑scrubs.bell.slot = 15 ∧ scrubs.banks[(3 :
      Fin 64)].wbq = [] ∧ scrubs.banks[(3 : Fin 64)].scrubDue ≠ 0) := by
  refine ⟨?_, ?_, ?_, ?_, ?_⟩ <;> decide +kernel

theorem witness_WindowRequestsAreServed :
    (windowArrives (1 : Fin 33) served = true ∧ 0 < 8 ∧ BitVec.toNat (64 : BitVec 27) % 32 + 8 ≤ 32 ∧ [(1 : Byte), (2 :
      Byte), (3 : Byte), (4 : Byte), (5 : Byte), (6 : Byte), (7 : Byte), (8 : Byte)].length = 8 ∧ rectBank
      served.holdings[vfHolding served (1 : Fin 33)].rect (BitVec.toNat (64 : BitVec 27) / 2 ^ 21) = some (3 : Fin 64) ∧
      windowServes served (vfHolding served (1 : Fin 33)) false = true) ∧
    (windowArrives (1 : Fin 33) served = true ∧ 0 < 8 ∧ BitVec.toNat (64 : BitVec 27) % 32 + 8 ≤ 32 ∧ [(1 : Byte), (2 :
      Byte), (3 : Byte), (4 : Byte), (5 : Byte), (6 : Byte), (7 : Byte), (8 : Byte)].length = 8 ∧ rectBank
      served.holdings[vfHolding served (1 : Fin 33)].rect (BitVec.toNat (64 : BitVec 27) / 2 ^ 21) = some (3 : Fin 64) ∧
      windowServes served (vfHolding served (1 : Fin 33)) true = true) ∧
    (windowArrives (1 : Fin 33) served = true ∧ 0 < 8 ∧ BitVec.toNat (0x200000 : BitVec 27) % 32 + 8 ≤ 32 ∧ [(1 : Byte),
      (2 : Byte), (3 : Byte), (4 : Byte), (5 : Byte), (6 : Byte), (7 : Byte), (8 : Byte)].length = 8 ∧ (rectBank
      served.holdings[vfHolding served (1 : Fin 33)].rect (BitVec.toNat (0x200000 : BitVec 27) / 2 ^ 21) = none ∨
      windowServes served (vfHolding served (1 : Fin 33)) false = false) ∧ false = false) ∧
    (windowArrives (1 : Fin 33) served = true ∧ 0 < 8 ∧ BitVec.toNat (0x200000 : BitVec 27) % 32 + 8 ≤ 32 ∧ [(1 : Byte),
      (2 : Byte), (3 : Byte), (4 : Byte), (5 : Byte), (6 : Byte), (7 : Byte), (8 : Byte)].length = 8 ∧ (rectBank
      served.holdings[vfHolding served (1 : Fin 33)].rect (BitVec.toNat (0x200000 : BitVec 27) / 2 ^ 21) = none ∨
      windowServes served (vfHolding served (1 : Fin 33)) true = false) ∧ true = true) ∧
    (bankWord served.banks[(3 : Fin 64)] 16 = secWord (9 : Word) ∧ memWf served.banks[(3 : Fin 64)].mem = true) := by
  refine ⟨?_, ?_, ?_, ?_, ?_⟩ <;> decide +kernel

theorem witness_ItemsPassThroughTheQueue :
    (carries q8Ready.queues[(8 : Fin 256)] = true ∧ endpoint q8Ready.queues[(8 : Fin 256)].producer = some
      (Endpoint.host (0 : Fin 33)) ∧ (∀ (p : Fin 64) (port : Fin 8), Endpoint.host (0 : Fin 33) = Endpoint.plotPort p
      port → fabricRuns q8Ready p = true) ∧ q8Ready.queues[(8 : Fin 256)].discarding = false ∧ q8Ready.queues[(8 : Fin
      256)].arrLosing = false ∧ q8Ready.queues[(8 : Fin 256)].prodFree ≠ 0) ∧
    (carries q8Drops.queues[(8 : Fin 256)] = true ∧ endpoint q8Drops.queues[(8 : Fin 256)].producer = some
      (Endpoint.host (0 : Fin 33)) ∧ (∀ (p : Fin 64) (port : Fin 8), Endpoint.host (0 : Fin 33) = Endpoint.plotPort p
      port → fabricRuns q8Drops p = true) ∧ q8Drops.queues[(8 : Fin 256)].discarding = true) ∧
    (2 ≤ 2 ∧ canRelease q8Ready (8 : Fin 256) 1 = true) ∧
    (offered q8Ready.queues[(8 : Fin 256)] = some one ∧ delivers q8Ready (8 : Fin 256) = true ∧ portAccepts q8Ready (8 :
      Fin 256) = true ∧ q8Ready.queues[(8 : Fin 256)].heldGap = 0) := by
  refine ⟨?_, ?_, ?_, ?_⟩ <;> decide +kernel

theorem witness_CommitUnitsKeepPacketsWhole :
    (canCommit q8Ready (8 : Fin 256) 1 = true ∧ q8Ready.queues[(8 : Fin 256)].staging = [Staged.item one] ∧ [].all
      isStagedItem = true ∧ q8Ready.queues[(8 : Fin 256)].losing = false ∧ roomFor q8Ready.queues[(8 : Fin 256)] = true
      ∧ (itLast one && itBad one) = false ∧ (∀ (u : Fin 32), tapSees q8Ready.cvus[u] (tapCode 1 (8 : Fin 256).val) =
      false) ∧ (∀ (c : Fin 48), endpoint q8Ready.queues[(8 : Fin 256)].producer ≠ some (Endpoint.laneRx c)) ∧ (∀ (p :
      Fin 64) (port : Fin 8), endpoint q8Ready.queues[(8 : Fin 256)].producer = some (Endpoint.plotPort p port) →
      q8Ready.plots[p].freezeRegs[port] = none) ∧ 2 ≤ toEdge q8Ready) ∧
    (q8Ready.queues[(8 : Fin 256)].losing = false ∧ (∀ (u : Fin 32), tapSees q8Ready.cvus[u] (tapCode 1 (8 : Fin
      256).val) = false) ∧ itLast badEnd = true ∧ itBad badEnd = true) ∧
    (q7Full.queues[(7 : Fin 256)].losing = false ∧ (∀ (u : Fin 32), tapSees q7Full.cvus[u] (tapCode 1 (7 : Fin 256).val)
      = false) ∧ itLast mid = false ∧ roomFor q7Full.queues[(7 : Fin 256)] = false ∧ q7Full.queues[(7 : Fin
      256)].heldGap = 0 ∧ (q7Full.queues[(7 : Fin 256)].items.any fun x => x.res) = false ∧ (∀ (c : QCell),
      q7Full.queues[(7 : Fin 256)].items.getLast? = some c → c.gap = false) ∧ restoring q7Full (7 : Fin 256) = false ∧
      q7Full.queues[(7 : Fin 256)].locked = true ∧ ownerRuns q7Full (7 : Fin 256) = true) := by
  refine ⟨?_, ?_, ?_⟩ <;> decide +kernel

theorem witness_ClosureDecidesReleases :
    (carries q7Runs.queues[(7 : Fin 256)] = true ∧ q7Runs.queues[(7 : Fin 256)].locked = true ∧ isDesign
      q7Runs.queues[(7 : Fin 256)].producer = true ∧ designRuns q7Runs (7 : Fin 256) = true ∧ noEdge q7Runs = false ∧ 2
      ≤ toEdge q7Runs) ∧
    (carries q7Runs.queues[(7 : Fin 256)] = true ∧ q7Runs.queues[(7 : Fin 256)].locked = true ∧ isDesign
      q7Runs.queues[(7 : Fin 256)].producer = true ∧ ownerRuns q7Runs (7 : Fin 256) = true ∧ gated q7Runs (7 : Fin 256)
      = false ∧ q7Runs.queues[(7 : Fin 256)].closeLen = some 1 ∧ q7Runs.queues[(7 : Fin 256)].lateRun.toNat < 16) ∧
    (carries q7Late.queues[(7 : Fin 256)] = true ∧ q7Late.queues[(7 : Fin 256)].locked = true ∧ isDesign
      q7Late.queues[(7 : Fin 256)].producer = true ∧ ownerRuns q7Late (7 : Fin 256) = true ∧ gated q7Late (7 : Fin 256)
      = false ∧ q7Late.queues[(7 : Fin 256)].closeLen = none ∧ q7Late.queues[(7 : Fin 256)].mark = false) ∧
    (16 ≤ q7Late.queues[(7 : Fin 256)].lateRun.toNat ∧ q7Late.queues[(7 : Fin 256)].runPosted = false) ∧
    (carries q7Idles.queues[(7 : Fin 256)] = true ∧ q7Idles.queues[(7 : Fin 256)].idleBells ≠ (0 : BitVec 16) ∧
      q7Idles.queues[(7 : Fin 256)].idle = false ∧ q7Idles.queues[(7 : Fin 256)].idleBells.toNat ≤ q7Idles.queues[(7 :
      Fin 256)].idleCnt) := by
  refine ⟨?_, ?_, ?_, ?_, ?_⟩ <;> decide +kernel

theorem witness_BindUnbindAndFlush :
    (noEdge q9 = false ∧ 16 ≤ toEdge q9 ∧ granted q9 rq (ses Role.operator) (qix (9 : Fin 256)) 9 Access.x = true ∧
      bindRefusal q9 (9 : Fin 256) (holdOf q9.queues[(9 : Fin 256)].owner) q9.queues[(9 : Fin 256)].depthLog2.toNat
      q9.queues[(9 : Fin 256)].producer q9.queues[(9 : Fin 256)].consumer = none ∧ q9.queues[(9 : Fin 256)].unbindEdge =
      none) ∧
    (noEdge q8Ready = false ∧ 16 ≤ toEdge q8Ready ∧ granted q8Ready rq (ses Role.operator) (qix (8 : Fin 256)) 10
      Access.x = true ∧ q8Ready.queues[(8 : Fin 256)].bound = true ∧ q8Ready.queues[(8 : Fin 256)].bindEdge = none ∧
      q8Ready.rings[(8 : Fin 256)].tallies = [] ∧ (queueOwner q8Ready (8 : Fin 256) = (0 : Fin 32) ∨ unbindable
      q8Ready.holdings[queueOwner q8Ready (8 : Fin 256)].st = true)) ∧
    (granted q8Ready rq (ses Role.operator) (qix (8 : Fin 256)) 11 Access.x = true ∧ q8Ready.queues[(8 : Fin 256)].bound
      = true ∧ (queueOwner q8Ready (8 : Fin 256) = (0 : Fin 32) ∨ jobHolds q8Ready (queueOwner q8Ready (8 : Fin 256)) =
      false) ∧ q8Ready.rings[(8 : Fin 256)].tallies = [] ∧ lossesHeld q8Ready.queues[(8 : Fin 256)] = 0 ∧ (∀ (u : Fin
      32), tapSees q8Ready.cvus[u] (tapCode 1 (8 : Fin 256).val) = false) ∧ 2 ≤ q8Ready.queues[(8 : Fin
      256)].depthLog2.toNat ∧ ownerRuns q8Ready (8 : Fin 256) = true ∧ q8Ready.queues[(8 : Fin 256)].locked = false) := by
  refine ⟨?_, ?_, ?_⟩ <;> decide +kernel

theorem witness_RingErrorsAndFatalFaults :
    q8Ready.queues[(8 : Fin 256)].staging = [] ++ [Staged.item one] ∧
    (FatalCause.commonsRoute ≠ FatalCause.timebaseLost ∧ q8Ready.dev.faults = 0) ∧
    (FatalCause.commonsRoute ≠ FatalCause.timebaseLost ∧ fataled.dev.faults ≠ 0) := by
  refine ⟨?_, ?_, ?_⟩ <;> decide +kernel

theorem witness_HoldingActionsTakeEffect :
    ((1 : Fin 32) ≠ (0 : Fin 32) ∧ (act TransKind.start).kind = TransKind.start ∧ readyH.holdings[(1 : Fin 32)].st =
      HState.ready) ∧
    ((1 : Fin 32) ≠ (0 : Fin 32) ∧ (act TransKind.forceStop).kind = TransKind.forceStop) ∧
    ((1 : Fin 32) ≠ (0 : Fin 32) ∧ (act TransKind.resume).kind = TransKind.resume ∧ quiet.holdings[(1 : Fin 32)].st =
      HState.quiesced) ∧
    ((1 : Fin 32) ≠ (0 : Fin 32) ∧ (act TransKind.quiesce).kind = TransKind.quiesce ∧ run3.holdings[(1 : Fin 32)].st =
      HState.running) := by
  refine ⟨?_, ?_, ?_, ?_⟩ <;> decide +kernel

theorem witness_HoldingActionsAnswer :
    (granted readyH rq (ses Role.operator) (hix (1 : Fin 32) 16) 5 Access.x = true ∧ (judged readyH (1 : Fin 32)).st =
      HState.ready ∧ (judged readyH (1 : Fin 32)).sn ≠ SnapState.restoring ∧ (judged readyH (1 : Fin 32)).sn ≠
      SnapState.restoreFailed ∧ readyH.dev.fatal = false ∧ readyH.test.accepted = false ∧ shareBusy readyH (1 : Fin 32)
      = false ∧ 1 ≤ vfCount readyH.holdings[(1 : Fin 32)] ∧ vfCount readyH.holdings[(1 : Fin 32)] ≤ 4 ∧
      readyH.bell.locked = true ∧ (∀ p ∈ ownedPlots readyH (1 : Fin 32), readyH.plots[p].calibrated = true) ∧ (∀ (i :
      Fin 112), breached readyH.hedges[i] = false)) ∧
    (granted run3 rq (ses Role.operator) (hix (1 : Fin 32) 16) 6 Access.x = true ∧ (judged run3 (1 : Fin 32)).st =
      HState.running) ∧
    (granted quiet rq (ses Role.operator) (hix (1 : Fin 32) 16) 7 Access.x = true ∧ (judged quiet (1 : Fin 32)).st =
      HState.quiesced ∧ (judged quiet (1 : Fin 32)).fr ≠ FreezeState.forced ∧ (judged quiet (1 : Fin 32)).sn ≠
      SnapState.moved ∧ quiet.dev.fatal = false ∧ quiet.test.accepted = false ∧ shareBusy quiet (1 : Fin 32) = false) ∧
    (granted quiet rq (ses Role.operator) (hix (1 : Fin 32) 96) 2 Access.x = true ∧ ((judged quiet (1 : Fin 32)).st =
      HState.running ∨ (judged quiet (1 : Fin 32)).st = HState.quiesced) ∧ (judged quiet (1 : Fin 32)).fr =
      FreezeState.none) ∧
    (granted quiet rq (ses Role.operator) (hix (1 : Fin 32) 96) 1 Access.x = true ∧ ((judged quiet (1 : Fin 32)).st =
      HState.running ∨ (judged quiet (1 : Fin 32)).st = HState.quiesced) ∧ (judged quiet (1 : Fin 32)).fr =
      FreezeState.none) ∧
    (quiet.holdings[(1 : Fin 32)].pend = [] ∧ granted quiet rq (ses Role.operator) (hix (1 : Fin 32) 16) 8 Access.x =
      true ∧ (quiet.holdings[(1 : Fin 32)].st = HState.running ∨ quiet.holdings[(1 : Fin 32)].st = HState.quiesced) ∧
      quiet.holdings[(1 : Fin 32)].freeze = FreezeState.none ∧ quiet.holdings[(1 : Fin 32)].snap ≠ SnapState.moved ∧
      quiet.holdings[(1 : Fin 32)].dozeRq = none) ∧
    (dozes.holdings[(1 : Fin 32)].pend = [] ∧ granted dozes rq (ses Role.operator) (hix (1 : Fin 32) 16) 9 Access.x =
      true ∧ dozes.holdings[(1 : Fin 32)].st = HState.dozing ∧ dozes.holdings[(1 : Fin 32)].waking = false ∧
      dozes.holdings[(1 : Fin 32)].dozing = false ∧ dozes.dev.fatal = false ∧ dozes.test.accepted = false) ∧
    (readyH.holdings[(1 : Fin 32)].pend = [] ∧ granted readyH rq (ses Role.operator) (hix (1 : Fin 32) 16) 11 Access.x =
      true ∧ (readyH.holdings[(1 : Fin 32)].st = HState.empty ∨ readyH.holdings[(1 : Fin 32)].st = HState.ready ∨
      readyH.holdings[(1 : Fin 32)].st = HState.quiesced ∨ readyH.holdings[(1 : Fin 32)].st = HState.dozing ∨
      readyH.holdings[(1 : Fin 32)].st = HState.faulted) ∧ (1 : Fin 32) ≠ (0 : Fin 32)) ∧
    (quiet.holdings[(1 : Fin 32)].pend = [] ∧ granted quiet rq (ses Role.operator) (hix (1 : Fin 32) 16) 10 Access.x =
      true ∧ (quiet.holdings[(1 : Fin 32)].st = HState.running ∨ quiet.holdings[(1 : Fin 32)].st = HState.quiesced ∨
      quiet.holdings[(1 : Fin 32)].st = HState.faulted ∧ resetCause quiet.holdings[(1 : Fin 32)].cause = true) ∧
      quiet.holdings[(1 : Fin 32)].snap ≠ SnapState.moved ∧ (1 : Fin 32) ≠ (0 : Fin 32)) := by
  refine ⟨?_, ?_, ?_, ?_, ?_, ?_, ?_, ?_, ?_⟩ <;> decide +kernel

theorem witness_HoldingResetRestsItsPlots :
    ((1 : Fin 32) ≠ (0 : Fin 32) ∧ acc3.plots[(3 : Fin 64)].owner = (1 : Fin 32)) ∧
    ((1 : Fin 32) ≠ (0 : Fin 32) ∧ acc3.plots[(4 : Fin 64)].owner ≠ (1 : Fin 32)) := by
  refine ⟨?_, ?_⟩ <;> decide +kernel

theorem witness_HoldingEntriesAreJudged :
    (granted emptyH rq (ses Role.operator) (hix (1 : Fin 32) 16) 1 Access.w = true ∧ rectValid (0x3000101 : BitVec 32) =
      true ∧ rectRefusal emptyH (1 : Fin 32) (0x3000101 : BitVec 32) = none) ∧
    (granted emptyH rq (ses Role.operator) (hix (1 : Fin 32) 32) (maskIx MaskKind.vf) Access.w = true ∧ maskFits
      MaskKind.vf (2 : BitVec 48) = true ∧ maskRefusal emptyH (1 : Fin 32) MaskKind.vf (BitVec.toNat (2 : BitVec 48)) =
      none) ∧
    (granted emptyH rq (ses Role.operator) (hix (1 : Fin 32) 32) 4 Access.w = true ∧ BitVec.toNat (0x1000 : BitVec 16) ≤
      4096 ∧ (emptyH.holdings[(1 : Fin 32)].rect = (0 : BitVec 32) ∨ tallySum emptyH (1 : Fin 32) (BitVec.toNat (0x1000
      : BitVec 16)) ≤ 7680)) ∧
    (granted emptyH rq (ses Role.operator) (hix (1 : Fin 32) 32) 5 Access.w = true ∧ BitVec.toNat (64 : BitVec 32) ≤
      524288 ∧ BitVec.toNat (64 : BitVec 32) % 64 = 0 ∧ emptyH.holdings[(1 : Fin 32)].itemsHeld.toNat ≤ BitVec.toNat (64
      : BitVec 32)) ∧
    (granted emptyH rq (ses Role.operator) (hix (1 : Fin 32) 80) 1 Access.w = true ∧ BitVec.toNat (805 : BitVec 16) % 5
      = 0 ∧ emptyH.holdings[(1 : Fin 32)].vmin.toNat ≤ BitVec.toNat (805 : BitVec 16) ∧ BitVec.toNat (805 : BitVec 16) ≤
      emptyH.holdings[(1 : Fin 32)].vmax.toNat ∧ emptyH.holdings[(1 : Fin 32)].st ≠ HState.clearing) ∧
    (granted emptyH rq (ses Role.operator) (hix (1 : Fin 32) 32) 4 Access.w = true ∧ 4096 < BitVec.toNat (0x1001 :
      BitVec 16)) ∧
    (granted quotas rq (ses Role.operator) (hix (1 : Fin 32) 32) 4 Access.w = true ∧ BitVec.toNat (0x1000 : BitVec 16) ≤
      4096 ∧ quotas.holdings[(1 : Fin 32)].rect ≠ (0 : BitVec 32) ∧ 7680 < tallySum quotas (1 : Fin 32) (BitVec.toNat
      (0x1000 : BitVec 16))) ∧
    (granted quotas rq (ses Role.operator) (hix (1 : Fin 32) 32) 5 Access.w = true ∧ BitVec.toNat (64 : BitVec 32) ≤
      524288 ∧ BitVec.toNat (64 : BitVec 32) % 64 = 0 ∧ BitVec.toNat (64 : BitVec 32) < quotas.holdings[(1 : Fin
      32)].itemsHeld.toNat) ∧
    (granted emptyH rq (ses Role.operator) (hix (1 : Fin 32) 80) 1 Access.w = true ∧ (BitVec.toNat (0x1000 : BitVec 16)
      % 5 ≠ 0 ∨ BitVec.toNat (0x1000 : BitVec 16) < emptyH.holdings[(1 : Fin 32)].vmin.toNat ∨ emptyH.holdings[(1 : Fin
      32)].vmax.toNat < BitVec.toNat (0x1000 : BitVec 16))) := by
  refine ⟨?_, ?_, ?_, ?_, ?_, ?_, ?_, ?_, ?_⟩ <;> decide +kernel

theorem witness_HedgesSealAndIslandsSettle :
    (gleanerRuns breach4 = true ∧ breached breach4.hedges[(4 : Fin 112)] = false) ∧
    (gleanerRuns breach4 = true ∧ breached breach4.hedges[(3 : Fin 112)] = true) ∧
    (on5.plots[(5 : Fin 64)].regOn = true ∧ on5.plots[(5 : Fin 64)].owner = (0 : Fin 32)) ∧
    (ramping.plots[(3 : Fin 64)].ramping = true ∧ ramping.holdings[ramping.plots[(3 : Fin 64)].owner].dozing = false) ∧
    (settling.plots[(3 : Fin 64)].settling = true ∧ settling.plots[(3 : Fin 64)].target ≤ BitVec.toNat (790 : BitVec 16)
      + 10 ∧ BitVec.toNat (790 : BitVec 16) ≤ settling.plots[(3 : Fin 64)].target + 10) := by
  refine ⟨?_, ?_, ?_, ?_, ?_⟩ <;> decide +kernel

theorem witness_PlotsAreClearedAndCalibrated :
    (clearing5.plots[(5 : Fin 64)].clearing = true ∧ clearing5.plots[(5 : Fin 64)].tripWait = false ∧
      clearing5.pins.vgran = true ∧ clearing5.plots[(5 : Fin 64)].clearRetry = false) ∧
    granted clearing5 rq (ses Role.operator) (0x1200 : BitVec 16) 1 Access.x = true ∧
    granted onM rq (ses Role.maint) (0x1200 : BitVec 16) 2 Access.x = true ∧
    granted clearing5 rq (ses Role.operator) (0x1300 : BitVec 16) 3 Access.x = true := by
  refine ⟨?_, ?_, ?_, ?_⟩ <;> decide +kernel

theorem witness_FreezeEndsInCutOrTimeout :
    (attempt.holdings[(1 : Fin 32)].freeze = FreezeState.attempt ∧ attempt.holdings[(1 : Fin 32)].cutEdge = none ∧
      holdingAtRest attempt (1 : Fin 32) = true ∧ noEdge attempt = false ∧ 16 ≤ toEdge attempt ∧ attempt.bell.edges + 1
      ≤ attempt.holdings[(1 : Fin 32)].freezeEdge + 4) ∧
    (timedOut.holdings[(1 : Fin 32)].freeze = FreezeState.attempt ∧ timedOut.holdings[(1 : Fin 32)].cutEdge = none ∧
      timedOut.holdings[(1 : Fin 32)].freezeEdge + 4 ≤ timedOut.bell.edges ∧ timedOut.holdings[(1 : Fin 32)].dozeRq =
      none ∧ timedOut.holdings[(1 : Fin 32)].freezeRq = some rq) := by
  refine ⟨?_, ?_⟩ <;> decide +kernel

theorem witness_SnapshotAndRestoreAreJudged :
    (granted cutQ rq (ses Role.operator) (hix (1 : Fin 32) 96) 4 Access.x = true ∧ snapshotRefusal cutQ (1 : Fin 32)
      true = none) ∧
    (granted readyQ rq (ses Role.operator) (hix (1 : Fin 32) 96) 6 Access.x = true ∧ restoreRefusal readyQ (1 : Fin 32)
      = none) ∧
    (granted readyQ rq (ses Role.operator) (hix (1 : Fin 32) 96) 4 Access.x = true ∧ (¬((judged readyQ (1 : Fin 32)).st
      = HState.quiesced ∧ ((judged readyQ (1 : Fin 32)).fr = FreezeState.cut ∨ (judged readyQ (1 : Fin 32)).fr =
      FreezeState.forced) ∧ (judged readyQ (1 : Fin 32)).sn ≠ SnapState.moved))) ∧
    (granted cutH rq (ses Role.operator) (hix (1 : Fin 32) 96) 4 Access.x = true ∧ ((judged cutH (1 : Fin 32)).st =
      HState.quiesced ∧ ((judged cutH (1 : Fin 32)).fr = FreezeState.cut ∨ (judged cutH (1 : Fin 32)).fr =
      FreezeState.forced) ∧ (judged cutH (1 : Fin 32)).sn ≠ SnapState.moved) ∧ cutH.dev.fatal = false ∧ serviceQueue
      cutH cutH.snap.outQueue (0x5007 : BitVec 16) false = false) := by
  refine ⟨?_, ?_, ?_, ?_⟩ <;> decide +kernel

theorem witness_SnapshotStreamsRunAndEnd :
    (snapping.snap.job = some job0 ∧ job0.begun = true ∧ job0.next = 0 ∧ serviceQueue snapping snapping.snap.outQueue
      (0x5007 : BitVec 16) false = true ∧ packetRoom snapping.queues[Fin.ofNat 256 snapping.snap.outQueue.toNat] 43 =
      true) ∧
    (slate.snap.job = some job0 ∧ job0.begun = true ∧ job0.lastProgress + 65536 ≤ slate.bell.edges) ∧
    (rlate.snap.restore = some rjob ∧ rjob.begun = true ∧ rjob.lastProgress + 65536 ≤ rlate.bell.edges) ∧
    (rlate.snap.restore = some rjob ∧ rjob.begun = true ∧ serviceQueue rlate rlate.snap.inQueue (0x5006 : BitVec 16)
      true = true ∧ frontPacket rlate.queues[Fin.ofNat 256 rlate.snap.inQueue.toNat] = some two ∧ 1 < two.length ∧
      rjob.hdr = none ∧ (hdr2.magic ≠ (0x5647534E : BitVec 32) ∨ hdr2.format ≠ (1 : Byte) ∨ hdr2.family ≠ (86 : Byte) ∨
      hdr2.deviceCode ≠ (0x4896 : BitVec 16))) ∧
    (rrec.snap.restore = some rjobHdr ∧ rjobHdr.begun = true ∧ serviceQueue rrec rrec.snap.inQueue (0x5006 : BitVec 16)
      true = true ∧ frontPacket rrec.queues[Fin.ofNat 256 rrec.snap.inQueue.toNat] = some two ∧ 1 < two.length ∧
      rjobHdr.hdr = some hdr0 ∧ rjobHdr.taken = 0) := by
  refine ⟨?_, ?_, ?_, ?_, ?_⟩ <;> decide +kernel

theorem witness_LinkEventsAndErrorsAct :
    (op.host.rate = (0 : Fin 6) ∧ (5 : Fin 6) ≠ (0 : Fin 6) ∧ (16 : Fin 17).val ∈ [1, 2, 4, 8, 16] ∧ op.pins.vsd = true
      ∧ op.pins.vsdt = true) ∧
    linked.host.rate ≠ (0 : Fin 6) := by
  refine ⟨?_, ?_⟩ <;> decide +kernel

theorem witness_RingsFollowTheirStateMachine :
    (ringOf r8Off (0 : Fin 33) (8 : Fin 256) = true ∧ BitVec.getLsbD (0x80080305 : BitVec 32) 31 = true ∧ r8Off.rings[(8
      : Fin 256)].st = RingSt.disabled) ∧
    (ringOf r8Drains (0 : Fin 33) (8 : Fin 256) = true ∧ BitVec.getLsbD (0x80080305 : BitVec 32) 31 = true ∧
      r8Drains.rings[(8 : Fin 256)].st = RingSt.draining) ∧
    (ringOf r8On (0 : Fin 33) (8 : Fin 256) = true ∧ BitVec.getLsbD (773 : BitVec 32) 31 = false ∧ r8On.rings[(8 : Fin
      256)].st = RingSt.active) ∧
    (ringOf r8Drains (0 : Fin 33) (8 : Fin 256) = true ∧ r8Drains.rings[(8 : Fin 256)].st = RingSt.draining ∧
      r8Drains.rings[(8 : Fin 256)].tallies = []) ∧
    (ringOf r8Off (0 : Fin 33) (8 : Fin 256) = true ∧ ((64 : BitVec 16) - r8Off.rings[(8 : Fin 256)].head).toNat ≤ 2 ^
      r8Off.rings[(8 : Fin 256)].sizeLog2.toNat) ∧
    (ringOf r8On (0 : Fin 33) (8 : Fin 256) = true ∧ r8On.rings[(8 : Fin 256)].st = RingSt.active ∧ 2 ^ r8On.rings[(8 :
      Fin 256)].sizeLog2.toNat < ((65 : BitVec 16) - r8On.rings[(8 : Fin 256)].head).toNat) ∧
    (ringOf r8Err (0 : Fin 33) (8 : Fin 256) = true ∧ r8Err.rings[(8 : Fin 256)].st = RingSt.error ∧ r8Err.rings[(8 :
      Fin 256)].tallies = []) := by
  refine ⟨?_, ?_, ?_, ?_, ?_, ?_, ?_⟩ <;> decide +kernel

theorem witness_RegistersAndMessagesAct :
    (hostReaches r8Off (0 : Fin 33) = true ∧ ringOf r8Off (0 : Fin 33) (8 : Fin 256) = true ∧ BitVec.getLsbD (0x80080305
      : BitVec 64) 31 = true) ∧
    (hostReaches r8Off (0 : Fin 33) = true ∧ ringOf r8Off (0 : Fin 33) (8 : Fin 256) = true ∧ BitVec.getLsbD (0x20002 :
      BitVec 64) 31 = false) ∧
    (hostReaches r8Off (0 : Fin 33) = true ∧ ringOf r8Off (0 : Fin 33) (8 : Fin 256) = true ∧ r8Off.rings[(8 : Fin
      256)].st = RingSt.disabled) ∧
    (hostReaches r8Off (0 : Fin 33) = true ∧ 3 < 4) ∧
    (hostReaches r8Off (0 : Fin 33) = true ∧ BitVec.toNat (0x20002 : BitVec 24) % 4 ≠ 0) ∧
    (hostReaches r8Off (0 : Fin 33) = true ∧ 196608 ≤ BitVec.toNat (0x30000 : BitVec 24) ∧ BitVec.toNat (0x30000 :
      BitVec 24) < 1048576) ∧
    (r8Due.rings[(8 : Fin 256)].due = true ∧ r8Due.rings[(8 : Fin 256)].hoCount = 0) ∧
    (hostReaches r8Off (0 : Fin 33) = true ∧ (2 : Fin 64).val < if (0 : Fin 33) = (0 : Fin 33) then 64 else 8) := by
  refine ⟨?_, ?_, ?_, ?_, ?_, ?_, ?_, ?_⟩ <;> decide +kernel

theorem witness_MailboxTakesAndFreesSlots :
    (hostReaches (mail (0 : Byte) (0 : Byte)) (0 : Fin 33) = true ∧ (0x800 : BitVec 16) ≠ (0 : BitVec 16) ∧ BitVec.toNat
      (0x800 : BitVec 16) ≤ 2048 ∧ (mail (0 : Byte) (0 : Byte)).host.busy.getLsbD (1 : Fin 8).val = false) ∧
    (hostReaches (mail (0 : Byte) (0 : Byte)) (0 : Fin 33) = true ∧ ((0 : BitVec 16) = (0 : BitVec 16) ∨ 2048 <
      BitVec.toNat (0 : BitVec 16))) ∧
    (hostReaches (mail (2 : Byte) (2 : Byte)) (0 : Fin 33) = true ∧ (0x800 : BitVec 16) ≠ (0 : BitVec 16) ∧ BitVec.toNat
      (0x800 : BitVec 16) ≤ 2048 ∧ (mail (2 : Byte) (2 : Byte)).host.busy.getLsbD (1 : Fin 8).val = true) ∧
    (hostReaches vfUp (0 : Fin 33) = true ∧ (1 : Fin 33) ≠ (0 : Fin 33) ∧ hostReaches vfUp (1 : Fin 33) = true) := by
  refine ⟨?_, ?_, ?_, ?_⟩ <;> decide +kernel

theorem witness_DmaUnitsMoveTheRing :
    (dmaSlot r8On (8 : Fin 256) = true ∧ ringTurn r8On (8 : Fin 256) = true ∧ unitReady r8On (8 : Fin 256)
      DmaKind.descRead = true) ∧
    (dmaSlot r8Reads (8 : Fin 256) = true ∧ ringTurn r8Reads (8 : Fin 256) = true ∧ unitReady r8Reads (8 : Fin 256)
      DmaKind.dataRead = true ∧ List.find? wantsData r8Reads.rings[(8 : Fin 256)].tallies = some (tal 64 0 0 none)) ∧
    (dmaSlot r10 (10 : Fin 256) = true ∧ ringTurn r10 (10 : Fin 256) = true ∧ unitReady r10 (10 : Fin 256)
      DmaKind.dataWrite = true ∧ List.find? openTally r10.rings[(10 : Fin 256)].tallies = some (tal 64 0 0 none) ∧ (tal
      64 0 0 none).pack = false ∧ r10.queues[(10 : Fin 256)].items = [cell one 3, cell one 4] ∧ sendable r10.queues[(10
      : Fin 256)] = 1 ∧ 16 ≤ unitBytes r10 ∧ (tal 64 0 0 none).sent + 16 ≤ (tal 64 0 0 none).len) ∧
    (dmaSlot r8Done (8 : Fin 256) = true ∧ ringTurn r8Done (8 : Fin 256) = true ∧ unitReady r8Done (8 : Fin 256)
      DmaKind.writeBack = true ∧ r8Done.rings[(8 : Fin 256)].tallies = [tal 64 64 64 (some (0 : Byte))] ∧ (tal 64 64 64
      (some (0 : Byte))).code = some (0 : Byte) ∧ (tal 64 64 64 (some (0 : Byte))).irq = false ∧ r8Done.rings[(8 : Fin
      256)].holder = (0 : Fin 32)) := by
  refine ⟨?_, ?_, ?_, ?_⟩ <;> decide +kernel

theorem witness_CompletionsReachTheirRing :
    (r8Asked.rings[(8 : Fin 256)].asked = (List.replicate 2 (List.replicate 32 (0 : Byte))).length ∧ List.replicate 2
      (List.replicate 32 (0 : Byte)) ≠ [] ∧ (∀ d ∈ List.replicate 2 (List.replicate 32 (0 : Byte)), d.length = 32)) ∧
    (r8Asked.rings[(8 : Fin 256)].asked ≠ 0 ∧ r8Asked.rings[(8 : Fin 256)].st = RingSt.active) ∧
    (r8Waits.rings[(8 : Fin 256)].tallies = [tal 64 0 16 none] ∧ waitsData (tal 64 0 16 none) = true ∧ (tal 64 0 16
      none).sent + 8 ≤ (tal 64 0 16 none).asked ∧ r8Waits.queues[(8 : Fin 256)].discarding = false ∧ r8Waits.queues[(8 :
      Fin 256)].arrLosing = false ∧ r8Waits.queues[(8 : Fin 256)].prodFree ≠ 0) ∧
    r8Waits.rings[(8 : Fin 256)].tallies.any waitsData = true := by
  refine ⟨?_, ?_, ?_, ?_⟩ <;> decide +kernel

theorem witness_ResetsKeepBellAndMemory :
    linked.host.rate ≠ (0 : Fin 6) ∧ vfOn linked (0 : Fin 33) = true := by decide +kernel

theorem witness_LanesFollowTheirStates :
    (granted laneIdle rq (ses Role.operator) (lix (4 : Fin 48)) 1 Access.w = true ∧ pllLocked laneIdle (4 : Fin 48) =
      true ∧ laneIdle.test.accepted = false ∧ laneIdle.lanes[(4 : Fin 48)].st = LaneSt.off) ∧
    (laneTrains.lanes[(4 : Fin 48)].st = LaneSt.training ∧ laneTrains.lanes[(4 : Fin 48)].limvaMode = false) ∧
    canLock laneIdle (1 : Fin 12) false = true ∧
    laneIdle.quads[(1 : Fin 12)].aLocked = true ∧
    (granted laneIdle rq (ses Role.operator) (lix (4 : Fin 48)) 8 Access.w = true ∧ BitVec.toNat (0 : Byte) ≤ 4 ∧
      BitVec.toNat (0 : Byte) < 3 ∧ laneIdle.lanes[(4 : Fin 48)].loopback.toNat < 3) ∧
    (granted laneLive rq (ses Role.operator) (lix (4 : Fin 48)) 8 Access.w = true ∧ BitVec.toNat (3 : Byte) ≤ 4 ∧ 3 ≤
      BitVec.toNat (3 : Byte) ∧ (3 : Byte) ≠ laneLive.lanes[(4 : Fin 48)].loopback ∧ laneLive.lanes[(4 : Fin 48)].st =
      LaneSt.up) ∧
    (granted laneRx rq (ses Role.operator) (lix (4 : Fin 48)) 3 Access.w = true ∧ laneBoundEnd laneRx (4 : Fin 48) =
      true ∧ BitVec.toNat (0 : Byte) ≤ 1) ∧
    (granted laneIdle rq (ses Role.operator) (lix (4 : Fin 48)) 3 Access.w = true ∧ laneBoundEnd laneIdle (4 : Fin 48) =
      false ∧ laneTapped laneIdle (4 : Fin 48) = false ∧ laneIdle.lanes[(4 : Fin 48)].st ≠ LaneSt.up) ∧
    (BitVec.toNat (0 : Byte) % 128 ≤ 5 ∧ granted laneIdle rq (ses Role.operator) (lix (4 : Fin 48)) 9 Access.w = true) ∧
    (BitVec.toNat (1 : Byte) % 128 ≤ 5 ∧ granted laneIdle rq (ses Role.operator) (lix (4 : Fin 48)) 10 Access.w = true ∧
      BitVec.toNat (1 : Byte) % 8 ≠ 0) ∧
    (prbsNear.lanes[(4 : Fin 48)].st ≠ LaneSt.off ∧ 1 ≤ prbsNear.lanes[(4 : Fin 48)].prbsChk.toNat ∧ prbsNear.lanes[(4 :
      Fin 48)].prbsChk.toNat ≤ 5 ∧ (prbsTaps prbsNear.lanes[(4 : Fin 48)].prbsChk.toNat).1 ≤ prbsNear.lanes[(4 : Fin
      48)].prbsReg.length ∧ prbsNear.lanes[(4 : Fin 48)].prbsLocked = false ∧ prbsNear.lanes[(4 : Fin 48)].prbsMatch =
      63) ∧
    (prbsFar.lanes[(4 : Fin 48)].st ≠ LaneSt.off ∧ 1 ≤ prbsFar.lanes[(4 : Fin 48)].prbsChk.toNat ∧ prbsFar.lanes[(4 :
      Fin 48)].prbsChk.toNat ≤ 5 ∧ (prbsTaps prbsFar.lanes[(4 : Fin 48)].prbsChk.toNat).1 ≤ prbsFar.lanes[(4 : Fin
      48)].prbsReg.length ∧ prbsFar.lanes[(4 : Fin 48)].prbsLocked = true ∧ (List.filter id (List.take 63
      prbsFar.lanes[(4 : Fin 48)].prbsWindow)).length = 31) := by
  refine ⟨?_, ?_, ?_, ?_, ?_, ?_, ?_, ?_, ?_, ?_, ?_, ?_⟩ <;> decide +kernel

theorem witness_LanesCodeAndMoveItems :
    (laneRx.lanes[(4 : Fin 48)].st = LaneSt.up ∧ laneRx.lanes[(4 : Fin 48)].loopback = (0 : BitVec 8) ∧ laneRx.lanes[(4
      : Fin 48)].polarity = (0 : BitVec 8) ∧ laneRx.lanes[(4 : Fin 48)].prbsChk = (0 : BitVec 8) ∧ laneRx.lanes[(4 : Fin
      48)].limvaMode = false ∧ laneRx.lanes[(4 : Fin 48)].b66 = true ∧ laneRx.lanes[(4 : Fin 48)].blockLocked = true ∧
      validSh blk.sh = true ∧ laneRx.lanes[(4 : Fin 48)].shWindow = []) ∧
    (laneRaw.lanes[(4 : Fin 48)].st = LaneSt.up ∧ laneRaw.lanes[(4 : Fin 48)].loopback = (0 : BitVec 8) ∧
      laneRaw.lanes[(4 : Fin 48)].polarity = (0 : BitVec 8) ∧ laneRaw.lanes[(4 : Fin 48)].prbsChk = (0 : BitVec 8) ∧
      laneRaw.lanes[(4 : Fin 48)].limvaMode = false ∧ laneRaw.lanes[(4 : Fin 48)].b66 = false) ∧
    (laneTx.lanes[(4 : Fin 48)].st = LaneSt.up ∧ laneTx.lanes[(4 : Fin 48)].loopback = (0 : BitVec 8) ∧ laneTx.lanes[(4
      : Fin 48)].polarity = (0 : BitVec 8) ∧ laneTx.lanes[(4 : Fin 48)].prbsGen = (0 : BitVec 8) ∧ laneTx.lanes[(4 : Fin
      48)].limvaMode = false ∧ laneTx.lanes[(4 : Fin 48)].b66 = true ∧ txQueue laneTx (4 : Fin 48) = some (12 : Fin 256)
      ∧ readyGroup laneTx.queues[(12 : Fin 256)] = some four) ∧
    (laneRx.lanes[(4 : Fin 48)].st = LaneSt.up ∧ laneRx.lanes[(4 : Fin 48)].loopback = (0 : BitVec 8) ∧ laneRx.lanes[(4
      : Fin 48)].polarity = (0 : BitVec 8) ∧ laneRx.lanes[(4 : Fin 48)].prbsGen = (0 : BitVec 8) ∧ laneRx.lanes[(4 : Fin
      48)].limvaMode = false ∧ txQueue laneRx (4 : Fin 48) = none ∧ laneRx.lanes[(4 : Fin 48)].b66 = true) ∧
    (laneRaw.lanes[(4 : Fin 48)].st = LaneSt.up ∧ laneRaw.lanes[(4 : Fin 48)].loopback = (0 : BitVec 8) ∧
      laneRaw.lanes[(4 : Fin 48)].polarity = (0 : BitVec 8) ∧ laneRaw.lanes[(4 : Fin 48)].prbsGen = (0 : BitVec 8) ∧
      laneRaw.lanes[(4 : Fin 48)].limvaMode = false ∧ txQueue laneRaw (4 : Fin 48) = none ∧ laneRaw.lanes[(4 : Fin
      48)].b66 = false) := by
  refine ⟨?_, ?_, ?_, ?_, ?_⟩ <;> decide +kernel

theorem witness_LimvaFramesAreJudged :
    (lActive.lanes[(4 : Fin 48)].limvaMode = true ∧ lActive.lanes[(4 : Fin 48)].st = LaneSt.up ∧ pinsReach
      lActive.lanes[(4 : Fin 48)] = true ∧ lActive.lanes[(4 : Fin 48)].limva = LimvaSt.active ∧ crcGood fBad = false) ∧
    (lActive.lanes[(4 : Fin 48)].limvaMode = true ∧ lActive.lanes[(4 : Fin 48)].st = LaneSt.up ∧ pinsReach
      lActive.lanes[(4 : Fin 48)] = true ∧ lActive.lanes[(4 : Fin 48)].limva = LimvaSt.active ∧ crcGood fData = true ∧
      formGood fData = true ∧ hdKind fData = 0 ∧ hdSeq fData = lActive.lanes[(4 : Fin 48)].expect ∧ hdCount fData ≠ 0) ∧
    (lActive.lanes[(4 : Fin 48)].limvaMode = true ∧ lActive.lanes[(4 : Fin 48)].st = LaneSt.up ∧ pinsReach
      lActive.lanes[(4 : Fin 48)] = true ∧ lActive.lanes[(4 : Fin 48)].limva = LimvaSt.active ∧ crcGood fAhead = true ∧
      formGood fAhead = true ∧ hdKind fAhead = 0 ∧ hdSeq fAhead ≠ lActive.lanes[(4 : Fin 48)].expect ∧ (hdSeq fAhead -
      lActive.lanes[(4 : Fin 48)].expect).toNat < 2048) ∧
    (lActive.lanes[(4 : Fin 48)].limvaMode = true ∧ lActive.lanes[(4 : Fin 48)].st = LaneSt.up ∧ pinsReach
      lActive.lanes[(4 : Fin 48)] = true ∧ lActive.lanes[(4 : Fin 48)].limva = LimvaSt.active ∧ crcGood fBehind = true ∧
      formGood fBehind = true ∧ hdKind fBehind = 0 ∧ 2048 ≤ (hdSeq fBehind - lActive.lanes[(4 : Fin 48)].expect).toNat) ∧
    (lActive.lanes[(4 : Fin 48)].limvaMode = true ∧ lActive.lanes[(4 : Fin 48)].st = LaneSt.up ∧ pinsReach
      lActive.lanes[(4 : Fin 48)] = true ∧ lActive.lanes[(4 : Fin 48)].limva = LimvaSt.active ∧ crcGood fBell = true ∧
      formGood fBell = true ∧ hdKind fBell = 1 ∧ hdSeq fBell = lActive.lanes[(4 : Fin 48)].expect) ∧
    (lActive.lanes[(4 : Fin 48)].limvaMode = true ∧ lActive.lanes[(4 : Fin 48)].st = LaneSt.up ∧ pinsReach
      lActive.lanes[(4 : Fin 48)] = true ∧ lActive.lanes[(4 : Fin 48)].limva = LimvaSt.active ∧ crcGood fResync = true ∧
      formGood fResync = true ∧ hdKind fResync = 3 ∧ queueFrom lActive (laneRxCode (4 : Fin 48)) = some (11 : Fin 256) ∧
      carries lActive.queues[(11 : Fin 256)] = true) ∧
    (lReplays.lanes[(4 : Fin 48)].limvaMode = true ∧ lReplays.lanes[(4 : Fin 48)].st = LaneSt.up ∧ pinsReach
      lReplays.lanes[(4 : Fin 48)] = true ∧ lReplays.lanes[(4 : Fin 48)].limva = LimvaSt.active ∧ 8 ≤ lReplays.lanes[(4
      : Fin 48)].replayCount) ∧
    (lInit.lanes[(4 : Fin 48)].limvaMode = true ∧ lInit.lanes[(4 : Fin 48)].st = LaneSt.up ∧ pinsReach lInit.lanes[(4 :
      Fin 48)] = true ∧ lInit.lanes[(4 : Fin 48)].limva = LimvaSt.init ∧ crcGood fInit = true ∧ formGood fInit = true ∧
      hdKind fInit = 2 ∧ BitVec.extractLsb' 56 8 (bodyWord fInit) = (1 : BitVec 8) ∧ (bodyWord fInit).getLsbD 54 =
      false) ∧
    (lInit.lanes[(4 : Fin 48)].limvaMode = true ∧ lInit.lanes[(4 : Fin 48)].st = LaneSt.up ∧ pinsReach lInit.lanes[(4 :
      Fin 48)] = true ∧ lInit.lanes[(4 : Fin 48)].limva = LimvaSt.init ∧ crcGood fInitNew = true ∧ formGood fInitNew =
      true ∧ hdKind fInitNew = 2 ∧ BitVec.extractLsb' 56 8 (bodyWord fInitNew) = (1 : BitVec 8) ∧ (bodyWord
      fInitNew).getLsbD 54 = true ∧ lInit.lanes[(4 : Fin 48)].peer ≠ BitVec.setWidth 64 (BitVec.extractLsb' 0 54
      (bodyWord fInitNew))) := by
  refine ⟨?_, ?_, ?_, ?_, ?_, ?_, ?_, ?_, ?_⟩ <;> decide +kernel

theorem witness_CheckUnitsStartWorkAndStop :
    (granted unitIdle rq (ses Role.operator) (cix (2 : Fin 32)) 10 Access.x = true ∧ cvuRefusal (executing rq (ses
      Role.operator) unitIdle) (2 : Fin 32) = none) ∧
    (granted unitTaken rq (ses Role.operator) (cix (2 : Fin 32)) 10 Access.x = true ∧ cvuRefusal (executing rq (ses
      Role.operator) unitTaken) (2 : Fin 32) = some stBusy) ∧
    (granted unitIdle rq (ses Role.operator) (cix (2 : Fin 32)) 11 Access.x = true ∧ unitIdle.cvus[(2 : Fin 32)].isOpen
      = false) ∧
    (unitRuns.cvus[(2 : Fin 32)].st = CvuSt.running ∧ cvuSnoops unitRuns.cvus[(2 : Fin 32)] = false ∧ unitOffer unitRuns
      (2 : Fin 32) = some ((13 : Fin 256), one) ∧ outputTakes unitRuns (2 : Fin 32) (cvuStep unitRuns.cvus[(2 : Fin 32)]
      one).2.length = true ∧ (cvuStep unitRuns.cvus[(2 : Fin 32)] one).1.bellMiss = unitRuns.cvus[(2 : Fin
      32)].bellMiss) ∧
    (unitRuns.cvus[(2 : Fin 32)].st = CvuSt.running ∧ unitRuns.cvus[(2 : Fin 32)].isOpen = false) := by
  refine ⟨?_, ?_, ?_, ?_, ?_⟩ <;> decide +kernel

theorem witness_CheckValueCoversThePacket :
    (unitCvu.boundary = 0 ∧ unitCvu.skip = 0 ∧ unitCvu.dropping = false ∧ unitCvu.mode = 1) ∧
    (pkA.getLsbD 51 = true ∧ itLast pkA = false ∧ pkZ.getLsbD 51 = false ∧ itLast pkZ = true) ∧
    ∀ i ∈ [mid], i.getLsbD 51 = false ∧ itLast i = false := by
  refine ⟨by decide +kernel, by decide +kernel, fun i h => ?_⟩
  rw [List.mem_singleton.1 h]
  decide +kernel

theorem witness_HsTransfersLandOrTimeOut :
    (islandGood cfgWordState.plots[(3 : Fin 64)] = true ∧ memWf cfgWordState.plots[(3 : Fin 64)].config = true) ∧
    islandGood op.plots[(3 : Fin 64)] = false := by
  refine ⟨?_, ?_⟩ <;> decide +kernel

theorem witness_SspTransfersAndChains :
    (granted sspMaster rq (ses Role.operator) (0x6200 : BitVec 16) 25 Access.x = true ∧ sspMaster.ssp.slave = false ∧
      sspMaster.ssp.xferBusy = false ∧ chainOwned sspMaster = false) ∧
    (sspSends.ssp.xferBusy = true ∧ sspSends.ssp.xferRq = some rq ∧ sspSends.ssp.chain = false) ∧
    (isChainSlave stage0 = true ∧ isStage stage0 = false ∧ stage0.ssp.selected = false) ∧
    (isChainSlave stage8 = true ∧ isStage stage8 = false ∧ stage8.ssp.selected = true ∧ stage8.ssp.stage.length =
      (List.replicate 8 true).length) := by
  refine ⟨?_, ?_, ?_, ?_⟩ <;> decide +kernel

theorem witness_CmdSlaveServesItsBlocks :
    (isCmdSlave slaveUp = true ∧ BitVec.toNat (0 : BitVec 7) < 4) ∧
    (isCmdSlave slaveUp = true ∧ [(1 : Byte), (2 : Byte)] ≠ [] ∧ BitVec.toNat (0 : BitVec 16) + [(1 : Byte), (2 :
      Byte)].length ≤ 2048) ∧
    (isCmdSlave slaveUp = true ∧ slaveUp.ssp.submitHi = none) ∧
    (isCmdSlave slaveUp = true ∧ (0x7FE : BitVec 16) ≠ (0 : BitVec 16) ∧ BitVec.toNat (0x7FE : BitVec 16) ≤ 2048 ∧
      slaveUp.ssp.reqBusy = false ∧ slaveUp.ssp.respReady = false ∧ bootHalted slaveUp = false) ∧
    (isCmdSlave slaveBusy = true ∧ (0x7FE : BitVec 16) ≠ (0 : BitVec 16) ∧ BitVec.toNat (0x7FE : BitVec 16) ≤ 2048 ∧
      (slaveBusy.ssp.reqBusy = true ∨ slaveBusy.ssp.respReady = true ∨ bootHalted slaveBusy = true)) ∧
    (isCmdSlave slaveUp = true ∧ ((0 : BitVec 16) = (0 : BitVec 16) ∨ 2048 < BitVec.toNat (0 : BitVec 16))) := by
  refine ⟨?_, ?_, ?_, ?_, ?_, ?_⟩ <;> decide +kernel

theorem witness_FlashOperationsRunInOrder :
    (flashIdle.ssp.op = none ∧ flashIdle.ssp.ops = [] ∧ flashIdle.ssp.writeBusy = false ∧ [(1 : Byte), (2 : Byte)] ≠ []
      ∧ flashProtected flashIdle (BitVec.toNat (0 : BitVec 26)) [(1 : Byte), (2 : Byte)].length = false) ∧
    (flashIdle.ssp.op = none ∧ flashIdle.ssp.ops = [] ∧ flashIdle.ssp.writeBusy = false ∧ (BitVec.toNat (0x1230123 :
      BitVec 26) % if true = true then 65536 else 4096) ≠ 0) ∧
    (flashIdle.ssp.op = none ∧ flashIdle.ssp.ops = [] ∧ flashIdle.ssp.writeBusy = false ∧ (BitVec.toNat (0 : BitVec 26)
      % if true = true then 65536 else 4096) = 0 ∧ flashProtected flashIdle (BitVec.toNat (0 : BitVec 26)) (if true =
      true then 65536 else 4096) = true) ∧
    (flashIdle.ssp.op = none ∧ flashIdle.ssp.ops = [] ∧ flashIdle.ssp.writeBusy = false ∧ (BitVec.toNat (0 : BitVec 26)
      % if false = true then 65536 else 4096) = 0 ∧ flashProtected flashIdle (BitVec.toNat (0 : BitVec 26)) (if false =
      true then 65536 else 4096) = false) ∧
    (flashReads.ssp.op = some (FlashOp.read 32) ∧ BitVec.getLsbD (1 : Byte) 0 = true) ∧
    (flashPrograms.ssp.op = some (FlashOp.program 19088640 [(1 : Byte), (2 : Byte)] FlashCont.window) ∧
      flashPrograms.ssp.ops = [] ∧ flashPrograms.store.waits = [] ∧ flashPrograms.ssp.writeBusy = false ∧ [(1 : Byte),
      (2 : Byte)].length ≤ 256 - 19088640 % 256 ∧ [(1 : Byte), (3 : Byte)].length = [(1 : Byte), (2 : Byte)].length ∧
      [(1 : Byte), (3 : Byte)] ≠ [(1 : Byte), (2 : Byte)]) := by
  refine ⟨?_, ?_, ?_, ?_, ?_, ?_⟩ <;> decide +kernel

theorem witness_PlcaGovernsTransmission :
    (fnetRuns follower = true ∧ follower.fnet.nodeId ≠ (0 : BitVec 8) ∧ follower.fnet.plcaOk = true) ∧
    (fnetRuns strayed = true ∧ strayed.fnet.nodeId ≠ (0 : BitVec 8) ∧ strayed.fnet.plcaOk = false) ∧
    (fnetRuns follower = true ∧ mayTransmit follower = true ∧ follower.fnet.burstCount = (0 : BitVec 8) ∧
      follower.fnet.txq = [echo] ∧ frameReady follower echo = true) ∧
    (fnetRuns coordUp = true ∧ coordUp.fnet.nodeId = (0 : BitVec 8) ∧ coordUp.fnet.enable = true) := by
  refine ⟨?_, ?_, ?_, ?_⟩ <;> decide +kernel

theorem witness_AddressesAndNeighboursAreKept :
    (follower.fnet.addrValid = true ∧ (8 : BitVec 64) ≠ ownIid follower) ∧
    (announces follower = true ∧ follower.boot.seeded = true) ∧
    (fnetRuns follower = true ∧ body24.length = 24 ∧ BitVec.getLsbD (body24[23]?.getD (0 : Byte)) 2 = false ∧
      follower.fnet.neighbours.length ≤ 64) ∧
    strayed.fnet.dadRunning = true := by
  refine ⟨?_, ?_, ?_, ?_⟩ <;> decide +kernel

theorem witness_HelloOpensAPublicSession :
    (serving full64 = true ∧ helloBody.length = 113 ∧ 64 ≤ full64.fnet.sessions.length) ∧
    (serving notSeeded = true ∧ helloBody.length = 113 ∧ notSeeded.fnet.sessions.length < 64 ∧ notSeeded.boot.seeded =
      false) ∧
    (serving op = true ∧ helloBody.length = 113 ∧ op.fnet.sessions.length < 64 ∧ op.boot.seeded = true) := by
  refine ⟨?_, ?_, ?_⟩ <;> decide +kernel

theorem witness_SessionsGainRolesAndClose :
    (accepts pubUp rq (ses Role.pub) = true ∧ (ses Role.pub).role = Role.pub ∧ pubUp.boot.revokePending = false ∧
      credRole credM = some Role.operator ∧ (credM.serial = (0 : BitVec 48) ∨ credM.serial = Config.serial) ∧
      credM.epoch = epochOf pubUp Role.operator) ∧
    (accepts pubUp rq (ses Role.pub) = true ∧ (ses Role.pub).role = Role.pub ∧ pubUp.boot.revokePending = false ∧ (ses
      Role.pub).authFails < 2 ∧ (true = false ∨ false = false ∨ credRole credM = none)) := by
  refine ⟨?_, ?_⟩ <;> decide +kernel

theorem witness_SubscriptionsReportWhenDue :
    (granted subscribed rq subSes (0x2000 : BitVec 16) (BitVec.toNat (1 : Byte)) Access.r = true ∧ subOk (0x2000 :
      BitVec 16) (BitVec.toNat (1 : Byte)) (BitVec.toNat (0x400 : BitVec 32)) (BitVec.toNat (0x3FF : BitVec 32)) = true
      ∧ subSes.subs.length < 16 ∧ subCount subscribed < 256) ∧
    (0 < 9 ∧ 0 + 9 < 2 ^ 48) ∧
    (accepts subscribed rq subSes = true ∧ (subSes.subs.any fun x => x.id == (8 : Byte)) = true) ∧
    (serving subscribed = true ∧ findSession subscribed (1 : BitVec 32) = some subSes ∧ List.find? (fun x => x.id ==
      sub8.id) subSes.subs = some sub8 ∧ BitVec.toNat subscribed.bell.number % sub8.period.toNat = sub8.phase.toNat ∧
      checkEntry subscribed subSes.role sub8.ix sub8.sub.toNat Access.r true true true = none ∧ onFnet subSes.path =
      true) := by
  refine ⟨?_, ?_, ?_, ?_⟩ <;> decide +kernel

theorem witness_ReadsAndWritesPassTheChecks :
    (accepts op rq (ses Role.operator) = true ∧ attrOf (0x2000 : BitVec 16) (BitVec.toNat (1 : Byte)) = some periodAttr
      ∧ isWhole periodAttr.ty = true ∧ permits op rq (ses Role.operator) (0x2000 : BitVec 16) (BitVec.toNat (1 : Byte))
      Access.r = true) ∧
    (accepts tenantUp rq (ses (Role.tenant (1 : Fin 32))) = true ∧ checkEntry (executing rq (ses (Role.tenant (1 : Fin
      32))) tenantUp) (ses (Role.tenant (1 : Fin 32))).role (0x2000 : BitVec 16) (BitVec.toNat (17 : Byte)) Access.r
      true true true = some stDenied) ∧
    (accepts op rq (ses Role.operator) = true ∧ attrOf (cix (2 : Fin 32)) (BitVec.toNat (1 : Byte)) = some polyAttr ∧
      permits op rq (ses Role.operator) (cix (2 : Fin 32)) (BitVec.toNat (1 : Byte)) Access.w = true ∧ writeLenOk (cix
      (2 : Fin 32)) (BitVec.toNat (1 : Byte)) 0 polyAttr (Val.num 3) = true ∧ writeValOk (executing rq (ses
      Role.operator) op) (cix (2 : Fin 32)) (BitVec.toNat (1 : Byte)) polyAttr (Val.num 3) = true ∧ ownRow (cix (2 : Fin
      32)) (BitVec.toNat (1 : Byte)) = false ∧ writeCond (executing rq (ses Role.operator) op) (cix (2 : Fin 32))
      (BitVec.toNat (1 : Byte)) (Val.num 3) = none ∧ polyAttr.persistent = false) ∧
    (accepts op rq (ses Role.operator) = true ∧ attrOf (0x2000 : BitVec 16) (BitVec.toNat (1 : Byte)) = some periodAttr
      ∧ permits op rq (ses Role.operator) (0x2000 : BitVec 16) (BitVec.toNat (1 : Byte)) Access.w = true ∧ BitVec.toNat
      (1 : Byte) ≠ tyCode periodAttr.ty) ∧
    (accepts op rq (ses Role.operator) = true ∧ permits op rq (ses Role.operator) (0x7030 : BitVec 16) 2 Access.r =
      true) := by
  refine ⟨?_, ?_, ?_, ?_, ?_⟩ <;> decide +kernel

theorem witness_PersistentWritesGoToTheStore :
    (granted op rq (ses Role.operator) (0x2000 : BitVec 16) 1 Access.w = true ∧ 250 ≤ BitVec.toNat (250 : BitVec 16) ∧
      BitVec.toNat (250 : BitVec 16) ≤ 10000 ∧ anyHolding op [HState.loading, HState.running, HState.quiesced,
      HState.dozing] = false ∧ op.village.st = VillageSt.none) ∧
    (granted op rq (ses Role.operator) (0x2000 : BitVec 16) 1 Access.w = true ∧ (BitVec.toNat (249 : BitVec 16) < 250 ∨
      10000 < BitVec.toNat (249 : BitVec 16))) ∧
    (granted op rq (ses Role.operator) (0x2000 : BitVec 16) 3 Access.w = true ∧ BitVec.toNat (1 : Byte) ≤ 1 ∧
      op.village.st = VillageSt.none) ∧
    granted op rq (ses Role.operator) (0x6300 : BitVec 16) 2 Access.w = true ∧
    (granted op rq (ses Role.operator) (0x6300 : BitVec 16) 3 Access.w = true ∧ 1024 ≤ BitVec.toNat (0x2710 : BitVec
      16)) ∧
    (granted op rq (ses Role.operator) (0x6300 : BitVec 16) (4 + (0 : Fin 5).val) Access.w = true ∧ ((1 : Byte) ≠ (0 :
      Byte) ∨ (0 : Fin 5) = (0 : Fin 5) ∨ (0 : Fin 5) = (3 : Fin 5))) ∧
    granted op rq (ses Role.operator) (0x6300 : BitVec 16) 16 Access.w = true ∧
    ((1 : Fin 32) ≠ (0 : Fin 32) ∧ granted op rq (ses Role.operator) (hix (1 : Fin 32) 128) 1 Access.w = true) ∧
    (granted op rq (ses Role.operator) (0x7C00 : BitVec 16) 2 Access.w = true ∧ [(1 : Byte)] ≠ [] ∧ [(1 : Byte)].length
      ≤ 1024) := by
  refine ⟨?_, ?_, ?_, ?_, ?_, ?_, ?_, ?_, ?_⟩ <;> decide +kernel

theorem witness_PersistStartsARecord :
    (areaOf (0x6300 : BitVec 16) = some Area.fnet ∧ attrOf (0x6300 : BitVec 16) 3 = some portAttr ∧ entryPending storing
      (0x6300 : BitVec 16) 3 = true) ∧
    (areaOf (0x6300 : BitVec 16) = some Area.fnet ∧ attrOf (0x6300 : BitVec 16) 3 = some portAttr ∧ entryPending op
      (0x6300 : BitVec 16) 3 = false ∧ valBytes portAttr.ty (entryVal op Role.operator Area.fnet 3) = valBytes
      portAttr.ty (Val.num State.reset.fnet.port.toNat)) ∧
    (areaOf (0x6300 : BitVec 16) = some Area.fnet ∧ attrOf (0x6300 : BitVec 16) 3 = some portAttr ∧ entryPending op
      (0x6300 : BitVec 16) 3 = false ∧ valBytes portAttr.ty (entryVal op Role.operator Area.fnet 3) ≠ valBytes
      portAttr.ty (Val.num 1024) ∧ op.ssp.flashReady = true ∧ op.store.failed = false ∧ op.store.sectors ≠ [] ∧
      op.store.openUsed + recSize (⟨(0x5352 : BitVec 16), (0x6300 : BitVec 16), BitVec.ofNat 8 3, typeByte opWrite
      (0x6300 : BitVec 16) 3, op.store.nextSeq, valBytes portAttr.ty (Val.num 1024), op.store.openSector, true⟩ :
      StoreRec) ≤ 4096 ∧ op.ssp.op = none ∧ op.ssp.ops = [] ∧ op.ssp.writeBusy = false) := by
  refine ⟨?_, ?_, ?_⟩ <;> decide +kernel

theorem witness_ProgrammedValuesTakeEffect :
    (portW.record.ix = (0x6300 : BitVec 16) ∧ portW.record.sub = (3 : BitVec 8)) ∧
    (stored1.record.ix = (0x2000 : BitVec 16) ∧ stored1.record.sub = (1 : BitVec 8) ∧ noEdge op = false ∧ 16 ≤ toEdge
      op) ∧
    (stored2.record.ix = (0x6300 : BitVec 16) ∧ stored2.record.sub = (2 : BitVec 8)) ∧
    (stored3.record.ix = (0x6300 : BitVec 16) ∧ stored3.record.sub = (16 : BitVec 8)) := by
  refine ⟨?_, ?_, ?_, ?_⟩ <;> decide +kernel

theorem free_none (s : State) (l : List Nat) (h : s.store.retired = l) : l.filter (sectorFree s) = [] := by
  rw [List.filter_eq_nil_iff]
  intro x hx hf
  simp [sectorFree, h, hx] at hf

theorem free_of_retired (s : State) (n : Nat) (h : s.store.retired = (List.range 1024).drop n) :
    freeSectors s = (((List.range 1024).take n).filter (sectorFree s)).length := by
  unfold freeSectors
  generalize List.range 1024 = l at *
  conv_lhs => rw [← List.take_append_drop n l]
  rw [List.filter_append, free_none s _ h, List.append_nil]

theorem low_free : freeSectors sectorsLow < 8 := by
  rw [free_of_retired sectorsLow 8 (by simp only [sectorsLow, retired8])]
  decide +kernel

theorem witness_StoreSpaceIsReclaimed :
    (freeSectors sectorsLow < 8 ∧ oldestSector sectorsLow = some (0 : Fin 1024).val ∧ sectorsLow.ssp.flashReady = true ∧
      sectorsLow.store.failed = false ∧ sectorsLow.store.waits = [] ∧
      (∀ r ∈ sectorsLow.store.recs, r.sector = (0 : Fin 1024).val → recLive sectorsLow r = false)) ∧
    (granted maintUp rq (ses .maint) 0x1100 6 .x = true ∧ maintUp.ssp.flashReady = true ∧
      storeProgramming maintUp = false) :=
  ⟨⟨low_free, by decide +kernel⟩, by decide +kernel⟩

theorem witness_BootGoesStepByStep :
    (coldFuses.boot.phase = BootPhase.atReset ∧ coldFuses.pins.vreeve = true ∧ coldFuses.pins.vaux18 = true ∧ fusesBad
      coldFuses = true) ∧
    (cold.boot.phase = BootPhase.atReset ∧ cold.pins.vreeve = true ∧ cold.pins.vaux18 = true ∧ fusesBad cold = false ∧
      readDir cold.ssp.flash 0 = none ∧ readDir cold.ssp.flash 4096 = none ∧ cold.boot.rejected = []) ∧
    romUp.boot.phase = BootPhase.romPassed ∧
    (released.boot.phase = BootPhase.released ∧ (∀ (c : Fin 4), released.boot.cores[c].ready = true) ∧
      released.store.ready = true ∧ released.boot.bootTrial = false ∧ released.boot.fallback = false ∧
      released.boot.dir0.isSome = true ∧ released.boot.dir1.isSome = true ∧ (curDir released).activeB =
      released.boot.bootedB ∧ released.boot.bootRollback.toNat ≤ rollbackRun released.boot.thermo) ∧
    (released.boot.phase = BootPhase.released ∧ (4 : BitVec 4) &&& (14 : BitVec 4) ≠ (0 : BitVec 4)) ∧
    (core1Held.boot.phase = BootPhase.released ∧ core1Held.boot.cores[(1 : Fin 4)].released = false ∧ lowerReleased
      core1Held (1 : Fin 4) = true) := by
  refine ⟨?_, ?_, ?_, ?_, ?_, ?_⟩ <;> decide +kernel

theorem witness_SlotsAndKeysAreRenewed :
    (slotQueue (pageQ (List.drop 1 (page 512))) = some (30 : Fin 256) ∧ serving (pageQ (List.drop 1 (page 512))) = true
      ∧ frontPacket (pageQ (List.drop 1 (page 512))).queues[(30 : Fin 256)] = some (List.drop 1 (page 512)) ∧ pagePacket
      (List.drop 1 (page 512)) = false) ∧
    (slotQueue (pageQ (page 256)) = some (30 : Fin 256) ∧ serving (pageQ (page 256)) = true ∧ frontPacket (pageQ (page
      256)).queues[(30 : Fin 256)] = some (page 256) ∧ pagePacket (page 256) = true ∧ packetOffset (page 256) ≠ 0 ∧
      ((pageQ (page 256)).boot.writing = false ∨ packetOffset (page 256) ≤ (pageQ (page 256)).boot.lastOffset)) ∧
    (slotQueue (pageQ (page 512)) = some (30 : Fin 256) ∧ serving (pageQ (page 512)) = true ∧ frontPacket (pageQ (page
      512)).queues[(30 : Fin 256)] = some (page 512) ∧ pagePacket (page 512) = true ∧ (pageQ (page 512)).boot.lastOffset
      < packetOffset (page 512) ∧ (pageQ (page 512)).boot.writing = true ∧ (stOf (curDir (pageQ (page 512))) !(pageQ
      (page 512)).boot.bootedB) = SlotSt.writing) ∧
    (granted updates rq (ses Role.operator) (0x7000 : BitVec 16) 7 Access.x = true ∧ slotWriterBusy updates = false ∧
      updates.ssp.writeBusy = false ∧ (curDir updates).seq ≠ BitVec.allOnes 32 ∧ (stOf (curDir updates)
      !updates.boot.bootedB) ≠ SlotSt.empty ∧ updateCheck updates goodSlot = none) ∧
    (granted updates rq (ses Role.operator) (0x7000 : BitVec 16) 7 Access.x = true ∧ slotWriterBusy updates = false ∧
      updates.ssp.writeBusy = false ∧ (curDir updates).seq ≠ BitVec.allOnes 32 ∧ (stOf (curDir updates)
      !updates.boot.bootedB) ≠ SlotSt.empty ∧ updateCheck updates badSlot = some stSignature ∧ stSignature ≠
      stTruncated) ∧
    (granted maintUp rq (ses Role.maint) (0x7020 : BitVec 16) 4 Access.x = true ∧ rotateRefusal true (executing rq (ses
      Role.maint) maintUp) = none) := by
  refine ⟨?_, ?_, ?_, ?_, ?_, ?_⟩ <;> decide +kernel

theorem witness_EntropyAndCoresAreWatched :
    (entropyRuns notSeeded = true ∧ notSeeded.boot.seeded = false ∧ samplesPass alternating = true ∧
      notSeeded.boot.startTest = false) ∧
    (entropyRuns (tested notSeeded) = true ∧ (tested notSeeded).boot.seeded = false ∧ samplesPass alternating = true ∧
      (tested notSeeded).boot.startTest = true ∧ (tested notSeeded).boot.waiting = []) ∧
    (entropyRuns op = true ∧ op.boot.seeded = true ∧ samplesPass alternating = true) ∧
    (entropyRuns op = true ∧ samplesPass stuck = false ∧ op.boot.seeded = true) ∧
    (granted op rq (ses Role.operator) (0x7040 : BitVec 16) 1 Access.x = true ∧ op.boot.seeded = true) ∧
    (granted notSeeded rq (ses Role.operator) (0x7040 : BitVec 16) 1 Access.x = true ∧ notSeeded.boot.seeded = false) ∧
    waiting.boot.waiting = [WaitOp.hello (Path.fnet (5 : BitVec 64)) [(1 : Byte)]] ∧
    (op.boot.cores[(2 : Fin 4)].released = true ∧ op.boot.cores[(2 : Fin 4)].lost = false ∧ op.boot.cores[(2 : Fin
      4)].lostAt = none) ∧
    ((coreLost (some 50) false).boot.cores[(2 : Fin 4)].released = true ∧ (coreLost (some 50) false).boot.cores[(2 : Fin
      4)].lost = false ∧ (coreLost (some 50) false).boot.cores[(2 : Fin 4)].lostAt = some 50 ∧ (coreLost (some 50)
      false).bell.now < 50 + 12500000000) ∧
    (coreLost (some 50) true).boot.cores[(2 : Fin 4)].lost = true := by
  refine ⟨?_, ?_, ?_, ?_, ?_, ?_, ?_, ?_, ?_, ?_⟩ <;> decide +kernel

theorem witness_LoadsRunTheirSteps :
    (granted loadable rq (ses Role.operator) (hix (1 : Fin 32) 160) 1 Access.x = true ∧ loadRefusal (executing rq (ses
      Role.operator) loadable) (1 : Fin 32) = none) ∧
    (granted atSig rq (ses Role.operator) (hix (1 : Fin 32) 160) 1 Access.x = true ∧ loadRefusal (executing rq (ses
      Role.operator) atSig) (1 : Fin 32) = some stBusy) ∧
    (atSig.load = some load1 ∧ load1.begun = true ∧ load1.step = 1 ∧ atSig.boot.revokePending = false) ∧
    (granted atSig rq (ses Role.operator) (hix (1 : Fin 32) 160) 3 Access.w = true ∧ atSig.load = some load1 ∧
      load1.chunk = true ∧ load1.h = (1 : Fin 32) ∧ [(1 : Byte), (2 : Byte)] ≠ [] ∧ [(1 : Byte), (2 : Byte)].length ≤
      1024) ∧
    (atChunk.load = some load9 ∧ load9.chunk = true ∧ load9.begun = true ∧ load9.step = 0 ∧ load9.taken.length +
      load9.avail.length < 352 ∧ load9.avail ≠ [] ∧ load9.ended = false ∧ load9.chunks = []) ∧
    (atHeader.load = some loadHdr ∧ loadHdr.chunk = true ∧ loadHdr.begun = true ∧ loadHdr.step = 0 ∧
      loadHdr.taken.length = 352 ∧ headerOk atHeader loadHdr = false) ∧
    (noBytes.load = some load0 ∧ load0.begun = true ∧ load0.step < 8 ∧ loaderWaits noBytes load0 = false ∧
      load0.lastProgress + 65536 ≤ noBytes.bell.edges) := by
  refine ⟨?_, ?_, ?_, ?_, ?_, ?_, ?_⟩ <;> decide +kernel

theorem witness_BackgroundWorkIsDone :
    (configScrubbed (scrub5 (secWord (9 : Word))) (5 : Fin 64) = true ∧ (secRead (memGet (scrub5 (secWord (9 :
      Word))).plots[(5 : Fin 64)].config (cfgPlace (scrub5 (secWord (9 : Word))).plots[(5 : Fin 64)].scrubWord))).ce =
      false ∧ (secRead (memGet (scrub5 (secWord (9 : Word))).plots[(5 : Fin 64)].config (cfgPlace (scrub5 (secWord (9 :
      Word))).plots[(5 : Fin 64)].scrubWord))).ue = false) ∧
    (configScrubbed (scrub5 (secWord (9 : Word) ^^^ (1 : BitVec 56))) (5 : Fin 64) = true ∧ (secRead (memGet (scrub5
      (secWord (9 : Word) ^^^ (1 : BitVec 56))).plots[(5 : Fin 64)].config (cfgPlace (scrub5 (secWord (9 : Word) ^^^ (1
      : BitVec 56))).plots[(5 : Fin 64)].scrubWord))).ce = true) ∧
    (configScrubbed (scrub5 (secWord (9 : Word) ^^^ (3 : BitVec 56))) (5 : Fin 64) = true ∧ (secRead (memGet (scrub5
      (secWord (9 : Word) ^^^ (3 : BitVec 56))).plots[(5 : Fin 64)].config (cfgPlace (scrub5 (secWord (9 : Word) ^^^ (3
      : BitVec 56))).plots[(5 : Fin 64)].scrubWord))).ce = false ∧ (secRead (memGet (scrub5 (secWord (9 : Word) ^^^ (3 :
      BitVec 56))).plots[(5 : Fin 64)].config (cfgPlace (scrub5 (secWord (9 : Word) ^^^ (3 : BitVec 56))).plots[(5 : Fin
      64)].scrubWord))).ue = true) ∧
    (intake1.ledger.intake = [rec1] ∧ intake1.ledger.lostRecs = 0 ∧ intake1.ledger.lostPages.contains
      (intake1.ledger.pos / 256) = false) ∧
    (gleanerRuns (scrub5 (secWord (9 : Word))) = true ∧ memWf (scrub5 (secWord (9 : Word))).ledger.pages = true ∧ (∀ e ∈
      (scrub5 (secWord (9 : Word))).ledger.pages, slotUe e.2 = false)) ∧
    granted maintUp rq (ses Role.maint) (0x7800 : BitVec 16) 6 Access.x = true ∧
    ((scrub5 (secWord (9 : Word))).plots[(5 : Fin 64)].regOn = true ∧ (scrub5 (secWord (9 : Word))).plots[(5 : Fin
      64)].ramping = false ∧ (scrub5 (secWord (9 : Word))).plots[(5 : Fin 64)].owner = (0 : Fin 32) ∧ gleanerRuns
      (scrub5 (secWord (9 : Word))) = true) ∧
    ((trims (800 : BitVec 16) 803).plots[(5 : Fin 64)].regOn = true ∧ 1512 ≤ (trims (800 : BitVec 16) 803).plots[(5 :
      Fin 64)].temp.toNat ∧ (trims (800 : BitVec 16) 803).plots[(5 : Fin 64)].owner = (0 : Fin 32)) := by
  refine ⟨?_, ?_, ?_, ?_, ?_, ?_, ?_, ?_⟩ <;> decide +kernel

theorem witness_ShutDownTestsAndRepairs :
    (granted op rq (ses Role.operator) (0x7900 : BitVec 16) 3 Access.x = true ∧ shutdownRefusal op = none) ∧
    (inUnit.test.slice = some slice0 ∧ slice0.current = some 5 ∧ slice0.abandon = false ∧ slice0.kept = false) ∧
    (sliceOver.test.slice = some sliceEnd ∧ sliceEnd.done = true ∧ (∀ (p : Fin 64), sliceOver.plots[p].clearing = false)
      ∧ sliceOver.test.rq = some rq) ∧
    (granted repairs rq (ses Role.maint) (0x7900 : BitVec 16) 7 Access.x = true ∧ fuseRefusal repairs = none) ∧
    (accepted.test.accepted = true ∧ accepted.test.shut = false ∧ accepted.test.slice = none ∧ allKept accepted = true ∧
      accepted.test.enable = false ∧ accepted.test.rq = some rq) ∧
    (enabled.test.accepted = true ∧ enabled.test.shut = false ∧ enabled.test.slice = none ∧ allKept enabled = true ∧
      enabled.test.enable = true) := by
  refine ⟨?_, ?_, ?_, ?_, ?_, ?_⟩ <;> decide +kernel

theorem man_member : memberOf man = some 0 := by
  have hs : manifestSerials man = [ofBe (beBytes 6 Config.serial.toNat), 9] := rfl
  have hn : man ≠ [] := fun h => absurd (congrArg List.isEmpty h) (by decide)
  have hb : ofBe (beBytes 6 Config.serial.toNat) = Config.serial.toNat := by
    rw [ofBe_beBytes]; exact Nat.mod_eq_of_lt Config.serial.isLt
  simp [memberOf, hn, hs, hb, List.findIdx?_cons]

theorem man_stage (s : State) (hm : s.village.manifest = man) (hc : chainOwned s = true) : isStage s = true := by
  simp [isStage, hm, hc, man_member]

theorem man_owned (s : State) (hm : s.village.manifest = man) (hc : s.ssp.chain = true) (hb : s.ssp.chainBits = 256) :
    chainOwned s = true := by
  have hn : man ≠ [] := fun h => absurd (congrArg List.isEmpty h) (by decide)
  simp [chainOwned, hm, hc, hb, hn]

theorem witness_MustersRunTheirSteps :
    granted op rq (ses .operator) 0x7C00 8 .x = true ∧
    (isStage master = true ∧ master.ssp.slave = false ∧ master.village.inMuster = false ∧ master.village.musterEdge ≠ 0
      ∧ master.bell.edges = master.village.musterEdge + 4) ∧
    (isStage mustering = true ∧ mustering.ssp.slave = false ∧ mustering.village.inMuster = true ∧
      mustering.village.step < 16) ∧
    (musterDone.village.inMuster = true ∧ musterDone.village.step = 16) ∧
    (slewDone.village.slewing = true ∧ slewDone.village.slewLeft = 0) ∧
    (inVillage silent = true ∧ silent.village.lastStep0 + 2048 ≤ silent.bell.edges) := by
  have h : isStage master = true ∧ isStage mustering = true :=
    ⟨man_stage _ rfl (man_owned _ rfl rfl rfl), man_stage _ rfl (man_owned _ rfl rfl rfl)⟩
  refine ⟨by decide +kernel, ⟨h.1, by decide +kernel⟩, ⟨h.2, by decide +kernel⟩, ?_, ?_, ?_⟩ <;> decide +kernel

theorem witness_SlotMapsStayLegal : slotsLegal op = true ∧ ∃ t, step op = .next t := ⟨by decide +kernel, _, rfl⟩

theorem witness_SuppliesAndResetPinsAct :
    (isGood noFuse.pins Supply.vfuse = false ∧ suppliesForPlots noFuse = true) ∧
    (isGood op.pins Supply.vreeve = true ∧ (Supply.vreeve = Supply.vreeve ∨ Supply.vreeve = Supply.vaux18)) ∧
    (isGood op.pins Supply.vgran = true ∧ (Supply.vgran = Supply.vsd ∨ Supply.vgran = Supply.vsdt ∨ Supply.vgran =
      Supply.vgran ∨ Supply.vgran = Supply.vinIvr)) ∧
    (isGood op.pins Supply.vgran = true ∧ Supply.vgran = Supply.vgran) ∧
    (isGood op.pins Supply.vfuse = true ∧ (Supply.vfuse = Supply.vfuse ∨ ∃ b, Supply.vfuse = Supply.vccio b)) ∧
    (op.pins.vsd = true ∧ op.pins.vsdt = true ∧ op.pins.vgran = true ∧ op.pins.vinIvr = true) ∧
    499 < 500 ∧
    500 ≤ 500 := by
  refine ⟨?_, ?_, ?_, ?_, ?_, ?_, ?_, ?_⟩ <;> decide +kernel

/-! Values worked out in the spec's own tables and examples. -/

def digits : List Byte := [0x31, 0x32, 0x33, 0x34, 0x35, 0x36, 0x37, 0x38, 0x39]
def ashcombe : Holding := { op.holdings[(12 : Fin 32)] with rect := 0x04000204, laneMask := 0x100000, vfMask := 0x800, st := .running }
def stripper : Cvu := { cvuStarted { Cvu.reset with poly := 1, mode := 6, width := 1 } with st := .running }
def message (l : List Nat) : List Item := l.map (BitVec.ofNat 52)
def stripped (l : List Item) : Cvu × List Item :=
  l.foldl (fun a it => ((cvuStep a.1 it).1, a.2 ++ (cvuStep a.1 it).2)) (stripper, [])
def gen5 : State := { op with host := { op.host with rate := 5, width := 16, mps := 512 } }

theorem test_crc_table_10_5 :
    crc crcP0 digits = 0xCBF43926 ∧ crc crcP1 digits = 0xE3069283 ∧ crc crcP2 digits = 0x6C40DF5F0B497347 ∧
      crc crcP3 digits = 0x29B1 := by decide +kernel

theorem test_slot_starts_02 : slotStart 625 4 = 156 ∧ slotStart 625 8 = 312 ∧ slotStart 625 15 = 585 := by decide +kernel

theorem test_host_dma_map_02 :
    legalMap (mapOf [5, 5, 5, 5, 0xC, 0xC, 0xC, 0xC, 0, 0xFF, 0xFF, 0xFF, 0xFF, 0xFF, 0xFF, 0xFE]) = true := by decide +kernel

theorem test_budget_load_03 :
    budgetLoadOf 4801 1440 625 = 881 ∧ budgetLoadOf 4801 2073 625 = 1268 ∧ budgetLoadOf 4801 1438 625 = 879 := by
  decide +kernel

theorem test_gf_product_03 : gfmulZ 0x009 0x003 0x201 = 0x20A := by decide +kernel

theorem test_check_byte_04 : secWord 1 = 0x07000000000001 := by decide +kernel

theorem test_window_bank_04 : rectBank 0x02040202 (0x600918 / 0x200000) = some 43 := by decide +kernel

theorem test_markers_05_19 :
    marker 1 24 = 0xE010000000018 ∧ marker 1 152 = 0xE010000000098 ∧ marker 3 0x329FE = 0xE0300000329FE := by decide +kernel

theorem test_rectangle_06 : rectPlots 0x04000204 = [4, 5, 12, 13, 20, 21, 28, 29] := by decide +kernel

theorem test_internal_hedges_06 :
    ((List.finRange 112).filter fun e => inRect 0x04000204 (hedgePlots e).1 && inRect 0x04000204 (hedgePlots e).2) =
      [4, 11, 18, 25, 60, 61, 68, 69, 76, 77] := by decide +kernel

theorem test_snapshot_length_07 : totalLength (6902784 + 9750) = 6914518 := by decide +kernel

theorem test_dma_unit_08 : unitTicks gen5 = 11 ∧ unitBytes gen5 = 512 := by decide +kernel

theorem test_group_tags_09 :
    (groupItems [⟨2, 0x1122334455667778⟩, ⟨1, 0x99AABBCCDDEEFF00⟩, ⟨1, 0x0123456789ABCDEF⟩]) =
      [0xA334455667778, 0x0DDEEFF001122, 0x0CDEF99AABBCC, 0x40123456789AB] := by decide +kernel

theorem test_strip_10 :
    (stripped (message [0x8000000333231, 0x363534, 0x393837, 0x40000E3069283])).2 =
        [0x8000000333231, 0x363534, 0x4000000393837] ∧
      (stripped (message [0x8000000333231, 0x363534, 0x393937, 0x40000E3069283])).2 =
        [0x8000000333231, 0x363534, 0x5000000393937] := by decide +kernel

theorem test_strip_counts_10 :
    (stripped (message [0x8000000333231, 0x363534, 0x393837, 0x40000E3069283])).1.packets = 1 ∧
      (stripped (message [0x8000000333231, 0x363534, 0x393937, 0x40000E3069283])).1.mismatches = 1 ∧
      (stripped (message [0xC0000E3069283])).1.runts = 1 := by decide +kernel

theorem test_first_due_bell_12 : firstDue 1193046 2048 0 = 1193984 := by decide +kernel

theorem test_requests_13 :
    checkEntry op (.tenant 12) 0x4530 3 .r true true true = some stDenied ∧
      checkEntry op (.tenant 12) 0x4C10 0x20 .r true true true = some stNoEntry ∧
      checkEntry op .operator 0x4010 2 .r true true true = some stNoEntry := by decide +kernel

theorem test_voltage_13 : voltageOk ashcombe 703 = false ∧ voltageOk ashcombe 700 = true := by decide +kernel

theorem test_store_record_13 :
    (recordBytes ⟨0x5352, 0x6300, 3, 2, 0x1A2F, [0xC7, 0x69], 0, true⟩).take 16 =
      [0x53, 0x52, 0x63, 0x00, 0x03, 0x02, 0x00, 0x02, 0x00, 0x00, 0x1A, 0x2F, 0xC7, 0x69, 0x00, 0x00] := by decide +kernel

theorem test_declared_codes_15 :
    relEndpoint ashcombe 0x10000000 = some 0x1014 ∧ relEndpoint ashcombe 0x132 = some 0x00EA ∧
      relEndpoint ashcombe 0x30000000 = some 0x300C ∧ relEndpoint ashcombe 1 = some 0x0021 := by decide +kernel

theorem test_ledger_record_16 :
    recBits ⟨0x00200A10, evCadenceOver.sev, evCadenceOver.code, budgetData 12 .overBudget 1268, 12⟩ =
      0x00200A1042020C00000204F4 := by decide +kernel

theorem test_repair_17 :
    repairsFor 34 2 [(0x4A16, 17)] = [0x8A00004A] ∧ cellCol (0x4A16, 17) = 293 ∧ datTop 34 0x4A16 = 0x220000004A16 := by
  decide +kernel

theorem test_idcode_20 : exec .idcode op = .next (emit (.tdo (wordBits 32 0x14896A3D))
    { op with pins := { op.pins with tap := { op.pins.tap with ir := 0x01 } } }) := rfl

/-! An ill-formed term for each check of WellFormed. -/

theorem ill_slot_boundary : (Instr.slotBoundary 15 65).wf = false := by decide
theorem ill_commit_unit : (Instr.commitUnit 0 0).wf = false ∧ (Instr.commitUnit 0 17).wf = false := by decide
theorem ill_release_unit : (Instr.releaseUnit 0 0 []).wf = false ∧ (Instr.releaseUnit 0 1 [0, 0]).wf = false := by decide
theorem ill_bypass : (Instr.bypass 0x01).wf = false := by decide
theorem ill_window_read : (Instr.windowRead 0 0 4).wf = false ∧ (Instr.windowRead 1 0 0).wf = false ∧
    (Instr.windowRead 1 0x7FFFFFF 2).wf = false := by decide
theorem ill_window_write : (Instr.windowWrite 0 0 [1]).wf = false ∧ (Instr.windowWrite 1 0 []).wf = false := by decide
theorem ill_bar_register_write : (Instr.barRegisterWrite 1 0x4000 2 0).wf = false ∧
    (Instr.barRegisterWrite 1 0x4002 4 0).wf = false := by decide
theorem ill_descriptor_read : (Instr.descriptorReadCompletion 8 true [[1]]).wf = false ∧
    (Instr.descriptorReadCompletion 8 false [List.replicate 32 0]).wf = false := by decide
theorem ill_ssp1_cmd_read : (Instr.ssp1CmdRead 0 0 0).wf = false := by decide
theorem ill_ssp1_cmd_write : (Instr.ssp1CmdWrite 1 0 [] false).wf = false := by decide
theorem ill_mbx_lost_read : (Instr.mbxLostRead 0).wf = false := by decide
theorem ill_ssp_transfer_end : (Instr.sspTransferEnd true (List.replicate 4097 0)).wf = false := by decide +kernel
theorem ill_slot_writer_packet : (Instr.slotWriterPacket []).wf = false := by decide
theorem ill_manifest_write : (Instr.villageManifestWrite rq (List.replicate 4097 0) true).wf = false := by decide +kernel
theorem ill_porst_n_low : (Instr.porstNLow 0).wf = false := by decide
theorem ok_commit_unit : (Instr.commitUnit 0 16).wf = true := by decide

end Sys2Proof.Tests
end

namespace Sys2Proof.Machine

/-! Updates of a vector, seen through a map of its elements. -/

/-- An update that leaves g of each element as it is leaves the vector of them. -/
theorem map_upd_keeps {α β : Type} {n : Nat} (g : α → β) (v : Vector α n) (i : Fin n) (f : α → α)
    (h : ∀ x, g (f x) = g x) : (upd v i f).map g = v.map g := by
  apply Vector.ext
  intro k hk
  simp only [Vector.getElem_map, upd, Vector.getElem_set]
  split
  next hik => subst hik; exact h _
  next => rfl

/-! Loops: what every step of a loop keeps, the loop keeps. -/

/-- A relation that is reflexive and transitive holds of a loop over a list when it holds of each of its steps. -/
theorem eachOf_rel {α : Type} (R : State → State → Prop) (refl : ∀ s, R s s)
    (trans : ∀ s t u, R s t → R t u → R s u) (l : List α) (f : α → State → State) (s : State)
    (h : ∀ i t, R t (f i t)) : R s (eachOf l f s) := by
  unfold eachOf
  induction l generalizing s with
  | nil => exact refl s
  | cons a l ih => exact trans _ _ _ (h a s) (ih (f a s))

theorem eachFin_rel (R : State → State → Prop) (refl : ∀ s, R s s)
    (trans : ∀ s t u, R s t → R t u → R s u) (n : Nat) (f : Fin n → State → State) (s : State)
    (h : ∀ i t, R t (f i t)) : R s (eachFin n f s) := eachOf_rel R refl trans (List.finRange n) f s h

/-! What queue traffic, records and posts leave as it was. -/

/-- What PCI Express keeps of a function outside its message and mailbox registers. -/
def Fn.power (n : Fn) : Bool × Bool := (n.busMaster, n.d3hot)

/-- From s to t no more happens than queue traffic, Ledger records and posts: memory, rings, the host interface, the field
network, the bindings of the queues and the power states of the functions stay. -/
@[simp] abbrev OnlyTraffic (s t : State) : Prop :=
  t.banks = s.banks ∧ t.plots = s.plots ∧ t.rings = s.rings ∧ t.host = s.host ∧ t.fnet = s.fnet ∧
    t.queues.map Queue.bound = s.queues.map Queue.bound ∧ t.fns.map Fn.power = s.fns.map Fn.power

@[simp] theorem map_bound_upd (v : Vector Queue 256) (q : Fin 256) (f : Queue → Queue) (h : ∀ x, (f x).bound = x.bound) :
    (upd v q f).map Queue.bound = v.map Queue.bound := map_upd_keeps _ v q f h
@[simp] theorem map_power_upd (v : Vector Fn 33) (i : Fin 33) (f : Fn → Fn) 
    (h : ∀ x, (f x).busMaster = x.busMaster ∧ (f x).d3hot = x.d3hot) : (upd v i f).map Fn.power = v.map Fn.power :=
  map_upd_keeps _ v i f fun x => by simp [Fn.power, h x]

theorem OnlyTraffic.trans {s t u : State} (h : OnlyTraffic s t) (k : OnlyTraffic t u) : OnlyTraffic s u := by
  simp_all

@[simp] theorem eachFin_traffic (n : Nat) (f : Fin n → State → State) (s : State) (h : ∀ i t, OnlyTraffic t (f i t)) :
    OnlyTraffic s (eachFin n f s) := eachFin_rel OnlyTraffic (by simp) (fun _ _ _ => OnlyTraffic.trans) n f s h
@[simp] theorem eachOf_traffic {α : Type} (l : List α) (f : α → State → State) (s : State)
    (h : ∀ i t, OnlyTraffic t (f i t)) :
    OnlyTraffic s (eachOf l f s) := eachOf_rel OnlyTraffic (by simp) (fun _ _ _ => OnlyTraffic.trans) l f s h

@[simp] theorem latch_traffic (r : Rec) (s : State) : OnlyTraffic s (latch r s) := by
  unfold latch; simp
@[simp] theorem record_traffic (e : Ev) (owner : Fin 32) (data : Word) (s : State) :
    OnlyTraffic s (record e owner data s) := by
  unfold record; dsimp only; repeat' split
  all_goals simp
@[simp] theorem raiseVec_traffic (f : Fin 33) (v : Nat) (s : State) : OnlyTraffic s (raiseVec f v s) := by
  unfold raiseVec; dsimp only; repeat' split
  all_goals simp
@[simp] theorem mbxPut_traffic (i : Fin 33) (v : BitVec 128) (s : State) : OnlyTraffic s (mbxPut i v s) := by
  unfold mbxPut; dsimp only; split <;> simp
@[simp] theorem mailbox_traffic (e : Ev) (h : Fin 32) (data : Word) (s : State) : OnlyTraffic s (mailbox e h data s) := by
  unfold mailbox; split
  · simp
  · refine .trans (t := modHolding h (fun x => { x with seq := x.seq + 1 }) s) (by simp) (eachFin_traffic _ _ _ fun i t => ?_)
    split <;> simp
@[simp] theorem post_traffic (e : Ev) (h : Fin 32) (data : Word) (s : State) : OnlyTraffic s (post e h data s) := by
  unfold post; simp
@[simp] theorem limitWrite_traffic (code : BitVec 12) (subj n : Nat) (s : State) :
    OnlyTraffic s (limitWrite code subj n s) := by
  unfold limitWrite; repeat' split
  all_goals simp
@[simp] theorem limited_traffic (e : Ev) (subj n : Nat) (s : State) : OnlyTraffic s (limited e subj n s) := by
  unfold limited; dsimp only; repeat' split
  all_goals simp


@[simp] theorem showTap_traffic (kind n : Nat) (e : TapEv) (s : State) : OnlyTraffic s (showTap kind n e s) := by
  unfold showTap; split <;> simp
@[simp] theorem tapRewind_traffic (q : Fin 256) (s : State) : OnlyTraffic s (tapRewind q s) := by
  unfold tapRewind; split <;> simp
@[simp] theorem addLossPending_traffic (q : Fin 256) (n : Nat) (s : State) : OnlyTraffic s (addLossPending q n s) := by
  unfold addLossPending; split <;> simp
@[simp] theorem countDrop_traffic (q : Fin 256) (n : Nat) (s : State) : OnlyTraffic s (countDrop q n s) := by
  unfold countDrop; split <;> simp
@[simp] theorem afterAppend_traffic (q : Fin 256) (s : State) : OnlyTraffic s (afterAppend q s) := by
  unfold afterAppend; repeat' split
  all_goals simp
@[simp] theorem gapCount_traffic (q : Fin 256) (n : Nat) (s : State) : OnlyTraffic s (gapCount q n s) := by
  unfold gapCount; dsimp only; repeat' split
  all_goals simp
@[simp] theorem commitItem_traffic (cb : Nat) (q : Fin 256) (it : Item) (s : State) :
    OnlyTraffic s (commitItem cb q it s) := by
  unfold commitItem; dsimp only; repeat' split
  all_goals simp
@[simp] theorem rewindOpen_traffic (q : Fin 256) (s : State) : OnlyTraffic s (rewindOpen q s) := by
  unfold rewindOpen; dsimp only; repeat' split
  all_goals simp
@[simp] theorem lossReached_traffic (q : Fin 256) (n : Nat) (ended : Bool) (s : State) :
    OnlyTraffic s (lossReached q n ended s) := by
  unfold lossReached; simp
@[simp] theorem commitMarker_traffic (q : Fin 256) (code arg : Nat) (s : State) :
    OnlyTraffic s (commitMarker q code arg s) := by
  unfold commitMarker; split <;> simp
@[simp] theorem resyncReached_traffic (q : Fin 256) (gap : Nat) (recovery : Bool) (s : State) :
    OnlyTraffic s (resyncReached q gap recovery s) := by
  unfold resyncReached; dsimp only; split <;> simp
@[simp] theorem commitStaged_traffic (cb : Nat) (q : Fin 256) (l : List Staged) (n : Nat) (s : State) :
    OnlyTraffic s (commitStaged cb q l n s).1 := by
  induction l generalizing n s with
  | nil => simp [commitStaged]
  | cons x l ih =>
    cases x with
    | item it => cases n <;> simp [commitStaged, ih]
    | lost k e => simp [commitStaged, ih]
    | rewind => simp [commitStaged, ih]
    | mark g r => simp [commitStaged, ih]
@[simp] theorem leaveStaging_traffic (q : Fin 256) (n : Nat) (s : State) : OnlyTraffic s (leaveStaging q n s) := by
  unfold leaveStaging; split <;> simp
@[simp] theorem commitN_traffic (q : Fin 256) (n : Nat) (s : State) : OnlyTraffic s (commitN q n s) := by
  unfold commitN; simp
@[simp] theorem loseArrival_traffic (q : Fin 256) (last : Bool) (s : State) : OnlyTraffic s (loseArrival q last s) := by
  unfold loseArrival; dsimp only; split <;> simp
@[simp] theorem stageItem_traffic (q : Fin 256) (it : Item) (s : State) : OnlyTraffic s (stageItem q it s) := by
  unfold stageItem; dsimp only; repeat' split
  all_goals simp
@[simp] theorem rewindPlace_traffic (q : Fin 256) (s : State) : OnlyTraffic s (rewindPlace q s) := by
  unfold rewindPlace; split <;> simp
@[simp] theorem takeItem_traffic (q : Fin 256) (s : State) : OnlyTraffic s (takeItem q s) := by
  unfold takeItem; dsimp only; split <;> simp
@[simp] theorem emptyQueue_traffic (q : Fin 256) (s : State) : OnlyTraffic s (emptyQueue q s) := by
  unfold emptyQueue; simp
@[simp] theorem flushItems_traffic (q : Fin 256) (s : State) : OnlyTraffic s (flushItems q s) := by
  unfold flushItems; simp

/-! The Limva framers at a slot boundary. -/

@[simp] theorem laneTake_traffic (l : Fin 48) (q : Fin 256) (s : State) : OnlyTraffic s (laneTake l q s) := by
  unfold laneTake; split <;> simp
@[simp] theorem takeItems_traffic (l : Fin 48) (q : Fin 256) (n : Nat) (s : State) : OnlyTraffic s (takeItems l q n s) :=
  eachOf_traffic _ _ _ fun _ _ => laneTake_traffic _ _ _
@[simp] theorem sendFrame_traffic (l : Fin 48) (seq : BitVec 12) (count kind : Nat) (body : List (BitVec 64)) (s : State) :
    OnlyTraffic s (sendFrame l seq count kind body s) := by
  unfold sendFrame; simp
@[simp] theorem newFrame_traffic (l : Fin 48) (n : Nat) (s : State) : OnlyTraffic s (newFrame l n s) := by
  unfold newFrame; dsimp only; repeat' split
  all_goals simp
@[simp] theorem replayFrames_traffic (l : Fin 48) (fs : List (BitVec 12 × List Item)) (n : Nat) (s : State) :
    OnlyTraffic s (replayFrames l fs n s).1 := by
  induction fs generalizing n s with
  | nil => simp [replayFrames]
  | cons f fs ih => unfold replayFrames; split <;> simp [ih]
@[simp] theorem newFrames_traffic (l : Fin 48) (fuel n : Nat) (s : State) : OnlyTraffic s (newFrames l fuel n s) := by
  induction fuel generalizing n s with
  | zero => simp [newFrames]
  | succ fuel ih => unfold newFrames; dsimp only; split <;> simp [ih]
@[simp] theorem firstFrames_traffic (l : Fin 48) (n : Nat) (s : State) : OnlyTraffic s (firstFrames l n s) := by
  unfold firstFrames; repeat' split
  all_goals simp
@[simp] theorem limvaSlot_traffic (l : Fin 48) (s : State) : OnlyTraffic s (limvaSlot l s) := by
  unfold limvaSlot; dsimp only; repeat' split
  all_goals simp
@[simp] theorem limvaSlot15_traffic (l : Fin 48) (s : State) : OnlyTraffic s (limvaSlot15 l s) := by
  unfold limvaSlot15; dsimp only; repeat' split
  all_goals simp
@[simp] theorem limvaBoundary_traffic (s : State) : OnlyTraffic s (limvaBoundary s) := by
  unfold limvaBoundary; split
  · exact eachFin_traffic _ _ _ fun _ _ => limvaSlot15_traffic _ _
  · refine eachFin_traffic _ _ _ fun l t => ?_
    dsimp only; split <;> simp

end Sys2Proof.Machine

namespace Sys2Proof.Machine
open Sys2Proof.Safety

/-! Slots begin in order (R40, R46, R178). -/

theorem exec_slotBoundary (j : Fin 16) (ce : Nat) (s : State) : exec (.slotBoundary j ce) s = execSlotBoundary j ce s := rfl

/-- The slot that is not the next one does not begin. -/
theorem slotBoundary_out_of_order (j : Fin 16) (ce : Nat) (s : State) (h : slotFollows s j = false) :
    exec (.slotBoundary j ce) s = .next s := by
  rw [exec_slotBoundary, execSlotBoundary, h, Bool.and_false]; rfl

/-- The next slot begins while an edge lies ahead. -/
theorem slotBoundary_in_order (j : Fin 16) (ce : Nat) (s : State) (he : noEdge s = false) (h : slotFollows s j = true) :
    exec (.slotBoundary j ce) s = .next (beginSlot j ce s) := by
  rw [exec_slotBoundary, execSlotBoundary, he, h]; rfl

theorem slotFollows_later {s : State} {j : Fin 16} (hj : j ≠ 0) : slotFollows s j = (j.val == s.bell.slot.val + 1) := by
  have hval : j.val ≠ 0 := fun h => hj (Fin.ext h)
  rw [slotFollows, if_neg hval]

theorem beginSlot_bell (j : Fin 16) (ce : Nat) (s : State) :
    (beginSlot j ce s).bell = { s.bell with
      slot := j, slotBegun := true, now := max s.bell.now (s.bell.edgeAt + j.val * s.bell.len / 16) } := by
  unfold beginSlot storeScrub
  rw [limvaBoundary_bell]
  split <;> rfl

/-- The bank starts the units decided at its fence. -/
def Bank.startUnits (b : Bank) : Bank := { b with slotUnits := b.unitsNext, unitsNext := 0, fence := b.unitsNext != 0 }

theorem beginSlot_banks (j : Fin 16) (ce : Nat) (s : State) : (beginSlot j ce s).banks = s.banks.map Bank.startUnits := by
  unfold beginSlot storeScrub
  rw [(limvaBoundary_traffic _).1]
  split <;> rfl

/-! Slot map writes (R48, R74, R78). -/

theorem exec_slotMapWrite (rq : Req) (m : Fin 18) (b : List Byte) (s : State) :
    exec (.slotMapWrite rq m b) s = execSlotMapWrite rq m b s := rfl

/-- Table 13-3 refuses a value that is not allowed where it would pass another. -/
theorem checkEntry_value_refused {s : State} {role : Role} {ix : BitVec 16} {sub : Nat} {a : Access}
    (h : checkEntry s role ix sub a true true true = none) :
    checkEntry s role ix sub a true true false = some stRange := by
  unfold checkEntry at h ⊢
  split at h
  next => cases h
  next hreach =>
    rw [if_neg hreach]
    split at h
    next => cases h
    next attr hattr =>
      split at h
      next => cases h
      next hright => simp [hright]

/-- An edge lies ahead, and more than the guard remains to it: what executes now takes effect there. -/
theorem edgesAway_of_far {s : State} {guard : Nat} (h : guard ≤ toEdge s) : edgesAway guard s = 1 := by
  simp [edgesAway, h]
theorem afterArbiter_of_far {s : State} {guard : Nat} (h : guard ≤ toEdge s) : afterArbiter guard s = s := by
  simp [afterArbiter, tookArbiter, Nat.not_lt.2 h]
theorem bellAt_next {s : State} (h : noEdge s = false) : bellAt s 1 = s.bell.number + 1 := by
  have hf : s.bell.firstEdge = false := by simp_all [noEdge]
  simp [bellAt, hf]

theorem slotMapWrite_legal (s : State) (rq : Req) (se : Session) (m : Fin 18) (b : List Byte)
    (hg : granted s rq se 0x2010 (m.val + 1) .w = true) (hb : b.length = 16) (hl : legalMap (mapOf b) = true)
    (he : noEdge s = false) (ht : 16 ≤ toEdge s) :
    exec (.slotMapWrite rq m b) s = .next (written rq 0x2010 (m.val + 1) (s.bell.number + 1)
      { executing rq se s with
        slots := { s.slots with pend := s.slots.pend ++ [⟨m, s.bell.edges + 1, mapOf b⟩] } }) := by
  have hl' : mapBooks (mapOf b) = true := hl
  have ht' : 16 ≤ toEdge (executing rq se s) := ht
  have he' : noEdge (executing rq se s) = false := he
  rw [exec_slotMapWrite, execSlotMapWrite, hb, hl', beq_self_eq_true, writeReq_granted _ _ hg]
  dsimp only
  rw [edgesAway_of_far ht', bellAt_next he', afterArbiter_of_far (by exact ht')]
  rfl

theorem slotMapWrite_illegal (s : State) (rq : Req) (se : Session) (m : Fin 18) (b : List Byte)
    (hg : granted s rq se 0x2010 (m.val + 1) .w = true) (hb : b.length = 16) (hl : legalMap (mapOf b) = false) :
    exec (.slotMapWrite rq m b) s =
      .next (refusedWith rq opWrite stRange 0x2010 (m.val + 1) (executing rq se s)) := by
  obtain ⟨ha, hc⟩ := granted_parts hg
  have hl' : mapBooks (mapOf b) = false := hl
  rw [exec_slotMapWrite, execSlotMapWrite, hb, hl', beq_self_eq_true,
    writeReq_checked _ _ ha (checkEntry_value_refused hc)]

/-! The slot maps at an edge (R48, R78). -/

/-- One slot map write takes effect. -/
def applyMap (w : MapWrite) (s : State) : State := { s with slots := { s.slots with maps := s.slots.maps.set w.m w.map } }

/-- The map that the last write of map m gives, or the old one. -/
def lastMap (l : List MapWrite) (m : Fin 18) (old : Vector Byte 16) : Vector Byte 16 :=
  ((l.filter fun w => w.m = m).getLast?.map MapWrite.map).getD old

theorem lastMap_concat (l : List MapWrite) (w : MapWrite) (m : Fin 18) (old : Vector Byte 16) :
    lastMap (l ++ [w]) m old = if w.m = m then w.map else lastMap l m old := by
  by_cases h : w.m = m <;> simp [lastMap, h]

theorem applyMaps_maps (l : List MapWrite) (s : State) (m : Fin 18) :
    (eachOf l applyMap s).slots.maps[m] = lastMap l m s.slots.maps[m] := by
  induction l using List.reverseRecOn with
  | nil => rfl
  | append_singleton l w ih =>
    have step : eachOf (l ++ [w]) applyMap s = applyMap w (eachOf l applyMap s) := by simp [eachOf]
    rw [step, lastMap_concat, ← ih]
    by_cases h : w.m = m
    · subst h; simp [applyMap]
    · have : w.m.val ≠ m.val := fun e => h (Fin.ext e)
      simp [applyMap, h, Vector.getElem_set_ne _ _ this]

theorem applyMaps_pend (l : List MapWrite) (s : State) : (eachOf l applyMap s).slots.pend = s.slots.pend := by
  refine eachOf_rel (fun s t => t.slots.pend = s.slots.pend) (fun _ => rfl) (fun _ _ _ h k => k.trans h) l applyMap s ?_
  exact fun _ _ => rfl

theorem mapsEdge_eq (s : State) :
    mapsEdge s = eachOf (s.slots.pend.filter (·.edge ≤ s.bell.edges)) applyMap
      { s with slots := { s.slots with pend := s.slots.pend.filter fun w => !(w.edge ≤ s.bell.edges) } } := rfl

theorem mapsEdge_maps (s : State) (m : Fin 18) :
    (mapsEdge s).slots.maps[m] =
      match (s.slots.pend.filter fun w => w.m = m ∧ w.edge ≤ s.bell.edges).getLast? with
      | some w => w.map
      | none => s.slots.maps[m] := by
  rw [mapsEdge_eq, applyMaps_maps, lastMap, List.filter_filter]
  simp only [← Bool.decide_and]
  cases (s.slots.pend.filter fun w => w.m = m ∧ w.edge ≤ s.bell.edges).getLast? with
  | none => rfl
  | some w => rfl

theorem mapsEdge_pend (s : State) :
    (mapsEdge s).slots.pend = s.slots.pend.filter fun w => s.bell.edges < w.edge := by
  rw [mapsEdge_eq, applyMaps_pend]
  exact List.filter_congr fun w _ => by rw [← decide_not, decide_eq_decide, Nat.not_le]

/-- Settles O3: a slot boundary is `beginSlot` or nothing, a slot map write passes or fails Table 13-3 by its value alone,
and the writes due at an edge are applied by induction on their list. -/
theorem slotsFollowTheirMaps : Obligations.SlotsFollowTheirMaps := by
  refine ⟨fun s j ce he => ⟨fun hf => ?_, fun hj h0 => ?_⟩, fun s rq se m b hg hb => ⟨?_, ?_⟩, fun s m => ⟨?_, ?_⟩⟩
  · refine ⟨_, slotBoundary_in_order j ce s he hf, beginSlot_bell j ce s, beginSlot_slots j ce s, fun p => ?_⟩
    simp [beginSlot_banks, Bank.startUnits]
  · exact slotBoundary_out_of_order j ce s (by simpa [slotFollows_later h0] using hj)
  · exact fun hl he ht => slotMapWrite_legal s rq se m b hg hb hl he ht
  · exact fun hl => slotMapWrite_illegal s rq se m b hg hb hl
  · exact mapsEdge_maps s m
  · exact mapsEdge_pend s

end Sys2Proof.Machine

namespace Sys2Proof.Machine

/-! Rings: what a write-back, a forced completion and an abandonment leave as they were. -/

/-- Two states of the host interface agree in the link's rate, the SR-IOV registers and the PF0 mailbox's BUSY bits. -/
@[simp] abbrev SameLink (x y : HostIf) : Prop :=
  y.rate = x.rate ∧ y.vfEnable = x.vfEnable ∧ y.ari = x.ari ∧ y.numVfs = x.numVfs ∧ y.busy = x.busy

/-- From s to t no more happens than queue traffic and the work of the DMA engine on its rings: memory, the link, the field
network, the bindings of the queues and the power states of the functions stay, and every ring stays its function's. -/
@[simp] abbrev OnlyDma (s t : State) : Prop :=
  t.banks = s.banks ∧ t.plots = s.plots ∧ t.fnet = s.fnet ∧ SameLink s.host t.host ∧
    t.rings.map Ring.fn = s.rings.map Ring.fn ∧
    t.queues.map Queue.bound = s.queues.map Queue.bound ∧ t.fns.map Fn.power = s.fns.map Fn.power

@[simp] theorem map_fn_upd (v : Vector Ring 256) (q : Fin 256) (f : Ring → Ring) (h : ∀ x, (f x).fn = x.fn) :
    (upd v q f).map Ring.fn = v.map Ring.fn := map_upd_keeps _ v q f h

theorem OnlyDma.trans {s t u : State} (h : OnlyDma s t) (k : OnlyDma t u) : OnlyDma s u := by
  simp_all

@[simp] theorem eachFin_dma (n : Nat) (f : Fin n → State → State) (s : State) (h : ∀ i t, OnlyDma t (f i t)) :
    OnlyDma s (eachFin n f s) := eachFin_rel OnlyDma (by simp) (fun _ _ _ => OnlyDma.trans) n f s h

@[simp] theorem ringMessage_dma (q : Fin 256) (s : State) : OnlyDma s (ringMessage q s) := by
  unfold ringMessage; dsimp only; split <;> simp
@[simp] theorem writeBack_dma (q : Fin 256) (t : Tally) (code : Byte) (s : State) : OnlyDma s (writeBack q t code s) := by
  unfold writeBack; dsimp only; repeat' split
  all_goals simp
@[simp] theorem sendForced_dma (q : Fin 256) (n : Nat) (s : State) : OnlyDma s (sendForced q n s) := by
  induction n generalizing s with
  | zero => simp [sendForced]
  | succ n ih =>
    unfold sendForced; repeat' split
    all_goals simp [ih]
@[simp] theorem forceTallies_dma (q : Fin 256) (code : Byte) (s : State) : OnlyDma s (forceTallies q code s) := by
  unfold forceTallies; dsimp only; split <;> simp
@[simp] theorem flushQueue_dma (q : Fin 256) (s : State) : OnlyDma s (flushQueue q s) := by
  unfold flushQueue; simp
@[simp] theorem abandonTallies_dma (q : Fin 256) (event : Bool) (s : State) : OnlyDma s (abandonTallies q event s) := by
  unfold abandonTallies; extract_lets r n s₁ s₂ x s₃
  have h₁ : OnlyTraffic s s₁ := by dsimp only [s₁]; split <;> simp
  have h₃ : OnlyDma s s₃ := by simp [s₃, s₂, x, h₁]
  clear_value s₃
  repeat' split
  all_goals simp [h₃]
@[simp] theorem resetRing_dma (q : Fin 256) (keep : Bool) (s : State) : OnlyDma s (resetRing q keep s) := by
  unfold resetRing; dsimp only; simp
@[simp] theorem disableRing_dma (q : Fin 256) (s : State) : OnlyDma s (disableRing q s) := by
  unfold disableRing; simp
theorem eachRing_dma (f : Fin 33) (g : Fin 256 → State → State) (s : State) (h : ∀ q t, OnlyDma t (g q t)) :
    OnlyDma s (eachRing f g s) := by
  unfold eachRing
  refine eachFin_dma _ _ _ fun q t => ?_
  split
  · exact h q t
  · simp

/-! The rings after an abandonment and after a reset of their function. -/

/-- A ring whose tallies are abandoned (R451). -/
def Ring.abandonAll (r : Ring) : Ring :=
  if r.tallies.length = 0 then r else
  { r with tallies := [], abandoned := satAdd r.abandoned r.tallies.length, resumed := true, cache := [], asked := 0 }

/-- A ring after a reset of its function. -/
def Ring.afterReset (keep : Bool) (x : Ring) : Ring :=
  let r := x.abandonAll
  { Ring.reset with
    abandoned := if keep then r.abandoned else 0, resumed := r.resumed, fn := r.fn, h2d := r.h2d, holder := r.holder }

/-- A ring after its function has entered D3hot. -/
def Ring.afterD3hot (x : Ring) : Ring :=
  { x.abandonAll with st := .disabled, enable := false, cause := 0, cache := [], asked := 0, due := false }

/-- The ring is DISABLED and has no tally. -/
def Ring.quiet (r : Ring) : Prop := r.st = .disabled ∧ r.tallies = []

@[simp] theorem abandonAll_tallies (r : Ring) : r.abandonAll.tallies = [] := by
  unfold Ring.abandonAll; split
  next h => exact List.eq_nil_of_length_eq_zero h
  next => rfl
@[simp] theorem abandonAll_fn (r : Ring) : r.abandonAll.fn = r.fn := by
  unfold Ring.abandonAll; split <;> rfl
@[simp] theorem abandonAll_base (r : Ring) : r.abandonAll.base = r.base := by
  unfold Ring.abandonAll; split <;> rfl
@[simp] theorem afterReset_fn (keep : Bool) (r : Ring) : (r.afterReset keep).fn = r.fn := abandonAll_fn r
theorem afterReset_quiet (keep : Bool) (r : Ring) : (r.afterReset keep).quiet := ⟨rfl, rfl⟩
theorem afterD3hot_quiet (r : Ring) : r.afterD3hot.quiet := ⟨rfl, abandonAll_tallies r⟩

theorem abandonTallies_rings (q : Fin 256) (event : Bool) (s : State) :
    (abandonTallies q event s).rings = upd s.rings q Ring.abandonAll := by
  unfold abandonTallies; extract_lets r n s₁ s₂ x s₃
  have h₁ : s₁.rings = s.rings := by dsimp only [s₁]; split <;> simp
  split
  next h => exact (upd_id _ _ _ (by unfold Ring.abandonAll; rw [if_pos h])).symm
  next h =>
    have h₃ : s₃.rings = upd s.rings q Ring.abandonAll := by
      simp only [s₃, s₂, modRing_rings, h₁, upd]
      congr 1
      unfold Ring.abandonAll; rw [if_neg h]
    clear_value s₃
    split <;> simp [h₃]
theorem resetRing_rings (q : Fin 256) (keep : Bool) (s : State) :
    (resetRing q keep s).rings = upd s.rings q (Ring.afterReset keep) := by
  unfold resetRing
  simp only [modRing_rings, abandonTallies_rings, upd_upd]; rfl
theorem disableRing_rings (q : Fin 256) (s : State) :
    (disableRing q s).rings = upd s.rings q Ring.afterD3hot := by
  unfold disableRing
  simp only [modRing_rings, abandonTallies_rings, upd_upd]; rfl

theorem eachOf_cons {α : Type} (a : α) (l : List α) (f : α → State → State) (s : State) :
    eachOf (a :: l) f s = eachOf l f (f a s) := rfl

/-- The rings after a loop that updates ring q by k at step q. -/
theorem eachFin_rings (g : Fin 256 → State → State) (k : Ring → Ring) (s : State)
    (h : ∀ q t, (g q t).rings = upd t.rings q k) : (eachFin 256 g s).rings = s.rings.map k := by
  have key : ∀ (l : List (Fin 256)), l.Nodup → ∀ (t : State) (q : Fin 256),
      (eachOf l g t).rings[q] = if q ∈ l then k t.rings[q] else t.rings[q] := by
    intro l
    induction l with
    | nil => intro _ t q; simp [eachOf]
    | cons a l ih =>
      intro hl t q
      obtain ⟨ha, hl⟩ := List.nodup_cons.1 hl
      have step : (g a t).rings[q] = if q = a then k t.rings[q] else t.rings[q] := by
        simp only [h, Fin.getElem_fin, upd_get]
      rw [eachOf_cons, ih hl, step]
      by_cases hq : q = a
      · subst hq; simp [ha]
      · simp [hq]
  apply Vector.ext
  intro i hi
  simpa [eachFin, eachOf] using key _ (List.nodup_finRange 256) s ⟨i, hi⟩

/-- A ring of function f after k, any other as it is. -/
def Ring.ofFn (f : Fin 33) (k : Ring → Ring) (r : Ring) : Ring := if r.fn = f then k r else r

theorem eachRing_rings (f : Fin 33) (g : Fin 256 → State → State) (k : Ring → Ring) (s : State)
    (h : ∀ q t, (g q t).rings = upd t.rings q k) : (eachRing f g s).rings = s.rings.map (Ring.ofFn f k) := by
  refine eachFin_rings _ _ _ fun q t => ?_
  by_cases hf : t.rings[q].fn = f
  · rw [if_pos (by simpa using hf), h]
    simp only [upd, Ring.ofFn, if_pos hf]
  · rw [if_neg (by simpa using hf)]
    exact (upd_id _ _ _ (by rw [Ring.ofFn, if_neg hf])).symm

/-! Function-level resets. -/

theorem vfReset_rings (f : Fin 33) (s : State) :
    (vfReset f s).rings = s.rings.map (Ring.ofFn f (Ring.afterReset true)) :=
  eachRing_rings f _ _ _ fun q t => resetRing_rings q true t

/-- A loop of VF resets keeps the rings of the functions that it does not reach, and quiets those of the others. -/
theorem vfResets_rings (l : List (Fin 33)) (s : State) (q : Fin 256) :
    (eachOf l vfReset s).rings[q].fn = s.rings[q].fn ∧
      (s.rings[q].quiet → (eachOf l vfReset s).rings[q].quiet) ∧
      (s.rings[q].fn ∈ l → (eachOf l vfReset s).rings[q].quiet) := by
  induction l generalizing s with
  | nil => simp [eachOf]
  | cons f l ih =>
    obtain ⟨ihFn, ihQuiet, ihMem⟩ := ih (vfReset f s)
    have step : (vfReset f s).rings[q] = Ring.ofFn f (Ring.afterReset true) s.rings[q] := by simp [vfReset_rings]
    rw [eachOf_cons]
    rw [step, Ring.ofFn] at ihFn ihQuiet ihMem
    by_cases hf : s.rings[q].fn = f
    · simp only [if_pos hf, afterReset_fn] at ihFn ihQuiet ihMem
      exact ⟨ihFn, fun _ => ihQuiet (afterReset_quiet _ _), fun _ => ihQuiet (afterReset_quiet _ _)⟩
    · simp only [if_neg hf] at ihFn ihQuiet ihMem
      exact ⟨ihFn, ihQuiet, fun hm => ihMem ((List.mem_cons.1 hm).resolve_left hf)⟩

end Sys2Proof.Machine

namespace Sys2Proof.Machine

/-! A Holding reset leaves the banks and the Bins. -/

/-- The Bins of a Plot and what they hold. -/
def Plot.binState (x : Plot) : Mem 56 × Vector Bin 24 := (x.binMem, x.bins)

/-- From s to t the contents of the Granary banks and of the Bins stay. -/
@[simp] abbrev SameMemory (s t : State) : Prop :=
  t.banks = s.banks ∧ t.plots.map Plot.binState = s.plots.map Plot.binState

@[simp] theorem map_binState_upd (v : Vector Plot 64) (p : Fin 64) (f : Plot → Plot)
    (h : ∀ x, (f x).binMem = x.binMem ∧ (f x).bins = x.bins) : (upd v p f).map Plot.binState = v.map Plot.binState :=
  map_upd_keeps _ v p f fun x => by simp [Plot.binState, h x]

theorem SameMemory.trans {s t u : State} (h : SameMemory s t) (k : SameMemory t u) : SameMemory s u :=
  ⟨k.1.trans h.1, k.2.trans h.2⟩

@[simp] theorem eachFin_memory (n : Nat) (f : Fin n → State → State) (s : State) (h : ∀ i t, SameMemory t (f i t)) :
    SameMemory s (eachFin n f s) := eachFin_rel SameMemory (by simp) (fun _ _ _ => SameMemory.trans) n f s h
@[simp] theorem eachOf_memory {α : Type} (l : List α) (f : α → State → State) (s : State)
    (h : ∀ i t, SameMemory t (f i t)) :
    SameMemory s (eachOf l f s) := eachOf_rel SameMemory (by simp) (fun _ _ _ => SameMemory.trans) l f s h

@[simp] theorem pf0Respond_memory (k : Fin 8) (msg : List Byte) (len : Nat) (s : State) :
    SameMemory s (pf0Respond k msg len s) := by
  unfold pf0Respond; split <;> simp
@[simp] theorem ssp1Respond_memory (msg : List Byte) (len : Nat) (s : State) : SameMemory s (ssp1Respond msg len s) := by
  unfold ssp1Respond; split <;> simp
@[simp] theorem noResponse_memory (p : Path) (s : State) : SameMemory s (noResponse p s) := by
  unfold noResponse; split <;> simp
@[simp] theorem sendResponse_memory (p : Path) (sess ctr : BitVec 32) (inner : List Byte) (s : State) :
    SameMemory s (sendResponse p sess ctr inner s) := by
  unfold sendResponse; split <;> simp
@[simp] theorem pf0Notice_memory (msg : List Byte) (len : Nat) (s : State) : SameMemory s (pf0Notice msg len s) := by
  unfold pf0Notice; dsimp only; split <;> simp
@[simp] theorem ssp1Notice_memory (msg : List Byte) (s : State) : SameMemory s (ssp1Notice msg s) := by
  unfold ssp1Notice; split <;> simp
@[simp] theorem sendNotice_memory (p : Path) (sess ctr : BitVec 32) (inner : List Byte) (s : State) :
    SameMemory s (sendNotice p sess ctr inner s) := by
  unfold sendNotice; split <;> simp
@[simp] theorem closeSession_memory (se : Session) (reason : Byte) (s : State) :
    SameMemory s (closeSession se reason s) := by
  unfold closeSession; dsimp only; split <;> simp
@[simp] theorem respond_memory (rq : Req) (op st ty : Byte) (bell : BellNo) (body : List Byte) (s : State) :
    SameMemory s (respond rq op st ty bell body s) := by
  unfold respond; dsimp only; repeat' split
  all_goals simp
@[simp] theorem invokeDone_memory (rq : Option Req) (st : Byte) (b : BellNo) (s : State) :
    SameMemory s (invokeDone rq st b s) := by
  unfold invokeDone; split <;> simp
@[simp] theorem unforce_memory (h : Fin 32) (s : State) : SameMemory s (unforce h s) :=
  eachOf_memory _ _ _ fun _ _ => by simp
@[simp] theorem endSnapshot_memory (st : SnapState) (code : Byte) (s : State) : SameMemory s (endSnapshot st code s) := by
  unfold endSnapshot; split <;> simp
@[simp] theorem endRestore_memory (st : SnapState) (code : Byte) (s : State) : SameMemory s (endRestore st code s) := by
  unfold endRestore; split <;> simp
@[simp] theorem cutJobs_memory (h : Fin 32) (s : State) : SameMemory s (cutJobs h s) := by
  unfold cutJobs; extract_lets s₁
  have h₁ : SameMemory s s₁ := by dsimp only [s₁]; split <;> simp
  clear_value s₁
  repeat' split
  all_goals simp [h₁]
@[simp] theorem cutFreezes_memory (h : Fin 32) (s : State) : SameMemory s (cutFreezes h s) := by
  unfold cutFreezes busyAnswer; simp
@[simp] theorem setState_memory (h : Fin 32) (st : HState) (s : State) : SameMemory s (setState h st s) := by
  unfold setState refreshHedges; simp
@[simp] theorem commitOut_memory (u : Fin 32) (its : List Item) (s : State) : SameMemory s (commitOut u its s) := by
  unfold commitOut; split
  · exact eachOf_memory _ _ _ fun _ _ => by simp
  · simp
@[simp] theorem cvuStop_memory (u : Fin 32) (s : State) : SameMemory s (cvuStop u s) := by
  unfold cvuStop; dsimp only; repeat' split
  all_goals simp
theorem resetHolding_memory (h : Fin 32) (s : State) : SameMemory s (resetHolding h s) := by
  unfold resetHolding
  extract_lets s₁ s₂ s₃ s₄ s₅
  have h₃ : SameMemory s s₃ := by simp [s₃, s₂, s₁]
  have h₄ : SameMemory s₃ s₄ := eachOf_memory _ _ _ fun p t => by simp [resetPlot]
  have h₅ : SameMemory s₄ s₅ := eachOf_memory _ _ _ fun q t => by simp
  have h₆ := eachFin_memory 32 (fun u t => if cvuHolding t u = h then cvuStop u t else t) s₅ fun u t => by
    split <;> simp
  exact ((h₃.trans h₄).trans h₅).trans h₆

end Sys2Proof.Machine

namespace Sys2Proof.Machine

/-! Resets of functions: everything but the function's own registers stays. -/

/-- From s to t memory, the field network, the link and the bindings of the queues stay. -/
@[simp] abbrev OnlyFunctions (s t : State) : Prop :=
  t.banks = s.banks ∧ t.plots = s.plots ∧ t.fnet = s.fnet ∧ SameLink s.host t.host ∧
    t.queues.map Queue.bound = s.queues.map Queue.bound

theorem OnlyFunctions.trans {s t u : State} (h : OnlyFunctions s t) (k : OnlyFunctions t u) : OnlyFunctions s u := by
  simp_all

theorem bound_of_map_eq {s t : State} (h : t.queues.map Queue.bound = s.queues.map Queue.bound) (q : Fin 256) :
    t.queues[q].bound = s.queues[q].bound := by
  simpa using congrArg (fun v => v[q]) h
theorem fn_of_map_eq {s t : State} (h : t.rings.map Ring.fn = s.rings.map Ring.fn) (q : Fin 256) :
    t.rings[q].fn = s.rings[q].fn := by
  simpa using congrArg (fun v => v[q]) h
theorem power_of_map_eq {s t : State} (h : t.fns.map Fn.power = s.fns.map Fn.power) (f : Fin 33) :
    t.fns[f].power = s.fns[f].power := by
  simpa using congrArg (fun v => v[f]) h

/-- The function neither sends nor is in D3hot. -/
def Fn.atReset (n : Fn) : Prop := n.busMaster = false ∧ n.d3hot = false

theorem atReset_of_power_eq {m n : Fn} (h : n.power = m.power) : m.atReset → n.atReset := by
  obtain ⟨hb, hd⟩ := Prod.mk.inj h
  exact fun hm => ⟨hb.trans hm.1, hd.trans hm.2⟩

/-- The reset of VF f's registers, before that of its rings. -/
def vfRegisters (f : Fin 33) (s : State) : State :=
  modFn f (fun n => { resetFn n with mbxCons := n.mbxProd, mbxLost := 0 }) s

theorem vfReset_eq (f : Fin 33) (s : State) :
    vfReset f s = eachRing f (fun q t => resetRing q true t) (vfRegisters f s) := rfl

theorem vfReset_dma (f : Fin 33) (s : State) : OnlyDma (vfRegisters f s) (vfReset f s) := by
  rw [vfReset_eq]
  exact eachRing_dma _ _ _ fun q t => resetRing_dma q true t

theorem vfReset_functions (f : Fin 33) (s : State) : OnlyFunctions s (vfReset f s) := by
  have h := vfReset_dma f s
  simp_all [vfRegisters]

theorem vfReset_atReset (f : Fin 33) (s : State) : (vfReset f s).fns[f].atReset := by
  obtain ⟨-, -, -, -, -, -, hp⟩ := vfReset_dma f s
  refine atReset_of_power_eq (power_of_map_eq hp f) ?_
  simp [vfRegisters, Fn.atReset, resetFn]

theorem vfReset_keeps_atReset (f g : Fin 33) (s : State) (h : s.fns[g].atReset) : (vfReset f s).fns[g].atReset := by
  by_cases hg : g = f
  · subst hg; exact vfReset_atReset g s
  · obtain ⟨-, -, -, -, -, -, hp⟩ := vfReset_dma f s
    refine atReset_of_power_eq (power_of_map_eq hp g) ?_
    simpa [vfRegisters, upd_other _ _ _ _ hg] using h

theorem vfResets_functions (l : List (Fin 33)) (s : State) : OnlyFunctions s (eachOf l vfReset s) :=
  eachOf_rel OnlyFunctions (by simp) (fun _ _ _ => OnlyFunctions.trans) _ _ _ vfReset_functions

theorem vfResets_keep_atReset (l : List (Fin 33)) (s : State) (g : Fin 33) :
    s.fns[g].atReset → (eachOf l vfReset s).fns[g].atReset :=
  eachOf_rel (fun s t => s.fns[g].atReset → t.fns[g].atReset) (fun _ h => h) (fun _ _ _ h k hs => k (h hs)) _ _ _
    fun f t => vfReset_keeps_atReset f g t

/-! A reset of PF0. -/

/-- The reset of PF0's registers and mailbox, before that of its rings. -/
def pf0Registers (s : State) : State :=
  modFn 0 resetFn (clearPf0Mailbox { s with host := { s.host with resetSince := true } })

/-- The reset of PF0 and its rings, before that of the VFs. -/
def pf0Rings (s : State) : State := eachRing 0 (fun q t => resetRing q true t) (pf0Registers s)

/-- VF Enable is clear. -/
def vfsOff (s : State) : State := { s with host := { s.host with vfEnable := false } }

@[simp] theorem vfsOff_frame (s : State) : (vfsOff s).banks = s.banks ∧ (vfsOff s).plots = s.plots ∧
    (vfsOff s).rings = s.rings ∧ (vfsOff s).fns = s.fns ∧ (vfsOff s).queues = s.queues ∧
    (vfsOff s).host.rate = s.host.rate := ⟨rfl, rfl, rfl, rfl, rfl, rfl⟩

theorem disableVfs_eq (s : State) : disableVfs s = eachOf vfs vfReset (vfsOff s) := rfl
theorem pf0Reset_eq (s : State) : pf0Reset s = disableVfs (pf0Rings s) := rfl

theorem pf0Rings_dma (s : State) : OnlyDma (pf0Registers s) (pf0Rings s) := by
  unfold pf0Rings
  exact eachRing_dma _ _ _ fun q t => resetRing_dma q true t

theorem pf0Rings_rings (s : State) : (pf0Rings s).rings = s.rings.map (Ring.ofFn 0 (Ring.afterReset true)) := by
  unfold pf0Rings
  rw [eachRing_rings 0 _ _ _ fun q t => resetRing_rings q true t]
  rfl

theorem pf0Rings_atReset (s : State) : (pf0Rings s).fns[(0 : Fin 33)].atReset := by
  obtain ⟨-, -, -, -, -, -, hp⟩ := pf0Rings_dma s
  have hregs : (pf0Registers s).fns = upd s.fns 0 resetFn := rfl
  refine atReset_of_power_eq (power_of_map_eq hp 0) ?_
  rw [hregs]
  exact ⟨by simp [upd, resetFn], by simp [upd, resetFn]⟩

theorem pf0Reset_keeps (s : State) :
    (pf0Reset s).banks = s.banks ∧ (pf0Reset s).plots = s.plots ∧ (pf0Reset s).host.rate = s.host.rate ∧
      (pf0Reset s).queues.map Queue.bound = s.queues.map Queue.bound := by
  obtain ⟨hb, hp, -, hl, -, hq, -⟩ := pf0Rings_dma s
  obtain ⟨kb, kp, -, kl, kq⟩ := vfResets_functions vfs (vfsOff (pf0Rings s))
  rw [pf0Reset_eq, disableVfs_eq]
  simp only [kb, kp, kl, kq, vfsOff_frame, hb, hp, hl, hq]
  exact ⟨rfl, rfl, rfl, rfl⟩

theorem pf0Reset_atReset (s : State) : (pf0Reset s).fns[(0 : Fin 33)].atReset := by
  rw [pf0Reset_eq, disableVfs_eq]
  refine vfResets_keep_atReset vfs (vfsOff (pf0Rings s)) 0 ?_
  obtain ⟨-, -, -, hfns, -, -⟩ := vfsOff_frame (pf0Rings s)
  rw [hfns]
  exact pf0Rings_atReset s

theorem ofFn_quiet {f : Fin 33} {k : Ring → Ring} {r : Ring} (hf : r.fn = f) (hk : (k r).quiet) :
    (Ring.ofFn f k r).quiet := by
  rwa [Ring.ofFn, if_pos hf]

theorem pf0Reset_quiet (s : State) (q : Fin 256) (hq : s.rings[q].fn = 0) : (pf0Reset s).rings[q].quiet := by
  rw [pf0Reset_eq, disableVfs_eq]
  obtain ⟨-, hkeeps, -⟩ := vfResets_rings vfs (vfsOff (pf0Rings s)) q
  refine hkeeps ?_
  simpa [pf0Rings_rings] using ofFn_quiet hq (afterReset_quiet true _)

theorem vfReset_quiet (f : Fin 33) (s : State) (q : Fin 256) (hq : s.rings[q].fn = f) : (vfReset f s).rings[q].quiet := by
  simpa [vfReset_rings] using ofFn_quiet hq (afterReset_quiet true _)

/-! Hot reset. -/

/-- A hot reset of the host interface and of the functions' registers, before that of the rings. -/
def hotRegisters (s : State) : State :=
  let t := clearPf0Mailbox { s with host := { s.host with
    rate := 0, width := 0, mps := 128, mrrs := 512, vfEnable := false, ari := false, numVfs := 0, resetSince := true } }
  { t with fns := t.fns.map fun n => { resetFn n with mbxProd := 0, mbxCons := 0, mbxLost := 0, mbx := [] } }

theorem hotReset_eq (s : State) : hotReset s = eachFin 256 (fun q t => resetRing q false t) (hotRegisters s) := rfl

theorem hotReset_dma (s : State) : OnlyDma (hotRegisters s) (hotReset s) := by
  rw [hotReset_eq]
  exact eachFin_dma _ _ _ fun q t => resetRing_dma q false t

theorem hotReset_rings (s : State) : (hotReset s).rings = s.rings.map (Ring.afterReset false) :=
  eachFin_rings _ _ (hotRegisters s) fun q t => resetRing_rings q false t

/-! The commands. -/

theorem exec_functionLevelReset (f : Fin 33) (s : State) :
    exec (.functionLevelReset f) s = execFunctionLevelReset f s := rfl
theorem exec_hotReset (s : State) : exec .hotReset s = .next (hotReset s) := rfl
theorem exec_d3hotEntry (f : Fin 33) (s : State) : exec (.d3hotEntry f) s = execD3hotEntry f s := rfl
theorem exec_busMasterEnableChange (f : Fin 33) (on : Bool) (s : State) :
    exec (.busMasterEnableChange f on) s = execBusMasterEnableChange f on s := rfl
theorem exec_vfEnableWrite (on ari : Bool) (n : BitVec 16) (s : State) :
    exec (.vfEnableWrite on ari n) s = execVfEnableWrite on ari n s := rfl

/-- With the link up, a function-level reset of an enabled function. -/
theorem functionLevelReset_resets (f : Fin 33) (s : State) (hr : s.host.rate ≠ 0) (hf : vfOn s f = true) :
    ∃ t, exec (.functionLevelReset f) s = .next t ∧
      t.fns[f].busMaster = false ∧ t.fns[f].d3hot = false ∧ t.host.rate = s.host.rate ∧
      (∀ q : Fin 256, s.rings[q].fn = f → t.rings[q].st = .disabled ∧ t.rings[q].tallies = []) ∧
      ∀ q : Fin 256, t.queues[q].bound = s.queues[q].bound := by
  have hv : s.host.rate.val ≠ 0 := fun h => hr (Fin.ext h)
  rw [exec_functionLevelReset, execFunctionLevelReset, if_neg (by simp [hv, hf])]
  by_cases h0 : f = 0
  · subst h0
    obtain ⟨-, -, hrate, hbound⟩ := pf0Reset_keeps s
    obtain ⟨hmaster, hd3⟩ := pf0Reset_atReset s
    exact ⟨pf0Reset s, rfl, hmaster, hd3, hrate, pf0Reset_quiet s, bound_of_map_eq hbound⟩
  · obtain ⟨-, -, -, hlink, hbound⟩ := vfReset_functions f s
    obtain ⟨hmaster, hd3⟩ := vfReset_atReset f s
    have hval : f.val ≠ 0 := fun h => h0 (Fin.ext h)
    rw [if_neg hval]
    exact ⟨vfReset f s, rfl, hmaster, hd3, hlink.1, vfReset_quiet f s, bound_of_map_eq hbound⟩

theorem hotReset_resets (s : State) :
    (hotReset s).host.rate = 0 ∧ (hotReset s).host.vfEnable = false ∧ (hotReset s).host.busy = 0 ∧
      (hotReset s).fnet.sessions = s.fnet.sessions ∧
      (∀ q : Fin 256, (hotReset s).rings[q].st = .disabled ∧ (hotReset s).rings[q].tallies = [] ∧
        (hotReset s).rings[q].abandoned = 0) ∧
      ∀ q : Fin 256, (hotReset s).queues[q].bound = s.queues[q].bound := by
  obtain ⟨-, -, hfnet, ⟨hrate, hvf, -, -, hbusy⟩, -, hbound, -⟩ := hotReset_dma s
  refine ⟨hrate, hvf, hbusy, congrArg Fnet.sessions hfnet, fun q => ?_, bound_of_map_eq hbound⟩
  simp [hotReset_rings, Ring.afterReset, Ring.reset]

/-- With the link up, entry of an enabled function to D3hot. -/
theorem d3hotEntry_disables (f : Fin 33) (s : State) (hr : s.host.rate ≠ 0) (hf : vfOn s f = true) :
    ∃ t, exec (.d3hotEntry f) s = .next t ∧ t.fns[f].d3hot = true ∧
      (∀ q : Fin 256, s.rings[q].fn = f →
        t.rings[q].st = .disabled ∧ t.rings[q].tallies = [] ∧ t.rings[q].base = s.rings[q].base) ∧
      ∀ q : Fin 256, t.queues[q].bound = s.queues[q].bound := by
  have hv : s.host.rate.val ≠ 0 := fun h => hr (Fin.ext h)
  rw [exec_d3hotEntry, execD3hotEntry, if_neg (by simp [hv, hf])]
  obtain ⟨-, -, -, -, -, hbound, hpower⟩ :=
    eachRing_dma f disableRing (modFn f (fun n => { n with d3hot := true }) s) fun q t => disableRing_dma q t
  refine ⟨_, rfl, ?_, fun q hq => ?_, bound_of_map_eq hbound⟩
  · simpa [Fn.power] using congrArg Prod.snd (power_of_map_eq hpower f)
  · have hrings := eachRing_rings f disableRing Ring.afterD3hot (modFn f (fun n => { n with d3hot := true }) s)
      fun q t => disableRing_rings q t
    have hone := congrArg (fun v => v[q]) hrings
    simp only [Fin.getElem_fin, Vector.getElem_map, modFn_rings] at hone hq ⊢
    rw [hone, Ring.ofFn, if_pos hq]
    exact ⟨(afterD3hot_quiet _).1, (afterD3hot_quiet _).2, abandonAll_base _⟩

/-- With the link up, Bus Master Enable of an enabled function takes what is written. -/
theorem busMasterEnableChange_clears (f : Fin 33) (s : State) (hr : s.host.rate ≠ 0) (hf : vfOn s f = true) :
    exec (.busMasterEnableChange f false) s = .next (modFn f (fun n => { n with busMaster := false }) s) := by
  have hv : s.host.rate.val ≠ 0 := fun h => hr (Fin.ext h)
  rw [exec_busMasterEnableChange, execBusMasterEnableChange, if_neg (by simp [hv, hf])]
  simp

theorem busMasterEnableChange_sets (f : Fin 33) (s : State) (hr : s.host.rate ≠ 0) (hf : vfOn s f = true) :
    ∃ t, exec (.busMasterEnableChange f true) s = .next t ∧ t.fns[f].busMaster = true ∧ t.fns[f].d3hot = false := by
  have hv : s.host.rate.val ≠ 0 := fun h => hr (Fin.ext h)
  rw [exec_busMasterEnableChange, execBusMasterEnableChange, if_neg (by simp [hv, hf])]
  obtain ⟨-, -, -, -, -, -, hpower⟩ :=
    eachRing_dma f (fun q t => sendForced q 32 t) (modFn f (fun n => { n with busMaster := true, d3hot := false }) s)
      fun q t => sendForced_dma q 32 t
  have h := power_of_map_eq hpower f
  refine ⟨_, rfl, ?_, ?_⟩
  · simpa [Fn.power] using congrArg Prod.fst h
  · simpa [Fn.power] using congrArg Prod.snd h

/-- Whether VFi is enabled depends on the SR-IOV registers alone. -/
theorem vfOn_of_sameLink {s t : State} (h : SameLink s.host t.host) (f : Fin 33) : vfOn t f = vfOn s f := by
  obtain ⟨-, hvf, hari, hnum, -⟩ := h
  simp only [vfOn, hvf, hari, hnum]

/-- The SR-IOV registers take what is written. -/
def sriovWritten (on ari : Bool) (n : BitVec 16) (s : State) : State :=
  { s with host := { s.host with vfEnable := on, ari, numVfs := n } }

/-- The VFs that a write of the SR-IOV control disables. -/
def vfsLost (s t : State) : List (Fin 33) := vfs.filter fun f => vfOn s f && !vfOn t f

theorem mem_vfsLost {s t : State} {f : Fin 33} (h0 : f ≠ 0) (hs : vfOn s f = true) (ht : vfOn t f = false) :
    f ∈ vfsLost s t := by
  have : f.val ≠ 0 := fun h => h0 (Fin.ext h)
  simp [vfsLost, vfs, hs, ht, this]

theorem vfEnableWrite_eq (on ari : Bool) (n : BitVec 16) (s : State) (hr : s.host.rate ≠ 0) :
    exec (.vfEnableWrite on ari n) s =
      .next (eachOf (vfsLost s (sriovWritten on ari n s)) vfReset (sriovWritten on ari n s)) := by
  have hv : s.host.rate.val ≠ 0 := fun h => hr (Fin.ext h)
  rw [exec_vfEnableWrite, execVfEnableWrite, if_neg hv]
  rfl

/-- With the link up, the SR-IOV control takes what is written, and a VF that it disables loses its rings. -/
theorem vfEnableWrite_disables (on ari : Bool) (n : BitVec 16) (s : State) (hr : s.host.rate ≠ 0) :
    ∃ t, exec (.vfEnableWrite on ari n) s = .next t ∧
      t.host.vfEnable = on ∧ t.host.ari = ari ∧ t.host.numVfs = n ∧
      ∀ (f : Fin 33) (q : Fin 256), f ≠ 0 → vfOn s f = true → vfOn t f = false → s.rings[q].fn = f →
        t.rings[q].st = .disabled ∧ t.rings[q].tallies = [] := by
  obtain ⟨-, -, -, hlink, -⟩ := vfResets_functions (vfsLost s (sriovWritten on ari n s)) (sriovWritten on ari n s)
  obtain ⟨-, hvf, hari, hnum, -⟩ := id hlink
  refine ⟨_, vfEnableWrite_eq on ari n s hr, hvf, hari, hnum, fun f q h0 hs ht hq => ?_⟩
  rw [vfOn_of_sameLink hlink] at ht
  obtain ⟨-, -, hquiets⟩ := vfResets_rings (vfsLost s (sriovWritten on ari n s)) (sriovWritten on ari n s) q
  refine hquiets ?_
  subst hq
  exact mem_vfsLost h0 hs ht

/-- From s to t the bell, the slot maps, the banks and the Bins stay. -/
def KeepsBellAndMemory (s t : State) : Prop :=
  t.bell = s.bell ∧ t.slots = s.slots ∧ t.banks = s.banks ∧
    ∀ p : Fin 64, t.plots[p].binMem = s.plots[p].binMem ∧ t.plots[p].bins = s.plots[p].bins

theorem keepsBellAndMemory_of_plots {s t : State} (hbell : t.bell = s.bell) (hslots : t.slots = s.slots)
    (hbanks : t.banks = s.banks) (hplots : t.plots = s.plots) : KeepsBellAndMemory s t :=
  ⟨hbell, hslots, hbanks, fun p => by rw [hplots]; exact ⟨rfl, rfl⟩⟩

theorem resetHolding_keepsBellAndMemory (h : Fin 32) (s : State) : KeepsBellAndMemory s (resetHolding h s) := by
  obtain ⟨hbanks, hplots⟩ := resetHolding_memory h s
  refine ⟨resetHolding_bell h s, resetHolding_slots h s, hbanks, fun p => ?_⟩
  have hp : (resetHolding h s).plots[p].binState = s.plots[p].binState := by
    simpa using congrArg (fun v => v[p]) hplots
  exact Prod.mk.inj hp

theorem functionLevelReset_keepsBellAndMemory (f : Fin 33) (s : State) :
    ∃ t, exec (.functionLevelReset f) s = .next t ∧ KeepsBellAndMemory s t := by
  refine ⟨_, rfl, ?_⟩
  split
  · exact keepsBellAndMemory_of_plots rfl rfl rfl rfl
  · split
    · obtain ⟨hb, hp, -⟩ := pf0Reset_keeps s
      exact keepsBellAndMemory_of_plots (pf0Reset_bell s) (pf0Reset_slots s) hb hp
    · obtain ⟨hb, hp, -⟩ := vfReset_functions f s
      exact keepsBellAndMemory_of_plots (vfReset_bell f s) (vfReset_slots f s) hb hp

theorem hotReset_keepsBellAndMemory (s : State) : KeepsBellAndMemory s (hotReset s) := by
  obtain ⟨hb, hp, -⟩ := hotReset_dma s
  exact keepsBellAndMemory_of_plots (hotReset_bell s) (hotReset_slots s) hb hp

/-- Settles O37: a reset of a function is its registers' reset and a loop over its rings, which `OnlyDma` and the maps of
the rings describe; a Holding reset keeps the memory step by step. -/
theorem resetsKeepBellAndMemory : Obligations.ResetsKeepBellAndMemory := by
  refine ⟨fun s hr => ⟨?_, ?_, ?_, ?_, ?_⟩, fun s => ⟨?_, ?_, ?_⟩⟩
  · exact fun f hf => functionLevelReset_resets f s hr hf
  · exact ⟨hotReset s, rfl, hotReset_resets s⟩
  · exact fun f hf => d3hotEntry_disables f s hr hf
  · exact fun f hf => ⟨busMasterEnableChange_clears f s hr hf, busMasterEnableChange_sets f s hr hf⟩
  · exact fun on ari n => vfEnableWrite_disables on ari n s hr
  · exact fun h => resetHolding_keepsBellAndMemory h s
  · exact fun f => functionLevelReset_keepsBellAndMemory f s
  · exact ⟨hotReset s, rfl, hotReset_keepsBellAndMemory s⟩

end Sys2Proof.Machine

namespace Sys2Proof.Machine
open Sys2Proof.Safety

/-! Querns: flag items, and what an operation of a Plot whose controllers run emits. -/

/-- Table 03-8: the place of each flag. -/
theorem item_qFlags (f : QFlags) :
    QuernOut.f (qFlags f) = flagItem [(7, f.illegal), (6, f.lts), (5, f.ltu), (4, f.eq), (3, f.n), (2, f.zero),
      (1, f.v), (0, f.c)] := by
  obtain ⟨i, ls, lu, e, n, z, v, c⟩ := f
  revert i ls lu e n z v c
  decide

theorem quernEmit_emits (p : Fin 64) (n : Fin 16) (zs : List Word) (f : QFlags) (s : State) :
    quernEmit p n zs f s = emits p n (zs.map .z ++ [.f (qFlags f)]) s := by
  simp [quernEmit, emits]

theorem quernOp_of_runs {p : Fin 64} {s : State} (hr : fabricRuns s p = true) (f : State → State) :
    quernOp p f s = f s := by
  simp [quernOp, hr]

theorem withProduct_of_ok {p : Fin 64} {s : State} (hr : fabricRuns s p = true) (n : Fin 16) (f : State → State) :
    withProduct p n true f s = f s := by
  simp [withProduct, quernOp_of_runs hr]

/-- R158: a product that does not fit its residue suppresses the result. -/
theorem withProduct_of_wrong {p : Fin 64} {s : State} (hr : fabricRuns s p = true) (n : Fin 16) (f : State → State) :
    withProduct p n false f s = quernResidue p n s := by
  simp [withProduct, quernOp_of_runs hr]

/-! Products and their residues (R125, R131). -/

theorem toNat_prodU (a b : Word) : (prodU a b).toNat = a.toNat * b.toNat := by
  have h : a.toNat * b.toNat < 2 ^ 48 * 2 ^ 48 := Nat.mul_lt_mul'' a.isLt b.isLt
  simp only [prodU, BitVec.toNat_ofNat]
  omega

theorem toInt_prodS (a b : Word) : (prodS a b).toInt = a.toInt * b.toInt := by
  have hle := BitVec.toInt_mul_toInt_le (x := a) (y := b)
  have hge := BitVec.le_toInt_mul_toInt (x := a) (y := b)
  exact BitVec.toInt_ofInt_eq_self (by decide) (by omega) (by omega)

theorem residueOkU_prodU (a b : Word) : residueOkU a b (prodU a b) = true := by
  simp [residueOkU, toNat_prodU, Nat.mul_mod]

theorem residueOkS_prodS (a b : Word) : residueOkS a b (prodS a b) = true := by
  simp [residueOkS, toInt_prodS, Int.mul_emod]

/-- Turning bit k of a number adds 2^k or takes it away. -/
theorem xor_two_pow_eq (n k : Nat) : n ^^^ 2 ^ k = n + 2 ^ k ∨ (n ^^^ 2 ^ k) + 2 ^ k = n := by
  have hsplit (m : Nat) : m = 2 ^ k * (m / 2 ^ k) + m % 2 ^ k := (Nat.div_add_mod m (2 ^ k)).symm
  have hdiv : (n ^^^ 2 ^ k) / 2 ^ k = n / 2 ^ k ^^^ 1 := by
    rw [Nat.xor_div_two_pow, Nat.div_self (Nat.two_pow_pos k)]
  have hmod : (n ^^^ 2 ^ k) % 2 ^ k = n % 2 ^ k := by simp [Nat.xor_mod_two_pow]
  have hx := hsplit (n ^^^ 2 ^ k)
  have hn := hsplit n
  rw [hdiv, hmod] at hx
  rcases Nat.even_or_odd (n / 2 ^ k) with he | ho
  · rw [Nat.xor_one_of_even he, Nat.mul_add] at hx
    omega
  · obtain ⟨m, hm⟩ := ho
    rw [Nat.xor_one_of_odd ⟨m, hm⟩, hm, Nat.add_sub_cancel] at hx
    rw [hm, Nat.mul_add] at hn
    omega

/-- No power of 2 is a multiple of 3. -/
theorem two_pow_mod_three (k : Nat) : 2 ^ k % 3 = 1 ∨ 2 ^ k % 3 = 2 := by
  induction k with
  | zero => decide
  | succ k ih => omega

theorem toNat_turnBit (x : BitVec 96) (k : Fin 96) : (x ^^^ 1#96 <<< k.val).toNat = x.toNat ^^^ 2 ^ k.val := by
  have hk : 2 ^ k.val < 2 ^ 96 := Nat.pow_lt_pow_right (by decide) k.isLt
  rw [BitVec.toNat_xor, BitVec.toNat_shiftLeft, Nat.shiftLeft_eq, BitVec.toNat_ofNat,
    Nat.one_mod_two_pow (by decide), one_mul, Nat.mod_eq_of_lt hk]

theorem toNat_turnBit_mod_three (x : BitVec 96) (k : Fin 96) :
    (x ^^^ 1#96 <<< k.val).toNat % 3 ≠ x.toNat % 3 := by
  have h := xor_two_pow_eq x.toNat k.val
  have h3 := two_pow_mod_three k.val
  rw [toNat_turnBit]
  omega

theorem msb_turnBit (x : BitVec 96) (k : Fin 96) :
    (x ^^^ 1#96 <<< k.val).msb = (x.msb ^^ decide (k.val = 95)) := by
  have hone : (1#96 <<< k.val).msb = decide (k.val = 95) := by revert k; decide
  rw [BitVec.msb_xor, hone]

/-- A wrong bit moves the signed reading by a power of 2 as well: the sign bit by 2^95, any other
without a change of sign. -/
theorem toInt_turnBit_mod_three (x : BitVec 96) (k : Fin 96) :
    (x ^^^ 1#96 <<< k.val).toInt % 3 ≠ x.toInt % 3 := by
  have h := xor_two_pow_eq x.toNat k.val
  have h3 := two_pow_mod_three k.val
  rw [← toNat_turnBit] at h
  have hlt : (x ^^^ 1#96 <<< k.val).toNat < 2 ^ 96 := BitVec.isLt _
  have hsign : 2 * (x ^^^ 1#96 <<< k.val).toNat < 2 ^ 96 ↔ (2 * x.toNat < 2 ^ 96 ↔ k.val ≠ 95) := by
    rw [← BitVec.msb_eq_false_iff_two_mul_lt, ← BitVec.msb_eq_false_iff_two_mul_lt, msb_turnBit]
    cases x.msb <;> simp
  rw [BitVec.toInt_eq_toNat_cond, BitVec.toInt_eq_toNat_cond x]
  generalize (x ^^^ 1#96 <<< k.val).toNat = m at h hlt hsign ⊢
  by_cases hk : k.val = 95
  · rw [hk] at h
    split <;> split <;> omega
  · split <;> split <;> omega

/-- R131: whatever single bit of a product is wrong, its residue is not the one that the operands give. -/
theorem residueOkU_turnBit (a b : Word) (k : Fin 96) : residueOkU a b (prodU a b ^^^ 1#96 <<< k.val) = false := by
  have h := toNat_turnBit_mod_three (prodU a b) k
  rw [toNat_prodU, Nat.mul_mod] at h
  simpa [residueOkU] using h

theorem residueOkS_turnBit (a b : Word) (k : Fin 96) : residueOkS a b (prodS a b ^^^ 1#96 <<< k.val) = false := by
  have h := toInt_turnBit_mod_three (prodS a b) k
  rw [toInt_prodS, Int.mul_emod] at h
  simpa [residueOkS] using h

/-! The product operations, without and with a wrong bit. -/

theorem exec_mulU (p : Fin 64) (n : Fin 16) (a b : Word) (u : BitVec 96) (s : State) :
    exec (.mulU p n a b u) s = execMulU p n a b u s := rfl
theorem exec_mulS (p : Fin 64) (n : Fin 16) (a b : Word) (u : BitVec 96) (s : State) :
    exec (.mulS p n a b u) s = execMulS p n a b u s := rfl
theorem exec_macU (p : Fin 64) (n : Fin 16) (a b : Word) (u : BitVec 96) (s : State) :
    exec (.macU p n a b u) s = execMacU p n a b u s := rfl
theorem exec_macS (p : Fin 64) (n : Fin 16) (a b : Word) (u : BitVec 96) (s : State) :
    exec (.macS p n a b u) s = execMacS p n a b u s := rfl
theorem exec_msuS (p : Fin 64) (n : Fin 16) (a b : Word) (u : BitVec 96) (s : State) :
    exec (.msuS p n a b u) s = execMsuS p n a b u s := rfl

theorem quernMul_of_ok {p : Fin 64} {s : State} (hr : fabricRuns s p = true) (n : Fin 16) (x : BitVec 96) :
    quernMul p n true x s =
      emits p n [.z (x.extractLsb' 0 48), .z (x.extractLsb' 48 48), flagItem [(2, x == 0)]] s := by
  simp [quernMul, withProduct_of_ok hr, quernEmit_emits, prodItems, item_qFlags, flagItem]

theorem quernAcc_of_ok {p : Fin 64} {s : State} (hr : fabricRuns s p = true) (n : Fin 16) (x : Int)
    (v : BitVec 104 → Bool) :
    let acc := s.plots[p].querns[n].acc
    let acc' := BitVec.ofInt 104 (acc.toInt + x)
    quernAcc p n true x v s =
      emits p n [flagItem [(3, acc'.getLsbD 103), (2, acc' == 0), (1, v acc)]] (accTakes p n acc' s) := by
  simp [quernAcc, withProduct_of_ok hr, quernEmit_emits, accFlags, item_qFlags, flagItem, accTakes, BitVec.ofInt_add]

theorem quernMul_of_wrong {p : Fin 64} {s : State} (hr : fabricRuns s p = true) (n : Fin 16) (x : BitVec 96) :
    quernMul p n false x s = quernResidue p n s := withProduct_of_wrong hr n _

theorem quernAcc_of_wrong {p : Fin 64} {s : State} (hr : fabricRuns s p = true) (n : Fin 16) (x : Int)
    (v : BitVec 104 → Bool) : quernAcc p n false x v s = quernResidue p n s := withProduct_of_wrong hr n _

/-- Settles O6: one wrong bit moves the product by a power of 2, no multiple of 3, so the residue check fails. -/
theorem wrongProductBitIsSuppressed : Obligations.WrongProductBitIsSuppressed := by
  intro s p n a b k hr
  refine ⟨?_, ?_, ?_, ?_, ?_⟩
  · rw [exec_mulU, execMulU, residueOkU_turnBit, quernMul_of_wrong hr, quernResidue]
  · rw [exec_mulS, execMulS, residueOkS_turnBit, quernMul_of_wrong hr, quernResidue]
  · rw [exec_macU, execMacU, residueOkU_turnBit, quernAcc_of_wrong hr, quernResidue]
  · rw [exec_macS, execMacS, residueOkS_turnBit, quernAcc_of_wrong hr, quernResidue]
  · rw [exec_msuS, execMsuS, residueOkS_turnBit, quernAcc_of_wrong hr, quernResidue]

/-- A product without a wrong bit is the product. -/
theorem no_upset (x : BitVec 96) : x ^^^ 0 = x := BitVec.xor_zero

theorem execMulU_exact {p : Fin 64} {s : State} (hr : fabricRuns s p = true) (n : Fin 16) (a b : Word) :
    execMulU p n a b 0 s = .next (emits p n [.z ((prodU a b).extractLsb' 0 48), .z ((prodU a b).extractLsb' 48 48),
      flagItem [(2, prodU a b == 0)]] s) := by
  rw [execMulU, no_upset, residueOkU_prodU, quernMul_of_ok hr]

theorem execMulS_exact {p : Fin 64} {s : State} (hr : fabricRuns s p = true) (n : Fin 16) (a b : Word) :
    execMulS p n a b 0 s = .next (emits p n [.z ((prodS a b).extractLsb' 0 48), .z ((prodS a b).extractLsb' 48 48),
      flagItem [(2, prodS a b == 0)]] s) := by
  rw [execMulS, no_upset, residueOkS_prodS, quernMul_of_ok hr]

/-- The sum of ACC and an unsigned product, read as a signed ACC and an integer, is the same 104 bits. -/
theorem ofInt_acc_add (acc : BitVec 104) (x : Nat) :
    BitVec.ofInt 104 (acc.toInt + x) = BitVec.ofNat 104 (acc.toNat + x) := by
  simp [BitVec.ofInt_add, BitVec.ofNat_add]

/-- R126: the third item of ACC is its top byte, sign-extended. -/
theorem accItems_eq (acc : BitVec 104) :
    accItems acc = [acc.extractLsb' 0 48, acc.extractLsb' 48 48,
      (if acc.getLsbD 103 then (0xFFFFFFFFFF#40) else 0#40) ++ acc.extractLsb' 96 8] := by
  have hm : (acc.extractLsb' 96 8).msb = acc.getLsbD 103 := by simp [BitVec.msb_eq_getLsbD_last]
  simp only [accItems, BitVec.signExtend_eq_append_of_le (by decide : 8 ≤ 48), hm]
  rfl

/-- ACC as it leaves, and the flag item with its ZERO. -/
def accRead (acc : BitVec 104) : List QuernOut := (accItems acc).map .z ++ [flagItem [(2, acc == 0)]]

theorem execAccRead_exact {p : Fin 64} {s : State} (hr : fabricRuns s p = true) (n : Fin 16) :
    execAccRead p n s = .next (emits p n (accRead s.plots[p].querns[n].acc) s) := by
  simp [execAccRead, quernOp_of_runs hr, quernEmit_emits, zeroFlag, item_qFlags, flagItem, accRead]

theorem execAccReadClear_exact {p : Fin 64} {s : State} (hr : fabricRuns s p = true) (n : Fin 16) :
    execAccReadClear p n s = .next (emits p n (accRead s.plots[p].querns[n].acc) (accTakes p n 0 s)) := by
  simp [execAccReadClear, quernOp_of_runs hr, quernEmit_emits, zeroFlag, item_qFlags, flagItem, accRead, accTakes]

theorem execAccClear_exact {p : Fin 64} {s : State} (hr : fabricRuns s p = true) (n : Fin 16) :
    execAccClear p n s = .next (emits p n [flagItem [(2, true)]] (accTakes p n 0 s)) := by
  simp [execAccClear, quernOp_of_runs hr, quernEmit_emits, zeroFlag, item_qFlags, flagItem, accTakes]

/-- Settles O5: a right product passes its residue check, and ACC takes the exact sum modulo 2^104. -/
theorem productsAndAccumulatorAreExact : Obligations.ProductsAndAccumulatorAreExact := by
  refine ⟨fun s p n a b hr => ⟨?_, ?_⟩, fun s p n a b hr => ⟨?_, ?_, ?_⟩, fun s p n hr => ⟨?_, ?_, ?_⟩⟩
  · exact execMulU_exact hr n a b
  · exact execMulS_exact hr n a b
  · rw [exec_macU, execMacU, no_upset, residueOkU_prodU, quernAcc_of_ok hr, toNat_prodU, ofInt_acc_add]
    rfl
  · rw [exec_macS, execMacS, no_upset, residueOkS_prodS, quernAcc_of_ok hr, toInt_prodS]
    simp [accOverflowS]
  · rw [exec_msuS, execMsuS, no_upset, residueOkS_prodS, quernAcc_of_ok hr, toInt_prodS]
    simp [accOverflowS, Int.sub_eq_add_neg]
  · exact (execAccRead_exact hr n).trans (by rw [accRead, accItems_eq]; rfl)
  · exact (execAccReadClear_exact hr n).trans (by rw [accRead, accItems_eq]; rfl)
  · exact execAccClear_exact hr n

end Sys2Proof.Machine

namespace Sys2Proof.Machine
open Sys2Proof.Safety

/-! Word operations (R124, R128). -/

/-- The overflow flag, which looks at sign bits, is the overflow of the exact sum. -/
theorem addFlags_eq (a b : Word) :
    addFlags a b =
      { n := (a + b).getLsbD 47, zero := a + b == 0, c := decide (2 ^ 48 ≤ a.toNat + b.toNat),
        v := decide (a.toInt + b.toInt < -(2 ^ 47) ∨ 2 ^ 47 ≤ a.toInt + b.toInt) } := by
  have h := BitVec.saddOverflow_eq a b
  simp only [BitVec.saddOverflow, BitVec.msb_eq_getLsbD_last] at h
  simp only [addFlags, QFlags.mk.injEq, true_and, and_true, Bool.decide_or]
  rw [Bool.or_comm]
  exact h.symm

theorem subFlags_eq (a b : Word) :
    subFlags a b =
      { n := (a - b).getLsbD 47, zero := a - b == 0, c := decide (a.toNat < b.toNat),
        v := decide (a.toInt - b.toInt < -(2 ^ 47) ∨ 2 ^ 47 ≤ a.toInt - b.toInt) } := by
  have h := BitVec.ssubOverflow_eq a b
  simp only [BitVec.ssubOverflow, BitVec.msb_eq_getLsbD_last] at h
  simp only [subFlags, QFlags.mk.injEq, true_and, and_true, Bool.decide_or]
  rw [Bool.or_comm]
  refine Eq.trans ?_ h.symm
  cases a.getLsbD 47 <;> cases b.getLsbD 47 <;> simp

theorem ofNat_toNat_add (a b : Word) : BitVec.ofNat 48 (a.toNat + b.toNat) = a + b := by
  rw [BitVec.ofNat_add, BitVec.ofNat_toNat, BitVec.ofNat_toNat, BitVec.setWidth_eq, BitVec.setWidth_eq]

theorem ofInt_toInt_sub (a b : Word) : BitVec.ofInt 48 (a.toInt - b.toInt) = a - b := by
  rw [Int.sub_eq_add_neg, BitVec.ofInt_add, BitVec.ofInt_neg, BitVec.ofInt_toInt, BitVec.ofInt_toInt,
    BitVec.sub_eq_add_neg]

theorem quernEmit_of_runs {p : Fin 64} {s : State} (hr : fabricRuns s p = true) (n : Fin 16) (zs : List Word)
    (f : QFlags) : quernOp p (quernEmit p n zs f) s = emits p n (zs.map .z ++ [.f (qFlags f)]) s := by
  rw [quernOp_of_runs hr, quernEmit_emits]

theorem item_resultFlags (n z v c : Bool) :
    QuernOut.f (qFlags { n, zero := z, v, c }) = flagItem [(3, n), (2, z), (1, v), (0, c)] := by
  simp [item_qFlags, flagItem]

theorem item_compareFlags (a b : Word) :
    QuernOut.f (qFlags (cmpFlags a b)) =
      flagItem [(6, a.toInt < b.toInt), (5, a.toNat < b.toNat), (4, a == b)] := by
  simp [item_qFlags, flagItem, cmpFlags]

/-! Shifts. -/

theorem getLsbD_eq_div (a : Word) (i : Nat) : a.getLsbD i = (a.toNat / 2 ^ i % 2 == 1) := by
  rw [BitVec.getLsbD, Nat.testBit_eq_decide_div_mod_eq]; rfl

theorem shlZ_eq (a b : Word) :
    shlZ a b = if b.toNat % 64 < 48 then BitVec.ofNat 48 (a.toNat * 2 ^ (b.toNat % 64)) else 0 := by
  unfold shlZ shAmt
  split
  case isTrue h =>
    apply BitVec.eq_of_toNat_eq
    rw [BitVec.toNat_shiftLeft, Nat.shiftLeft_eq, BitVec.toNat_ofNat]
  case isFalse h => exact BitVec.shiftLeft_eq_zero (by omega)

theorem shrLZ_eq (a b : Word) :
    shrLZ a b = if b.toNat % 64 < 48 then BitVec.ofNat 48 (a.toNat / 2 ^ (b.toNat % 64)) else 0 := by
  unfold shrLZ shAmt
  split
  case isTrue h => rw [← Nat.shiftRight_eq_div_pow, ← BitVec.toNat_ushiftRight, BitVec.ofNat_toNat, BitVec.setWidth_eq]
  case isFalse h => exact BitVec.ushiftRight_eq_zero (by omega)

theorem shrAZ_eq (a b : Word) :
    shrAZ a b = if b.toNat % 64 < 48 then BitVec.ofInt 48 (a.toInt / 2 ^ (b.toNat % 64))
      else if a.toInt < 0 then BitVec.allOnes 48 else 0 := by
  unfold shrAZ shAmt
  split
  case isTrue h =>
    rw [← BitVec.ofInt_toInt (x := a.sshiftRight (b.toNat % 64)), BitVec.toInt_sshiftRight, Int.shiftRight_eq_div_pow]
    norm_cast
  case isFalse h =>
    have hsign := BitVec.msb_eq_toInt (x := a)
    cases hm : a.msb
    · rw [BitVec.sshiftRight_eq_of_msb_false hm, BitVec.ushiftRight_eq_zero (by omega)]
      simp_all
    · rw [BitVec.sshiftRight_eq_of_msb_true hm, BitVec.ushiftRight_eq_zero (by omega)]
      simp_all

theorem shiftOut_left (a : Word) (k : Nat) :
    shiftOut a k true false = (k != 0 && decide (k ≤ 48) && a.toNat / 2 ^ (48 - k) % 2 == 1) := by
  rw [← getLsbD_eq_div]
  unfold shiftOut
  split
  case isTrue h => simp [h]
  case isFalse h => by_cases hk : k ≤ 48 <;> simp [h, hk]

theorem shiftOut_right (a : Word) (k : Nat) (sign : Bool) :
    shiftOut a k false sign = (k != 0 && (if k ≤ 48 then a.toNat / 2 ^ (k - 1) % 2 == 1 else sign)) := by
  rw [← getLsbD_eq_div]
  unfold shiftOut
  split
  case isTrue h => simp [h]
  case isFalse h => by_cases hk : k ≤ 48 <;> simp [h, hk]

/-- What shifts in from the left of a logical shift is 0. -/
theorem shiftOut_right_zero (a : Word) (k : Nat) :
    shiftOut a k false false = (k != 0 && decide (k ≤ 48) && a.toNat / 2 ^ (k - 1) % 2 == 1) := by
  rw [shiftOut_right]
  by_cases hk : k ≤ 48 <;> simp [hk]

theorem getLsbD_47_eq (a : Word) : a.getLsbD 47 = decide (a.toInt < 0) := by
  simpa [BitVec.msb_eq_getLsbD_last] using BitVec.msb_eq_toInt (x := a)

/-- A shift emits its result and the flags of it, with the last bit shifted out. -/
theorem shift_of_runs {p : Fin 64} {s : State} (hr : fabricRuns s p = true) (n : Fin 16) (z : Word) (c : Bool) :
    Host.Outcome.next (quernOp p (quernEmit p n [z] (shiftFlags z c)) s) =
      (.next (emits p n [.z z, flagItem [(3, z.getLsbD 47), (2, z == 0), (0, c)]] s) : Res) := by
  simp [quernEmit_of_runs hr, shiftFlags, item_qFlags, flagItem]

theorem execAdd_flags {p : Fin 64} {s : State} (hr : fabricRuns s p = true) (n : Fin 16) (a b : Word) :
    execAdd p n a b s = .next (emits p n [.z (a + b), flagItem [(3, (a + b).getLsbD 47), (2, a + b == 0),
      (1, decide (a.toInt + b.toInt < -(2 ^ 47) ∨ 2 ^ 47 ≤ a.toInt + b.toInt)),
      (0, decide (2 ^ 48 ≤ a.toNat + b.toNat))]] s) := by
  rw [execAdd, quernEmit_of_runs hr, addFlags_eq, item_resultFlags]
  rfl

theorem execSub_flags {p : Fin 64} {s : State} (hr : fabricRuns s p = true) (n : Fin 16) (a b : Word) :
    execSub p n a b s = .next (emits p n [.z (a - b), flagItem [(3, (a - b).getLsbD 47), (2, a - b == 0),
      (1, decide (a.toInt - b.toInt < -(2 ^ 47) ∨ 2 ^ 47 ≤ a.toInt - b.toInt)),
      (0, decide (a.toNat < b.toNat))]] s) := by
  rw [execSub, quernEmit_of_runs hr, subFlags_eq, item_resultFlags]
  rfl

/-- Settles O7: signed overflow is the disagreement of the sign bits, and each shift is a product or quotient by a
power of 2 while the amount stays below 48. -/
theorem wordOperationsAreExact : Obligations.WordOperationsAreExact := by
  refine ⟨fun s p n a b hr => ⟨?_, ?_, ?_, ?_⟩, fun s p n a b hr => ⟨?_, ?_, ?_⟩⟩
  · exact (execAdd_flags hr n a b).trans (by rw [ofNat_toNat_add])
  · exact (execSub_flags hr n a b).trans (by rw [ofInt_toInt_sub])
  · exact congrArg Host.Outcome.next ((quernEmit_of_runs hr n _ _).trans (by rw [item_compareFlags]; rfl))
  · exact congrArg Host.Outcome.next ((quernEmit_of_runs hr n _ _).trans (by simp [item_qFlags, flagItem]))
  · rw [← shlZ_eq, ← shiftOut_left]
    exact shift_of_runs hr n (shlZ a b) _
  · rw [← shrLZ_eq, ← shiftOut_right_zero]
    exact shift_of_runs hr n (shrLZ a b) _
  · rw [← shrAZ_eq, ← getLsbD_47_eq, ← shiftOut_right]
    exact shift_of_runs hr n (shrAZ a b) _

end Sys2Proof.Machine

namespace Sys2Proof.Machine
open Sys2Proof.Safety

/-! GFMUL and the field (R129, R130). -/

/-- A symbol times x, reduced. -/
def gfDouble (poly r : BitVec 10) : BitVec 10 := (r <<< 1) ^^^ (if r.getLsbD 9 then poly else 0#10)

/-- One step of a product from the highest bit down: r times x, and a when the bit is set. -/
def gfStep (poly a b r : BitVec 10) (i : Nat) : BitVec 10 :=
  gfDouble poly r ^^^ (if b.getLsbD (9 - i) then a else 0#10)

theorem gfMul_eq_foldl (poly a b : BitVec 10) : gfMul poly a b = (List.range 10).foldl (gfStep poly a b) 0#10 := by
  have hstep : gfStep poly a b = fun r i =>
      if b.getLsbD (9 - i) then gfDouble poly r ^^^ a else gfDouble poly r := by
    funext r i
    unfold gfStep
    cases b.getLsbD (9 - i) <;> simp
  rw [hstep]
  rfl

theorem ite_xor_bits (x y : Bool) (v : BitVec 10) :
    (if x ^^ y then v else 0#10) = (if x then v else 0#10) ^^^ (if y then v else 0#10) := by
  cases x <;> cases y <;> simp

theorem ite_xor_values (x : Bool) (v w : BitVec 10) :
    (if x then v ^^^ w else 0#10) = (if x then v else 0#10) ^^^ (if x then w else 0#10) := by
  cases x <;> simp

@[simp] theorem gfDouble_zero (poly : BitVec 10) : gfDouble poly 0#10 = 0#10 := by simp [gfDouble]

/-- A symbol whose highest bit is clear is doubled without a reduction. -/
theorem gfDouble_of_clear (poly r : BitVec 10) (h : r.getLsbD 9 = false) : gfDouble poly r = r <<< 1 := by
  rw [gfDouble, h]
  simp

theorem gfDouble_xor (poly r t : BitVec 10) : gfDouble poly (r ^^^ t) = gfDouble poly r ^^^ gfDouble poly t := by
  simp only [gfDouble, BitVec.shiftLeft_xor_distrib, BitVec.getLsbD_xor, ite_xor_bits]
  ac_rfl

/-- Steps of two products add up to a step of the product of the sum. -/
theorem gfStep_xor_left (poly a b c r t : BitVec 10) (i : Nat) :
    gfStep poly a c r i ^^^ gfStep poly b c t i = gfStep poly (a ^^^ b) c (r ^^^ t) i := by
  simp only [gfStep, gfDouble_xor, ite_xor_values]
  ac_rfl

theorem gfStep_xor_right (poly a b c r t : BitVec 10) (i : Nat) :
    gfStep poly c a r i ^^^ gfStep poly c b t i = gfStep poly c (a ^^^ b) (r ^^^ t) i := by
  simp only [gfStep, gfDouble_xor, BitVec.getLsbD_xor, ite_xor_bits]
  ac_rfl

theorem gfStep_double (poly a b r : BitVec 10) (i : Nat) :
    gfStep poly (gfDouble poly a) b (gfDouble poly r) i = gfDouble poly (gfStep poly a b r i) := by
  rw [gfStep, gfStep, gfDouble_xor]
  cases b.getLsbD (9 - i) <;> simp

theorem gfMul_xor_left (poly a b c : BitVec 10) : gfMul poly (a ^^^ b) c = gfMul poly a c ^^^ gfMul poly b c := by
  simp only [gfMul_eq_foldl]
  exact List.foldl_hom₂ (List.range 10) (· ^^^ ·) (gfStep poly a c) (gfStep poly b c) (gfStep poly (a ^^^ b) c)
    0#10 0#10
    fun r t i => gfStep_xor_left poly a b c r t i

theorem gfMul_xor_right (poly a b c : BitVec 10) : gfMul poly c (a ^^^ b) = gfMul poly c a ^^^ gfMul poly c b := by
  simp only [gfMul_eq_foldl]
  exact List.foldl_hom₂ (List.range 10) (· ^^^ ·) (gfStep poly c a) (gfStep poly c b) (gfStep poly c (a ^^^ b))
    0#10 0#10
    fun r t i => gfStep_xor_right poly a b c r t i

theorem gfMul_double (poly a b : BitVec 10) : gfMul poly (gfDouble poly a) b = gfDouble poly (gfMul poly a b) := by
  rw [gfMul_eq_foldl, gfMul_eq_foldl, ← List.foldl_hom (gfDouble poly) (gfStep_double poly a b), gfDouble_zero]

theorem gfMul_zero_right (poly a : BitVec 10) : gfMul poly a 0#10 = 0#10 := by
  simpa using gfMul_xor_right poly 0#10 0#10 a

theorem gfMul_zero_left (poly a : BitVec 10) : gfMul poly 0#10 a = 0#10 := by
  simpa using gfMul_xor_left poly 0#10 0#10 a

/-- Only the last step finds a bit of 1 set. -/
theorem gfMul_one_right (poly a : BitVec 10) : gfMul poly a 1#10 = a := by
  have hzero : ∀ n ≤ 9, (List.range n).foldl (gfStep poly a 1#10) 0#10 = 0#10 := by
    intro n hn
    induction n with
    | zero => rfl
    | succ n ih =>
      have hbit : (1#10).getLsbD (9 - n) = false := by simp; omega
      rw [List.range_succ, List.foldl_append, ih (by omega)]
      simp [gfStep, hbit]
  rw [gfMul_eq_foldl, List.range_succ, List.foldl_append, hzero 9 (by decide)]
  simp [gfStep]

/-- One bit less shifted out: the bits above move up and the next bit enters. -/
theorem shiftRight_takes_bit (a : BitVec 10) (n : Nat) (hn : n < 10) :
    (a >>> (10 - n)) <<< 1 ^^^ (if a.getLsbD (9 - n) then 1#10 else 0#10) = a >>> (10 - (n + 1)) := by
  apply BitVec.eq_of_getLsbD_eq
  intro i hi
  cases i with
  | zero => cases h : a.getLsbD (9 - n) <;> simp [h, show 10 - (n + 1) = 9 - n by omega]
  | succ i =>
    have hplace : 10 - n + i = 10 - (n + 1) + (i + 1) := by omega
    cases h : a.getLsbD (9 - n) <;> simp [hi, hplace]

/-- The product of 1 and a symbol takes in the symbol's bits from the top and never reaches x^10. -/
theorem gfMul_one_left (poly a : BitVec 10) : gfMul poly 1#10 a = a := by
  have htop : ∀ n ≤ 10, (List.range n).foldl (gfStep poly 1#10 a) 0#10 = a >>> (10 - n) := by
    intro n hn
    induction n with
    | zero => exact (BitVec.ushiftRight_eq_zero (by decide)).symm
    | succ n ih =>
      have hclear : (a >>> (10 - n)).getLsbD 9 = false := by
        rw [BitVec.getLsbD_ushiftRight, BitVec.getLsbD_of_ge _ _ (by omega)]
      rw [List.range_succ, List.foldl_append, ih (by omega), List.foldl_cons, List.foldl_nil, gfStep,
        gfDouble_of_clear _ _ hclear]
      exact shiftRight_takes_bit a n (by omega)
  rw [gfMul_eq_foldl, htop 10 (by decide)]
  simp

/-- A field that stands above the lowest symbol of a word. -/
theorem extract_above {v start len : Nat} (hi : BitVec v) (lo : BitVec 10) :
    (hi ++ lo).extractLsb' (start + 10) len = hi.extractLsb' start len := by
  rw [BitVec.extractLsb'_append_eq_of_le (by omega), Nat.add_sub_cancel]

/-- The fields of a word that is laid out as a top byte and four symbols. -/
theorem extract_symbols (t : BitVec 8) (m : Nat → BitVec 10) :
    (t ++ m 3 ++ m 2 ++ m 1 ++ m 0).extractLsb' 40 8 = t ∧
      ∀ k < 4, (t ++ m 3 ++ m 2 ++ m 1 ++ m 0).extractLsb' (10 * k) 10 = m k := by
  refine ⟨?_, fun k hk => ?_⟩
  · rw [extract_above, extract_above, extract_above, extract_above, BitVec.extractLsb'_eq_self]
  · interval_cases k
    · rw [BitVec.extractLsb'_append_eq_right]
    · rw [extract_above, BitVec.extractLsb'_append_eq_right]
    · rw [extract_above, extract_above, BitVec.extractLsb'_append_eq_right]
    · rw [extract_above, extract_above, extract_above, BitVec.extractLsb'_append_eq_right]

theorem gfmulZ_fields (poly : BitVec 10) (a b : Word) :
    (gfmulZ poly a b).extractLsb' 40 8 = 0 ∧ ∀ k < 4, (gfmulZ poly a b).extractLsb' (10 * k) 10 =
      gfMul poly (a.extractLsb' (10 * k) 10) (b.extractLsb' (10 * k) 10) :=
  extract_symbols 0#8 fun k => gfMul poly (a.extractLsb' (10 * k) 10) (b.extractLsb' (10 * k) 10)

theorem execGfmul_emits {p : Fin 64} {s : State} (hr : fabricRuns s p = true) (n : Fin 16) (a b : Word) :
    let z := gfmulZ s.plots[p].querns[n].gfpoly a b
    execGfmul p n a b s = .next (emits p n [.z z, flagItem [(2, z == 0)]] s) := by
  simp [execGfmul, quernOp_of_runs hr, quernEmit_emits, zeroFlag, item_qFlags, flagItem]

/-- Settles O8: a product is a loop of steps that are linear in each factor, so the loop is. -/
theorem gfmulWorksOnFieldSymbols : Obligations.GfmulWorksOnFieldSymbols := by
  refine ⟨fun s p n a b hr => ⟨gfmulZ s.plots[p].querns[n].gfpoly a b,
    execGfmul_emits hr n a b, gfmulZ_fields _ a b⟩, ?_⟩
  exact fun poly a b c => ⟨gfMul_one_right poly a, gfMul_one_left poly a, gfMul_zero_right poly a,
      gfMul_zero_left poly a, gfMul_xor_left poly a b c, gfMul_xor_right poly a b c, gfMul_double poly a b⟩

end Sys2Proof.Machine

namespace Sys2Proof.Machine

/-! What a Holding reset leaves of its Plots. -/

/-- A Plot but for the forcing of its Granary map, which a Holding reset may end (R351, R361). -/
def Plot.fabric (x : Plot) : Plot := { x with forced := false, ownAt := 0 }

theorem fabric_fields {x y : Plot} (h : x.fabric = y.fabric) :
    x.owner = y.owner ∧ x.config = y.config ∧ x.binMem = y.binMem ∧ x.calTrim = y.calTrim ∧ x.cyclePs = y.cyclePs ∧
      x.calibrated = y.calibrated ∧ x.chans = y.chans ∧ x.phase = y.phase ∧ x.hold = y.hold ∧ x.querns = y.querns := by
  have hfield {α : Type} (g : Plot → α) : g x.fabric = g y.fabric := congrArg g h
  exact ⟨hfield (·.owner), hfield (·.config), hfield (·.binMem), hfield (·.calTrim), hfield (·.cyclePs),
    hfield (·.calibrated), hfield (·.chans), hfield (·.phase), hfield (·.hold), hfield (·.querns)⟩

/-- From s to t the Plots stay, but for the forcing of their Granary maps. -/
@[simp] abbrev SameFabric (s t : State) : Prop := t.plots.map Plot.fabric = s.plots.map Plot.fabric

theorem SameFabric.get {s t : State} (h : SameFabric s t) (p : Fin 64) : t.plots[p].fabric = s.plots[p].fabric := by
  simpa using congrArg (fun v => v[p]) h

/-! Answers, changes of state and check-value units leave the Plots. -/

theorem eachOf_plots {α : Type} (l : List α) (f : α → State → State) (s : State)
    (h : ∀ i t, (f i t).plots = t.plots) : (eachOf l f s).plots = s.plots :=
  eachOf_rel (fun s t => t.plots = s.plots) (fun _ => rfl) (fun _ _ _ hst htu => htu.trans hst) l f s h
theorem eachFin_plots (n : Nat) (f : Fin n → State → State) (s : State)
    (h : ∀ i t, (f i t).plots = t.plots) : (eachFin n f s).plots = s.plots := eachOf_plots (List.finRange n) f s h

@[simp] theorem pf0Respond_plots (k : Fin 8) (msg : List Byte) (len : Nat) (s : State) :
    (pf0Respond k msg len s).plots = s.plots := by
  unfold pf0Respond; split <;> simp
@[simp] theorem ssp1Respond_plots (msg : List Byte) (len : Nat) (s : State) :
    (ssp1Respond msg len s).plots = s.plots := by
  unfold ssp1Respond; split <;> simp
@[simp] theorem noResponse_plots (p : Path) (s : State) : (noResponse p s).plots = s.plots := by
  unfold noResponse; split <;> simp
@[simp] theorem sendResponse_plots (p : Path) (sess ctr : BitVec 32) (inner : List Byte) (s : State) :
    (sendResponse p sess ctr inner s).plots = s.plots := by
  unfold sendResponse; split <;> simp
@[simp] theorem pf0Notice_plots (msg : List Byte) (len : Nat) (s : State) :
    (pf0Notice msg len s).plots = s.plots := by
  unfold pf0Notice; dsimp only; split <;> simp
@[simp] theorem ssp1Notice_plots (msg : List Byte) (s : State) : (ssp1Notice msg s).plots = s.plots := by
  unfold ssp1Notice; split <;> simp
@[simp] theorem sendNotice_plots (p : Path) (sess ctr : BitVec 32) (inner : List Byte) (s : State) :
    (sendNotice p sess ctr inner s).plots = s.plots := by
  unfold sendNotice; split <;> simp
@[simp] theorem closeSession_plots (se : Session) (reason : Byte) (s : State) :
    (closeSession se reason s).plots = s.plots := by
  unfold closeSession; dsimp only; split <;> simp
@[simp] theorem respond_plots (rq : Req) (op st ty : Byte) (bell : BellNo) (body : List Byte) (s : State) :
    (respond rq op st ty bell body s).plots = s.plots := by
  unfold respond; dsimp only; repeat' split
  all_goals simp
@[simp] theorem invokeDone_plots (rq : Option Req) (st : Byte) (b : BellNo) (s : State) :
    (invokeDone rq st b s).plots = s.plots := by
  unfold invokeDone; split <;> simp
@[simp] theorem cutFreezes_plots (h : Fin 32) (s : State) : (cutFreezes h s).plots = s.plots := by
  unfold cutFreezes busyAnswer; simp
@[simp] theorem setState_plots (h : Fin 32) (st : HState) (s : State) : (setState h st s).plots = s.plots := by
  unfold setState refreshHedges; simp
@[simp] theorem commitOut_plots (u : Fin 32) (its : List Item) (s : State) : (commitOut u its s).plots = s.plots := by
  unfold commitOut; split
  · exact eachOf_plots _ _ _ fun _ _ => by simp
  · rfl
@[simp] theorem cvuStop_plots (u : Fin 32) (s : State) : (cvuStop u s).plots = s.plots := by
  unfold cvuStop; dsimp only; repeat' split
  all_goals simp

/-! The end of a snapshot or a restore ends the forcing and nothing else of a Plot. -/

@[simp] theorem unforce_fabric (h : Fin 32) (s : State) : SameFabric s (unforce h s) :=
  eachOf_rel SameFabric (fun _ => rfl) (fun _ _ _ hst htu => htu.trans hst) _ _ _ fun p _ =>
    map_upd_keeps _ _ p _ fun _ => rfl
@[simp] theorem endSnapshot_fabric (st : SnapState) (code : Byte) (s : State) :
    SameFabric s (endSnapshot st code s) := by
  unfold endSnapshot; split <;> simp
@[simp] theorem endRestore_fabric (st : SnapState) (code : Byte) (s : State) :
    SameFabric s (endRestore st code s) := by
  unfold endRestore; split <;> simp
@[simp] theorem cutJobs_fabric (h : Fin 32) (s : State) : SameFabric s (cutJobs h s) := by
  unfold cutJobs; extract_lets s₁
  have h₁ : SameFabric s s₁ := by dsimp only [s₁]; split <;> simp
  clear_value s₁
  repeat' split
  all_goals simp [h₁]

/-! The reset of the Plots. -/

/-- A loop of updates over distinct Plots makes each of its updates once. -/
theorem eachOf_modPlot_get (l : List (Fin 64)) (hl : l.Nodup) (f : Plot → Plot) (s : State) (p : Fin 64) :
    (eachOf l (fun q t => modPlot q f t) s).plots[p] = if p ∈ l then f s.plots[p] else s.plots[p] := by
  induction l generalizing s with
  | nil => rfl
  | cons q l ih =>
    obtain ⟨hq, hl⟩ := List.nodup_cons.mp hl
    refine (ih hl (modPlot q f s)).trans ?_
    by_cases hp : p = q
    · subst hp; simp [hq]
    · simp [hp, upd_other _ _ _ _ hp]

theorem mem_ownedPlots {s : State} {h : Fin 32} (h0 : h ≠ 0) (p : Fin 64) :
    p ∈ ownedPlots s h ↔ s.plots[p].owner = h := by
  simp [ownedPlots, h0]

theorem ownedPlots_nodup (s : State) (h : Fin 32) : (ownedPlots s h).Nodup := (List.nodup_finRange 64).filter _

/-- R162: a Holding reset is `resetPlot` in each of the Holding's Plots, and the other Plots keep their fabric. -/
theorem resetHolding_plot {h : Fin 32} (h0 : h ≠ 0) (s : State) (p : Fin 64) :
    ∃ x : Plot, x.fabric = s.plots[p].fabric ∧
      (resetHolding h s).plots[p] = if s.plots[p].owner = h then resetPlot x else x := by
  unfold resetHolding
  extract_lets s₁ s₂ s₃ s₄ s₅
  have h₃ : SameFabric s s₃ := by simp [s₃, s₂, s₁]
  have h₅ : s₅.plots = s₄.plots := eachOf_plots _ _ _ fun q t => by simp
  have h₆ : (eachFin 32 (fun u t => if cvuHolding t u = h then cvuStop u t else t) s₅).plots = s₅.plots :=
    eachFin_plots 32 _ s₅ fun u t => by split <;> simp
  have hx := h₃.get p
  obtain ⟨howner, -⟩ := fabric_fields hx
  refine ⟨s₃.plots[p], hx, ?_⟩
  rw [h₆, h₅, ← howner]
  simp only [← mem_ownedPlots h0]
  exact eachOf_modPlot_get _ (ownedPlots_nodup s₃ h) resetPlot s₃ p

/-- Settles O24: what the reset changes of a Plot of the Holding is `resetPlot`, and it changes no fabric of another. -/
theorem holdingResetRestsItsPlots : Obligations.HoldingResetRestsItsPlots := by
  intro s h p h0
  obtain ⟨x, hx, hy⟩ := resetHolding_plot h0 s p
  obtain ⟨-, hconfig, hbin, htrim, hcycle, hcal, hchans, hphase, hhold, hquerns⟩ := fabric_fields hx
  dsimp only
  rw [hy]
  by_cases ho : s.plots[p].owner = h
  · have hinit : initialHold x = initialHold s.plots[p] := by rw [initialHold, initialHold, hconfig]
    rw [if_pos ho]
    refine ⟨hconfig, hbin, htrim, hcycle, hcal, ?_, fun _ => ⟨rfl, rfl, hinit, fun n => ?_⟩,
      fun hne => absurd ho hne⟩
    · rw [← hquerns]
      simp [resetPlot]
    · simp [resetPlot]
  · rw [if_neg ho]
    exact ⟨hconfig, hbin, htrim, hcycle, hcal, congrArg (Vector.map (·.gfpoly)) hquerns, fun he => absurd he ho,
      fun _ => ⟨hchans, hphase, hhold, hquerns⟩⟩

end Sys2Proof.Machine

namespace Sys2Proof.Machine
open Sys2Proof.Safety

/-! The slot maps under every command (R44, R45, R74, R293): what a shared operation leaves of them stands in Laws/Slots and
Laws/Legal; the commands below reach them through a request or a branch that those lemmas do not name. -/

/-- What the command leaves of a state whose slot maps are legal has legal slot maps. -/
def keepsLegal (c : Instr) : Prop :=
  ∀ s, legalIn s.slots = true → ∃ t, exec c s = .next t ∧ legalIn t.slots = true

theorem pend_legal {x : Slots} {w : MapWrite} (h : legalIn x = true) (hw : legalMap w.map = true) :
    legalIn { x with pend := x.pend ++ [w] } = true := by
  simp only [legalIn, Bool.and_eq_true, List.all_append, List.all_cons, List.all_nil] at h ⊢
  exact ⟨h.1, h.2, hw, trivial⟩

theorem slotMapWrite_keepsLegal (rq : Req) (m : Fin 18) (b : List Byte) : keepsLegal (.slotMapWrite rq m b) :=
  fun s h => ⟨_, rfl, writeReq_legal _ _ _ _ _ _ _ _ (fun t ht hv _ => by
    rw [afterArbiter_slots]; exact pend_legal ht hv) h⟩

theorem systemUnit_slots {p : Fin 64} {s t : State} (h : systemUnit p s = some t) : t.slots = s.slots := by
  unfold systemUnit at h
  dsimp only at h
  repeat' split at h
  all_goals simp at h
  all_goals subst h; simp

theorem granarySystemUnit_keepsLegal (p : Fin 64) : keepsLegal (.granarySystemUnit p) := by
  refine fun s h => ⟨_, rfl, ?_⟩
  split
  · exact h
  · split
    · exact h
    · next hu => simpa [systemUnit_slots hu] using h

theorem holdingStart_keepsLegal (rq : Req) (h : Fin 32) : keepsLegal (.holdingStart rq h) := by
  refine fun s hs => ⟨_, rfl, invokeReq_legal _ _ _ _ _ _ _ (fun _ t ht _ => ?_) hs⟩
  dsimp only
  split <;> simp [ht]

theorem holdingClear_keepsLegal (rq : Req) (h : Fin 32) : keepsLegal (.holdingClear rq h) := by
  refine fun s hs => ⟨_, rfl, invokeReq_legal _ _ _ _ _ _ _ (fun _ t ht _ => ?_) hs⟩
  unfold onceAction
  split <;> simp [ht]

theorem selftestShutdown_keepsLegal (rq : Req) : keepsLegal (.selftestShutdown rq) :=
  fun s h => ⟨_, rfl, invokeReq_legal _ _ _ _ _ _ _ (fun _ t ht _ => by simp [ht]) h⟩

theorem holdingImageChunkWrite_keepsLegal (rq : Req) (h : Fin 32) (b : List Byte) :
    keepsLegal (.holdingImageChunkWrite rq h b) := by
  refine fun s hs => ⟨_, rfl, serve_legal _ _ _ (fun se t ht => ?_) hs⟩
  dsimp only
  repeat' split
  all_goals simp [ht]

theorem vfEnableWrite_keepsLegal (on ari : Bool) (n : BitVec 16) : keepsLegal (.vfEnableWrite on ari n) := by
  refine fun s h => ⟨_, rfl, ?_⟩
  split
  · exact h
  · rw [eachOf_slots _ _ _ fun _ _ => by simp]; exact h

/-- An INVOKE whose effect leaves the slot maps. -/
theorem invokeReq_keepsLegal {c : Instr} {rq : Req} {ix : BitVec 16} {sub : Nat} {lenOk : Bool}
    {cond : Session → State → Option Byte} {eff : Session → State → State × Option (Byte × BellNo)}
    (hc : ∀ s, exec c s = .next (invokeReq rq ix sub lenOk cond eff s)) (h : ∀ se t, (eff se t).1.slots = t.slots) :
    keepsLegal c := fun s hs => ⟨_, hc s, by rwa [invokeReq_slots _ _ _ _ _ _ _ h]⟩

/-- A WRITE whose effect leaves the slot maps. -/
theorem writeReq_keepsLegal {c : Instr} {rq : Req} {ix : BitVec 16} {sub : Nat} {lenOk valOk : Bool}
    {cond : State → Option Byte} {eff : State → State × BellNo}
    (hc : ∀ s, exec c s = .next (writeReq rq ix sub lenOk valOk cond eff s)) (h : ∀ t, (eff t).1.slots = t.slots) :
    keepsLegal c := fun s hs => ⟨_, hc s, by rwa [writeReq_slots _ _ _ _ _ _ _ _ h]⟩

/-- A SEALED request whose effect leaves the slot maps. -/
theorem serve_keepsLegal {c : Instr} {rq : Req} {run : Session → State → State}
    (hc : ∀ s, exec c s = .next (serve rq run s)) (h : ∀ se t, (run se t).slots = t.slots) :
    keepsLegal c := fun s hs => ⟨_, hc s, by rwa [serve_slots _ _ _ h]⟩

theorem auth_keepsLegal (rq : Req) (c : Cred) (sigOk proofOk : Bool) : keepsLegal (.auth rq c sigOk proofOk) := by
  refine serve_keepsLegal (fun _ => rfl) fun se t => ?_
  repeat' split
  all_goals simp

theorem close_keepsLegal (rq : Req) (reason : Byte) : keepsLegal (.close rq reason) := by
  refine serve_keepsLegal (fun _ => rfl) fun se t => ?_
  dsimp only
  split <;> simp

theorem read_keepsLegal (rq : Req) (ix : BitVec 16) (sub : Byte) (off : BitVec 32) (n : BitVec 16) :
    keepsLegal (.read rq ix sub off n) := by
  refine serve_keepsLegal (fun _ => rfl) fun se t => ?_
  dsimp only
  split <;> simp

theorem rngBytesRead_keepsLegal (rq : Req) : keepsLegal (.rngBytesRead rq) := by
  refine serve_keepsLegal (fun _ => rfl) fun se t => ?_
  dsimp only
  repeat' split
  all_goals simp

theorem write_keepsLegal (rq : Req) (ix : BitVec 16) (sub : Byte) (off : BitVec 32) (ty : Byte) (v : Val) :
    keepsLegal (.write rq ix sub off ty v) := by
  refine serve_keepsLegal (fun _ => rfl) fun se t => ?_
  dsimp only
  repeat' split
  all_goals simp

theorem subscribe_keepsLegal (rq : Req) (ix : BitVec 16) (sub : Byte) (period phase : BitVec 32) :
    keepsLegal (.subscribe rq ix sub period phase) := by
  refine serve_keepsLegal (fun _ => rfl) fun se t => ?_
  dsimp only
  repeat' split
  all_goals simp

theorem villageManifestWrite_keepsLegal (rq : Req) (b : List Byte) (sigOk : Bool) :
    keepsLegal (.villageManifestWrite rq b sigOk) := by
  refine serve_keepsLegal (fun _ => rfl) fun se t => ?_
  dsimp only
  repeat' split
  all_goals simp

theorem attestRun_keepsLegal (rq : Req) (nonce : BitVec 256) : keepsLegal (.attestRun rq nonce) := by
  refine invokeReq_keepsLegal (fun _ => rfl) fun se t => ?_
  split <;> simp

/-- Every command: its branches end in operations that keep the legality or leave the slot maps. -/
theorem exec_keepsLegal (c : Instr) : keepsLegal c := by
  cases c
  case slotMapWrite rq m b => exact slotMapWrite_keepsLegal rq m b
  case granarySystemUnit p => exact granarySystemUnit_keepsLegal p
  case holdingStart rq h => exact holdingStart_keepsLegal rq h
  case holdingClear rq h => exact holdingClear_keepsLegal rq h
  case selftestShutdown rq => exact selftestShutdown_keepsLegal rq
  case holdingImageChunkWrite rq h b => exact holdingImageChunkWrite_keepsLegal rq h b
  case vfEnableWrite on ari n => exact vfEnableWrite_keepsLegal on ari n
  case auth rq c sigOk proofOk => exact auth_keepsLegal rq c sigOk proofOk
  case close rq reason => exact close_keepsLegal rq reason
  case read rq ix sub off n => exact read_keepsLegal rq ix sub off n
  case rngBytesRead rq => exact rngBytesRead_keepsLegal rq
  case write rq ix sub off ty v => exact write_keepsLegal rq ix sub off ty v
  case subscribe rq ix sub period phase => exact subscribe_keepsLegal rq ix sub period phase
  case villageManifestWrite rq b sigOk => exact villageManifestWrite_keepsLegal rq b sigOk
  case attestRun rq nonce => exact attestRun_keepsLegal rq nonce
  case bellRestart => exact invokeReq_keepsLegal (fun _ => rfl) fun _ _ => rfl
  case ssp1Xfer => exact invokeReq_keepsLegal (fun _ => rfl) fun _ _ => rfl
  case cvuStart => exact invokeReq_keepsLegal (fun _ => rfl) fun _ _ => rfl
  case villageLeave => exact invokeReq_keepsLegal (fun _ => rfl) fun _ _ => rfl
  case tallyQuotaWrite => exact writeReq_keepsLegal (fun _ => rfl) fun _ => rfl
  case queueQuotaWrite => exact writeReq_keepsLegal (fun _ => rfl) fun _ => rfl
  case prbsGenWrite => exact writeReq_keepsLegal (fun _ => rfl) fun _ => rfl
  case prbsChkWrite => exact writeReq_keepsLegal (fun _ => rfl) fun _ => rfl
  all_goals
    refine fun s h => ⟨_, rfl, ?_⟩
    try dsimp only
    repeat' split
    all_goals simp [h]

theorem idle_legal (s : State) (h : legalIn s.slots = true) : legalIn (idle s).slots = true := h

/-- Settles O58: a step runs one command, and every command keeps the slot maps legal. -/
theorem slotMapsStayLegal : Obligations.SlotMapsStayLegal := by
  intro s t h ht
  rw [slotsLegal_eq] at *
  unfold step at ht
  split at ht
  · cases ht; exact idle_legal s h
  · next c rest _ =>
    obtain ⟨u, hu, hl⟩ := exec_keepsLegal c { s with pending := rest } h
    rw [hu] at ht; cases ht; exact hl

/-- Settles O1: a step on a queue that is not empty is `exec` on its front. -/
theorem stepRunsFrontCommand : Obligations.StepRunsFrontCommand := fun _ _ _ => rfl

/-- Settles O59: the state after reset is closed, and each of its memories is empty. -/
theorem resetMeetsTheInvariants : Obligations.ResetMeetsTheInvariants := by
  refine ⟨reset_legal, rfl, rfl, rfl, rfl, fun p => ?_, by decide⟩
  simp [State.reset, Bank.reset, Plot.reset]

end Sys2Proof.Machine

namespace Sys2Proof.Machine
open Sys2Proof.Safety

/-! Controllers (R94 to R111). -/

/-- What no controller of the Plot changes. -/
def Plot.still (x : Plot) : Plot := { x with hold := [], phase := [], chans := [], mergeLoser := [], cadence := 0 }

theorem eq_of_still {x y : Plot} (h : y.still = x.still) :
    y = { x with
      hold := y.hold, phase := y.phase, chans := y.chans, mergeLoser := y.mergeLoser, cadence := y.cadence } := by
  cases x; cases y
  simpa [Plot.still] using h

@[simp] theorem ackChan_still (me : Nat) (o : Offer) (x : Plot) : (ackChan me o x).still = x.still := by
  unfold ackChan; split <;> rfl

theorem ackChans_still (me : Nat) (l : List Offer) (x : Plot) :
    (l.foldl (fun x o => ackChan me o x) x).still = x.still := by
  induction l generalizing x with
  | nil => rfl
  | cons o l ih => rw [List.foldl_cons, ih, ackChan_still]

@[simp] theorem takeOffers_still (me : Nat) (l : List Offer) (x : Plot) : (takeOffers me l x).still = x.still :=
  (ackChans_still me l x :)

@[simp] theorem togglePhases_still (c : Nat) (l : List (Nat × Bool)) (x : Plot) :
    (togglePhases c l x).still = x.still := rfl

@[simp] theorem wordHold_still (c : Nat) (gate port : Bool) (z : Word) (cout : Option Bool) (x : Plot) :
    (wordHold c gate port z cout x).still = x.still := rfl

@[simp] theorem extAck_still (me : Nat) (x : Plot) : (extAck me x).still = x.still := rfl

@[simp] theorem wordStage_still (c : Nat) (i : CtlIn) (gate free : Bool) (x : Plot) :
    (wordStage c i gate free x).1.still = x.still := by
  unfold wordStage; dsimp only; repeat' split
  all_goals simp
  all_goals rfl

@[simp] theorem cellStage_still (c cell : Nat) (i : CtlIn) (gate : Bool) (x : Plot) :
    (cellStage c cell i gate x).still = x.still := by
  unfold cellStage; dsimp only; split
  · rfl
  · exact (takeOffers_still _ _ x :)

theorem controllerTurn_still (c cell : Nat) (i : CtlIn) (gate free : Bool) (x : Plot) :
    (controllerTurn c cell i gate free x).1.still = x.still := by
  unfold controllerTurn; dsimp only; repeat' split
  all_goals simp
  all_goals rfl

theorem controllerHandshake_of_stopped {s : State} {p : Fin 64} (h : fabricRuns s p = false) (c : Fin 512) (cell : Fin 48)
    (x : CtlIn) : exec (.controllerHandshake p c cell x) s = .next s := by
  change execControllerHandshake p c cell x s = _
  simp [execControllerHandshake, h]

theorem controllerHandshake_of_runs {s : State} {p : Fin 64} (h : fabricRuns s p = true) (c : Fin 512) (cell : Fin 48)
    (x : CtlIn) :
    exec (.controllerHandshake p c cell x) s =
      let r := controllerTurn c.val cell.val x (gateStands s s.plots[p].owner) (Config.arbiter s.fresh) s.plots[p]
      .next { s with plots := s.plots.set p r.1, fresh := s.fresh + b2n r.2 } := by
  change execControllerHandshake p c cell x s = _
  simp only [execControllerHandshake, h]
  cases (controllerTurn _ _ _ _ _ _).2 <;> rfl

/-- A bit that arrives at the Plot's edge. -/
def edgeOffer (b : Bool) : Offer := ⟨BitVec.ofNat 48 (b2n b), none, false⟩

theorem offerBit_edgeOffer (b : Bool) : offerBit (some (edgeOffer b)) = b := by cases b <;> rfl

theorem bitOffer_at_edge {x : Plot} {bits : List (Nat × Bool)} {me fuel c d t : Nat} {b : Bool}
    (hc : croftAt c d 1 = none)
    (hb : bits.find? (fun e => e.1 == 96 * c + 24 * d + t) = some (96 * c + 24 * d + t, b)) :
    bitOffer x bits me (fuel + 1) c d t = some (edgeOffer b) := by
  simp [bitOffer, hc, hb, edgeOffer]

/-- Offers from outside the crofts acknowledge no channel. -/
theorem takeOffers_edge (me : Nat) (l : List Bool) (x : Plot) :
    takeOffers me (l.map edgeOffer) x = { x with cadence := x.cadence + l.length } := by
  have hfold : (l.map edgeOffer).foldl (fun x o => ackChan me o x) x = x := by
    induction l with
    | nil => rfl
    | cons b l ih => exact ih
  simp [takeOffers, hfold]

/-- The inputs that a cell uses. -/
def usedInputs (x : Plot) (c cell : Nat) : List Nat := (List.range 4).filter (dependsOn (truthTable x c cell))

/-- What input j of a cell is offered. -/
def cellOffer (c cell : Nat) (i : CtlIn) (x : Plot) (j : Nat) : Option Offer :=
  if inSrc x c cell j then chanOffer x (64 * c + (cell + 1 + j) % 48) (64 * c + cell) none false
  else bitOffer x i.bits (64 * c + cell) 64 c j (cell % 24)

/-- The index into the truth table, from the bits of the used inputs. -/
def cellIndex (used : List Nat) (bit : Nat → Bool) : Nat := ofBits ((List.range 4).map fun j => used.contains j && bit j)

/-- A cell holds bit z and presents it. -/
def cellHolds (c cell : Nat) (gate z : Bool) (x : Plot) : Plot :=
  { x with
    hold := memSet x.hold c (if z then memGet x.hold c ||| 1#48 <<< cell else memGet x.hold c &&& ~~~(1#48 <<< cell))
    chans := x.chans ++ [⟨64 * c + cell, BitVec.ofNat 48 (b2n z), 1, [], false, !gate⟩] }

theorem cellStage_eq (c cell : Nat) (i : CtlIn) (gate : Bool) (x : Plot) :
    cellStage c cell i gate x =
      let used := usedInputs x c cell
      if used.isEmpty || used.any fun j => (cellOffer c cell i x j).isNone then x
      else cellHolds c cell gate
        (natBit (truthTable x c cell) (cellIndex used fun j => offerBit (cellOffer c cell i x j)))
        (takeOffers (64 * c + cell) (used.filterMap (cellOffer c cell i x)) x) := rfl

/-- A cell whose used inputs all arrive at the Plot's edge takes them and holds its truth table's bit. -/
theorem cellStage_at_edge {c cell : Nat} {i : CtlIn} {gate : Bool} {x : Plot} {v : Nat → Bool}
    (hused : usedInputs x c cell ≠ [])
    (hin : ∀ j ∈ usedInputs x c cell, inSrc x c cell j = false ∧ croftAt c j 1 = none ∧
        i.bits.find? (fun b => b.1 == 96 * c + 24 * j + cell % 24) = some (96 * c + 24 * j + cell % 24, v j)) :
    cellStage c cell i gate x =
      cellHolds c cell gate (natBit (truthTable x c cell) (cellIndex (usedInputs x c cell) v))
        { x with cadence := x.cadence + (usedInputs x c cell).length } := by
  have hoffer : ∀ j ∈ usedInputs x c cell, cellOffer c cell i x j = some (edgeOffer (v j)) := fun j hj => by
    obtain ⟨hsrc, hcroft, hbit⟩ := hin j hj
    rw [cellOffer, hsrc]
    exact bitOffer_at_edge hcroft hbit
  have hnone : (usedInputs x c cell).any (fun j => (cellOffer c cell i x j).isNone) = false := by
    rw [List.any_eq_false]
    exact fun j hj => by simp [hoffer j hj]
  have hindex : cellIndex (usedInputs x c cell) (fun j => offerBit (cellOffer c cell i x j)) =
      cellIndex (usedInputs x c cell) v := by
    refine congrArg ofBits (List.map_congr_left fun j _ => ?_)
    by_cases hj : j ∈ usedInputs x c cell
    · simp only [hoffer j hj, offerBit_edgeOffer]
    · simp [hj]
  have htaken : (usedInputs x c cell).filterMap (cellOffer c cell i x) = ((usedInputs x c cell).map v).map edgeOffer := by
    rw [List.filterMap_congr hoffer, List.map_map]
    exact congrFun List.filterMap_eq_map' _
  rw [cellStage_eq]
  simp only [hnone, List.isEmpty_eq_false_iff.2 hused, Bool.or_self, Bool.false_eq_true, if_false, hindex, htaken,
    takeOffers_edge, List.length_map]

/-- Setting one bit of a word to z. -/
theorem getLsbD_set_bit (w : Word) (i : Fin 48) (z : Bool) (k : Nat) (hk : k < 48) :
    (if z then w ||| 1#48 <<< i.val else w &&& ~~~(1#48 <<< i.val)).getLsbD k = if k = i.val then z else w.getLsbD k := by
  have hbit : (1#48 <<< i.val).getLsbD k = decide (k = i.val) := by
    rw [BitVec.getLsbD_shiftLeft, BitVec.getLsbD_one, Bool.eq_iff_iff]
    simp
    omega
  cases z
  · simp only [Bool.false_eq_true, if_false, BitVec.getLsbD_and, BitVec.getLsbD_not, hbit, hk]
    by_cases h : k = i.val <;> simp [h]
  · simp only [if_true, BitVec.getLsbD_or, hbit]
    by_cases h : k = i.val <;> simp [h]

/-- A controller at rest in a BIT croft turns to its cell. -/
theorem controllerTurn_bit_at_rest {c cell : Nat} {i : CtlIn} {gate free : Bool} {x : Plot} (hword : crWord x c = false)
    (hack : i.extAck = false) (hrest : ∀ ch ∈ x.chans, ch.owner ≠ 64 * c + cell) :
    controllerTurn c cell i gate free x = (cellStage c cell i gate x, false) := by
  have hnone : x.chans.find? (fun ch => ch.owner == 64 * c + cell) = none := by
    simpa [List.find?_eq_none] using hrest
  simp [controllerTurn, hword, hack, hnone]

/-- Settles O9: a controller's turn keeps what `Plot.still` holds, and a cell at rest takes what arrives at the Plot's edge. -/
theorem controllersWorkInTheirPlot : Obligations.ControllersWorkInTheirPlot := by
  refine ⟨fun s p c cell x => ⟨fun h => controllerHandshake_of_stopped h c cell x, fun h => ?_⟩, ?_⟩
  · refine ⟨_, _, controllerHandshake_of_runs h c cell x, ?_, eq_of_still (controllerTurn_still ..)⟩
    unfold b2n; split <;> decide
  · intro s p c cell x v hr hg hx y used hword hused hrest hin z
    have hturn : controllerTurn c.val cell.val x (gateStands s s.plots[p].owner) (Config.arbiter s.fresh) y = _ :=
      (controllerTurn_bit_at_rest hword hx hrest).trans (congrArg (·, false) (cellStage_at_edge hused hin))
    refine ⟨if z then memGet y.hold c ||| 1#48 <<< cell.val else memGet y.hold c &&& ~~~(1#48 <<< cell.val), ?_, ?_, ?_⟩
    · rw [controllerHandshake_of_runs hr, hturn, hg]
      rfl
    · rw [getLsbD_set_bit _ _ _ _ cell.isLt, if_pos rfl]
    · intro k hk hne
      rw [getLsbD_set_bit _ _ _ _ hk, if_neg hne]

end Sys2Proof.Machine

namespace Sys2Proof.Machine
open Sys2Proof.Safety

/-! An update depends on what it makes of the element alone. -/

theorem upd_congr {α : Type} {n : Nat} {v : Vector α n} {i : Fin n} {f g : α → α} (h : f v[i] = g v[i]) :
    upd v i f = upd v i g := by
  rw [upd, upd, h]

theorem modPlot_congr {p : Fin 64} {f g : Plot → Plot} {s : State} (h : f s.plots[p] = g s.plots[p]) :
    modPlot p f s = modPlot p g s := by
  rw [modPlot, modPlot, upd_congr h]

/-! Records change the Ledger alone. -/

theorem record_eq (e : Ev) (owner : Fin 32) (data : Word) (s : State) :
    record e owner data s = modLedger (fun _ => (record e owner data s).ledger) s := by
  unfold record; dsimp only; repeat' split
  all_goals rfl

theorem modPlot_modLedger (p : Fin 64) (f : Plot → Plot) (g : Ledger → Ledger) (s : State) :
    modPlot p f (modLedger g s) = modLedger g (modPlot p f s) := rfl

theorem modLedger_modLedger (f g : Ledger → Ledger) (s : State) :
    modLedger f (modLedger g s) = modLedger (fun x => f (g x)) s := rfl

/-! Faults of no Holding (R156, R330). -/

@[simp] theorem faultHolding_zero (cause : FaultCause) (s : State) : faultHolding 0 cause s = s := rfl

theorem setUnfit_unowned {s : State} {p : Fin 64} (h : s.plots[p].owner = 0) :
    setUnfit p s = modPlot p (fun x => { x with unfit := true }) s := by
  rw [setUnfit, h, faultHolding_zero]

/-! Calibration passes (R115 to R119, R155). -/

/-- A Plot of no Holding that may be found UNFIT. -/
theorem calUnfit_if {s : State} {p : Fin 64} (b : Bool) (e : Ev) (h : s.plots[p].owner = 0) :
    ∃ l, (if b then calUnfit p e s else s) =
      modLedger (fun _ => l) (modPlot p (fun x => { x with unfit := x.unfit || b }) s) := by
  cases b
  · exact ⟨s.ledger, by rw [modPlot_id _ _ _ (by simp)]; rfl⟩
  · refine ⟨(record e s.plots[p].owner (datTop p.val 0) s).ledger, ?_⟩
    simp only [if_true, Bool.or_true]
    rw [calUnfit, record_eq, setUnfit_unowned (s := modLedger _ s) h]
    rfl

/-- The trim after a pass that calls for a change of `want`: as asked, whether it lies beyond the limits, and as taken. -/
def trimNext (trim : BitVec 8) (want : Int) : Int := trim.toNat + trimMove want
def trimAtLimit (trim : BitVec 8) (want : Int) : Bool := trimNext trim want < 0 || 255 < trimNext trim want
def trimTaken (trim : BitVec 8) (want : Int) : Nat :=
  if trimNext trim want < 0 then 0 else if 255 < trimNext trim want then 255 else (trimNext trim want).toNat

/-- What a completed pass measures and sets of its Plot. -/
def passTaken (c0 c1 : Nat) (want : Int) (x : Plot) : Plot :=
  { x with
    cyclePs := BitVec.ofNat 16 (max c0 c1), calTrim := BitVec.ofNat 8 (trimTaken x.calTrim want)
    calCount := satAdd x.calCount 1, calibrated := true, calRunning := false, lastCalTemp := x.temp
    limit := x.limit || trimAtLimit x.calTrim want
    calDue := x.calDue || (!trimAtLimit x.calTrim want && want != trimMove want)
    passWait := if x.passWait = .running then .none else x.passWait }

/-- A pass: the Plot takes what is measured, its two verdicts, and its Holding's budget and waiting passes. -/
theorem passEnd_eq (p : Fin 64) (c0 c1 : Nat) (s : State) :
    passEnd p c0 c1 s =
      let want := Config.trimWant s.fresh
      let t := modPlot p (passTaken c0 c1 want) (draw s)
      let t := if trimAtLimit s.plots[p].calTrim want then calUnfit p evCalLimit t else t
      let t := if chainsDiffer c0 c1 then calUnfit p evCalFail t else t
      passesDone t.plots[p].owner (budgetEval t.plots[p].owner t) := rfl

@[simp] theorem budgetEval_zero (s : State) : budgetEval 0 s = s := rfl
@[simp] theorem passesDone_zero (s : State) : passesDone 0 s = s := rfl

/-- What a completed pass leaves of a Plot of no Holding. -/
def passLeaves (c0 c1 : Nat) (want : Int) (x : Plot) : Plot :=
  { passTaken c0 c1 want x with unfit := x.unfit || trimAtLimit x.calTrim want || chainsDiffer c0 c1 }

/-- A pass that ends in a Plot of no Holding changes the Plot alone. -/
theorem passEnd_unowned {s : State} {p : Fin 64} (c0 c1 : Nat) (h : s.plots[p].owner = 0) :
    ∃ l, passEnd p c0 c1 s = modLedger (fun _ => l) (modPlot p (passLeaves c0 c1 (Config.trimWant s.fresh)) (draw s)) := by
  rw [passEnd_eq]
  extract_lets want t t₁ t₂
  have ht : t.plots[p].owner = 0 := (congrArg Plot.owner (upd_same s.plots p (passTaken c0 c1 want))).trans h
  obtain ⟨l₁, h₁⟩ := calUnfit_if (trimAtLimit s.plots[p].calTrim want) evCalLimit ht
  have ht₁ : t₁.plots[p].owner = 0 := by
    rw [show t₁ = _ from h₁]
    exact (congrArg Plot.owner (upd_same t.plots p _)).trans ht
  obtain ⟨l₂, h₂⟩ := calUnfit_if (chainsDiffer c0 c1) evCalFail ht₁
  have ht₂ : t₂.plots[p].owner = 0 := by
    rw [show t₂ = _ from h₂]
    exact (congrArg Plot.owner (upd_same t₁.plots p _)).trans ht₁
  refine ⟨l₂, ?_⟩
  rw [ht₂, budgetEval_zero, passesDone_zero, show t₂ = _ from h₂, show t₁ = _ from h₁]
  rw [modPlot_modLedger, modLedger_modLedger, modPlot_modPlot, modPlot_modPlot]
  exact congrArg (modLedger _) (modPlot_congr rfl)

theorem trimMove_le (want : Int) : -4 ≤ trimMove want ∧ trimMove want ≤ 4 := by
  unfold trimMove; repeat' split
  all_goals omega

theorem trimTaken_near (trim : BitVec 8) (want : Int) :
    trimTaken trim want < 256 ∧ trimTaken trim want ≤ trim.toNat + 4 ∧ trim.toNat ≤ trimTaken trim want + 4 ∧
      (trimAtLimit trim want = true → trimTaken trim want = 0 ∨ trimTaken trim want = 255) := by
  have hm := trimMove_le want
  have ht := trim.isLt
  unfold trimTaken trimAtLimit trimNext
  by_cases hlow : trim.toNat + trimMove want < 0
  · simp [hlow]; omega
  · by_cases hhigh : 255 < trim.toNat + trimMove want
    · simp [hlow, hhigh]; omega
    · simp [hlow, hhigh]; omega

/-- Settles O10: a pass of an unowned Plot leaves `passLeaves`, whose trim lies within four steps of the old one. -/
theorem calibrationPassesRun : Obligations.CalibrationPassesRun := by
  have hend : ∀ (s : State) (p : Fin 64) (a b : BitVec 16), s.plots[p].calRunning = true → s.plots[p].owner = 0 →
      ∃ l, exec (.calibrationPassEnd p a b) s =
        .next (modLedger (fun _ => l) (modPlot p (passLeaves a.toNat b.toNat (Config.trimWant s.fresh)) (draw s))) := by
    intro s p a b hr ho
    obtain ⟨l, hl⟩ := passEnd_unowned a.toNat b.toNat ho
    exact ⟨l, by rw [← hl]; exact congrArg _ (if_pos hr)⟩
  refine ⟨⟨fun s p h => congrArg _ (if_pos h), fun s p a b hr ho => ?_, fun s p line h => congrArg _ (if_pos h)⟩,
    fun s p a b hr ho hd => ?_⟩
  · obtain ⟨l, hl⟩ := hend s p a b hr ho
    refine ⟨_, hl, ?_⟩
    extract_lets x y
    have hy : y = passLeaves a.toNat b.toNat (Config.trimWant s.fresh) x := upd_same s.plots p _
    obtain ⟨hlt, hup, hdown, hlimit⟩ := trimTaken_near x.calTrim (Config.trimWant s.fresh)
    have htrim : (BitVec.ofNat 8 (trimTaken x.calTrim (Config.trimWant s.fresh))).toNat = _ :=
      (BitVec.toNat_ofNat ..).trans (Nat.mod_eq_of_lt hlt)
    rw [hy]
    refine ⟨?_, rfl, rfl, rfl, rfl, ?_, ?_, fun h => ?_, fun q hq => upd_other _ _ _ _ hq, rfl⟩
    · change BitVec.ofNat 16 (max a.toNat b.toNat) = _
      split
      next hle => rw [Nat.max_eq_right hle, BitVec.ofNat_toNat, BitVec.setWidth_eq]
      next hgt => rw [Nat.max_eq_left (by omega), BitVec.ofNat_toNat, BitVec.setWidth_eq]
    · exact htrim.trans_le hup
    · exact hdown.trans_eq (congrArg (· + 4) htrim.symm)
    · rcases Bool.or_eq_true_iff.1 h with h | h
      · exact .inl h
      · refine .inr ⟨by simp [passLeaves, h], ?_⟩
        rcases hlimit h with h | h
        · exact .inl (congrArg (BitVec.ofNat 8) h)
        · exact .inr (congrArg (BitVec.ofNat 8) h)
  · obtain ⟨l, hl⟩ := hend s p a b hr ho
    refine ⟨_, hl, ?_, rfl⟩
    refine (congrArg Plot.unfit (upd_same s.plots p _)).trans ?_
    simp [passLeaves, chainsDiffer, hd]

end Sys2Proof.Machine

namespace Sys2Proof.Machine

/-! What a memory reads as (R219). -/

theorem above_mono {w : Nat} {j k : Nat} {m : Mem w} (h : above k m) (hj : j ≤ k) : above j m :=
  fun e he => Nat.lt_of_le_of_lt hj (h e he)

theorem memGet_of_above {w : Nat} {k : Nat} {m : Mem w} (h : above k m) : memGet m k = 0 := by
  cases m with
  | nil => rfl
  | cons e m =>
    have hlt := (above_cons.1 h).1
    rw [memGet, if_neg (by omega), if_pos hlt]

theorem memGet_cons {w : Nat} (a : Nat) (v : BitVec w) (m : Mem w) (k : Nat) (hm : above a m) :
    memGet ((a, v) :: m) k = if k = a then v else memGet m k := by
  rw [memGet]
  by_cases h : a = k
  · rw [if_pos h, if_pos h.symm]
  · rw [if_neg h, if_neg (Ne.symm h)]
    split
    next hlt => exact (memGet_of_above (above_mono hm (Nat.le_of_lt hlt))).symm
    next => rfl

theorem memGet_memSet {w : Nat} {m : Mem w} (h : memWf m = true) (k : Nat) (v : BitVec w) (j : Nat) :
    memGet (memSet m k v) j = if j = k then v else memGet m j := by
  induction m with
  | nil =>
    rw [memSet]
    split
    next hv => subst hv; split <;> rfl
    next hv => rw [memGet_cons _ _ _ _ (by simp [above])]
  | cons e m ih =>
    obtain ⟨a, x⟩ := e
    obtain ⟨-, ha, hm⟩ := (memWf_cons a x m).1 h
    rw [memGet_cons a x m j ha, memSet]
    split
    next hk =>
      subst hk
      split
      next hv =>
        subst hv
        by_cases hj : j = a
        · subst hj; rw [if_pos rfl, memGet_of_above ha]
        · rw [if_neg hj, if_neg hj]
      next => rw [memGet_cons _ _ _ _ ha]; split <;> rfl
    next hk =>
      split
      next hlt =>
        have hk' : above k ((a, x) :: m) := above_cons.2 ⟨hlt, above_mono ha (Nat.le_of_lt hlt)⟩
        split
        next hv =>
          subst hv
          rw [memGet_cons a x m j ha]
          by_cases hj : j = k
          · subst hj
            rw [if_pos rfl, ← memGet_cons a x m j ha, memGet_of_above hk']
          · rw [if_neg hj]
        next => rw [memGet_cons _ _ _ _ hk', memGet_cons a x m j ha]
      next hge =>
        rw [memGet_cons _ _ _ _ (memSet_above ha (by omega)), ih hm]
        by_cases hj : j = a
        · subst hj; rw [if_pos rfl, if_neg hk, if_pos rfl]
        · rw [if_neg hj, if_neg hj]

theorem memGet_memSet_same {w : Nat} {m : Mem w} (h : memWf m = true) (k : Nat) (v : BitVec w) :
    memGet (memSet m k v) k = v := by rw [memGet_memSet h, if_pos rfl]

theorem memGet_memSet_other {w : Nat} {m : Mem w} (h : memWf m = true) {j k : Nat} (v : BitVec w) (hj : j ≠ k) :
    memGet (memSet m k v) j = memGet m j := by rw [memGet_memSet h, if_neg hj]

/-- Memories in canonical form that read alike are equal. -/
theorem mem_ext {w : Nat} {m n : Mem w} (hm : memWf m = true) (hn : memWf n = true) (h : ∀ k, memGet m k = memGet n k) :
    m = n := by
  induction m generalizing n with
  | nil =>
    cases n with
    | nil => rfl
    | cons e n =>
      obtain ⟨a, v⟩ := e
      obtain ⟨hv, ha, -⟩ := (memWf_cons a v n).1 hn
      have := h a
      rw [memGet_cons _ _ _ _ ha, if_pos rfl] at this
      exact absurd this.symm hv
  | cons e m ih =>
    obtain ⟨a, v⟩ := e
    obtain ⟨hv, ha, hm⟩ := (memWf_cons a v m).1 hm
    cases n with
    | nil =>
      have := h a
      rw [memGet_cons _ _ _ _ ha, if_pos rfl] at this
      exact absurd this hv
    | cons f n =>
      obtain ⟨b, x⟩ := f
      obtain ⟨hx, hb, hrest⟩ := (memWf_cons b x n).1 hn
      simp only [memGet_cons _ _ _ _ ha, memGet_cons _ _ _ _ hb] at h
      have hab : a = b := by
        rcases Nat.lt_trichotomy a b with hlt | heq | hlt
        · have := h a
          rw [if_pos rfl, if_neg (by omega), memGet_of_above (above_mono hb (Nat.le_of_lt hlt))] at this
          exact absurd this hv
        · exact heq
        · have := h b
          rw [if_neg (by omega), if_pos rfl, memGet_of_above (above_mono ha (Nat.le_of_lt hlt))] at this
          exact absurd this.symm hx
      subst hab
      have hvx : v = x := by simpa using h a
      have hmn : m = n := ih hm hrest fun k => by
        by_cases hk : k = a
        · subst hk; rw [memGet_of_above ha, memGet_of_above hb]
        · simpa [hk] using h k
      rw [hvx, hmn]

theorem memGet_memPut {w : Nat} (l : List (BitVec w)) {m : Mem w} (h : memWf m = true) (a k : Nat) :
    memGet (memPut m a l) k = if a ≤ k ∧ k < a + l.length then (l[k - a]?).getD 0 else memGet m k := by
  induction l generalizing m a with
  | nil => rw [memPut, if_neg (by simp)]
  | cons v l ih =>
    rw [memPut, ih (memSet_wf _ _ h), memGet_memSet h, List.length_cons]
    by_cases hk : k = a
    · subst hk
      rw [if_neg (by omega), if_pos rfl, if_pos (by omega), Nat.sub_self]
      rfl
    · by_cases hin : a + 1 ≤ k ∧ k < a + 1 + l.length
      · rw [if_pos hin, if_pos (by omega), show k - a = k - (a + 1) + 1 by omega]
        rfl
      · rw [if_neg hin, if_neg hk, if_neg (by omega)]

theorem memGet_memKeep {w : Nat} (p : Nat → Bool) {m : Mem w} (h : memWf m = true) (k : Nat) :
    memGet (memKeep p m) k = if p k then memGet m k else 0 := by
  induction m with
  | nil => simp [memKeep, memGet]
  | cons e m ih =>
    obtain ⟨a, v⟩ := e
    obtain ⟨-, ha, hm⟩ := (memWf_cons a v m).1 h
    have hkeep : above a (m.filter fun e => p e.1) := fun y hy => ha y (List.mem_of_mem_filter hy)
    rw [memGet_cons _ _ _ _ ha, memKeep, List.filter_cons]
    by_cases hp : p a
    · rw [if_pos hp, memGet_cons _ _ _ _ hkeep]
      by_cases hk : k = a
      · subst hk; rw [if_pos rfl, if_pos hp, if_pos rfl]
      · rw [if_neg hk, if_neg hk]; exact ih hm
    · rw [if_neg hp]
      refine (ih hm).trans ?_
      by_cases hk : k = a
      · subst hk; rw [if_neg hp, if_neg hp]
      · rw [if_neg hk]

/-! The flash, whose bytes are kept inverted. -/

theorem flashGet_flashProgram {m : Mem 8} (h : memWf m = true) (a : Nat) (l : List Byte) (k : Nat) :
    flashGet (flashProgram m a l) k =
      if a ≤ k ∧ k < a + l.length then flashGet m k &&& (l[k - a]?).getD 0 else flashGet m k := by
  rw [flashGet, flashProgram, flashSet, memGet_memPut _ h]
  simp only [List.length_map, List.length_zipIdx]
  split
  next hk =>
    have hlt : k - a < l.length := by omega
    simp only [List.getElem?_map, List.getElem?_zipIdx, List.getElem?_eq_getElem hlt, Option.map_some, Option.getD_some,
      BitVec.not_not, Nat.zero_add]
    rw [show a + (k - a) = k by omega, BitVec.and_comm]
  next => rfl

theorem flashGet_flashWipe {m : Mem 8} (h : memWf m = true) (a n k : Nat) :
    flashGet (flashWipe m a n) k = if a ≤ k ∧ k < a + n then 0xFF else flashGet m k := by
  rw [flashGet, flashWipe, memGet_memKeep _ h]
  by_cases hk : a ≤ k ∧ k < a + n
  · rw [if_pos hk, if_neg (by simp; omega)]; rfl
  · rw [if_neg hk, if_pos (by simp; omega)]; rfl

/-- Settles O11: a write and a filter of a list of keys that rise strictly, read back. -/
theorem memoriesReadBackAndAreCanonical : Obligations.MemoriesReadBackAndAreCanonical :=
  ⟨fun _ _ k v h j => memGet_memSet h k v j, fun _ _ _ ha hb h => mem_ext ha hb h,
    fun _ h => ⟨fun a l k => flashGet_flashProgram h a l k, fun a n k => flashGet_flashWipe h a n k⟩⟩

end Sys2Proof.Machine

namespace Sys2Proof.Machine

/-! The check code of a stored word (R167 to R170, R184). -/

theorem xorCols_xor (d e : Word) (i : Nat) (l : List (BitVec 8)) :
    xorCols (d ^^^ e) i l = xorCols d i l ^^^ xorCols e i l := by
  induction l generalizing i with
  | nil => exact (BitVec.xor_self).symm
  | cons c l ih =>
    have hc : (if (d ^^^ e).getLsbD i then c else 0) = (if d.getLsbD i then c else 0) ^^^ if e.getLsbD i then c else 0 := by
      rw [BitVec.getLsbD_xor]
      cases d.getLsbD i <;> cases e.getLsbD i <;> simp
    rw [xorCols, xorCols, xorCols, ih, hc]
    ac_rfl

/-- The check bits are linear in the data. -/
theorem checkBits_xor (d e : Word) : checkBits (d ^^^ e) = checkBits d ^^^ checkBits e := xorCols_xor d e 0 secCols

theorem secData_append (c : BitVec 8) (d : Word) : secData (c ++ d) = d := by
  rw [secData, BitVec.extractLsb'_append_eq_of_add_le (by omega), BitVec.extractLsb'_eq_self]

theorem syndrome_append (c : BitVec 8) (d : Word) : syndrome (c ++ d) = checkBits d ^^^ c := by
  rw [syndrome, secData_append, BitVec.extractLsb'_append_eq_of_le (by omega), BitVec.extractLsb'_eq_self]

theorem syndrome_secWord (d : Word) : syndrome (secWord d) = 0 := by
  rw [secWord, syndrome_append, BitVec.xor_self]; rfl

theorem syndrome_poisonWord (d : Word) : syndrome (poisonWord d) = 0xFF := by
  rw [poisonWord, syndrome_append, ← BitVec.xor_assoc, BitVec.xor_self]; exact BitVec.zero_xor

theorem secData_xor (v w : Stored) : secData (v ^^^ w) = secData v ^^^ secData w := by
  unfold secData; exact BitVec.extractLsb'_xor ..

theorem syndrome_xor (v w : Stored) : syndrome (v ^^^ w) = syndrome v ^^^ syndrome w := by
  rw [syndrome, syndrome, syndrome, secData_xor, checkBits_xor, BitVec.extractLsb'_xor]
  ac_rfl

/-- The syndrome of a single wrong bit. -/
def wrongCol (i : Fin 56) : BitVec 8 := ((secCols ++ [1, 2, 4, 8, 16, 32, 64, 128])[i.val]?).getD 0

theorem syndrome_bit : ∀ i : Fin 56, syndrome (1#56 <<< i.val) = wrongCol i := by decide +kernel

/-- It names the bit. -/
theorem wrongCol_names : ∀ i : Fin 56, wrongCol i ≠ 0 ∧
    if i.val < 48 then isOneBit (wrongCol i) = false ∧ colIndex (wrongCol i) = some i.val
    else isOneBit (wrongCol i) = true := by decide +kernel

/-- The number of bits set among the first n is odd. -/
def oddBits : Nat → BitVec 8 → Bool
  | 0, _ => false
  | n + 1, s => s.getLsbD n ^^ oddBits n s

theorem oddBits_xor (n : Nat) (s t : BitVec 8) : oddBits n (s ^^^ t) = (oddBits n s ^^ oddBits n t) := by
  induction n with
  | zero => rfl
  | succ n ih =>
    rw [oddBits, oddBits, oddBits, ih, BitVec.getLsbD_xor]
    cases s.getLsbD n <;> cases t.getLsbD n <;> simp

theorem wrongCol_odd : ∀ i : Fin 56, oddBits 8 (wrongCol i) = true := by decide +kernel

/-- A syndrome with an even number of bits names no bit. -/
theorem even_names_none : ∀ s : BitVec 8, oddBits 8 s = false → isOneBit s = false ∧ colIndex s = none := by decide +kernel

theorem wrongCols_differ : ∀ i j : Fin 56, i ≠ j →
    wrongCol i ^^^ wrongCol j ≠ 0 ∧ wrongCol i ^^^ wrongCol j ≠ 0xFF := by decide +kernel

theorem secData_secWord (d : Word) : secData (secWord d) = d := secData_append _ _

/-- The data bit that a wrong bit of a stored word turns over: none when it is a check bit. -/
def wrongData (i : Fin 56) : Word := if i.val < 48 then 1#48 <<< i.val else 0

theorem secData_bit : ∀ i : Fin 56, secData (1#56 <<< i.val) = wrongData i := by decide +kernel

theorem xor_wrongData_self (d : Word) (i : Fin 56) : d ^^^ wrongData i ^^^ wrongData i = d := by
  rw [BitVec.xor_assoc, BitVec.xor_self, BitVec.xor_zero]

/-- What a read finds by the syndrome alone. -/
theorem secRead_clean {w : Stored} (h : syndrome w = 0) : secRead w = ⟨secData w, false, false, false⟩ := by
  simp [secRead, h]

theorem secRead_wrong {w : Stored} {i : Fin 56} (h : syndrome w = wrongCol i) :
    secRead w = ⟨secData w ^^^ wrongData i, true, false, false⟩ := by
  obtain ⟨hne, hnames⟩ := wrongCol_names i
  by_cases hi : i.val < 48
  · obtain ⟨hone, hcol⟩ := (if_pos hi ▸ hnames :)
    simpa [secRead, h, hone, hcol, wrongData, hi] using hne
  · have hone : isOneBit (wrongCol i) = true := (if_neg hi ▸ hnames :)
    simpa [secRead, h, hone, wrongData, hi] using hne

theorem secRead_even {w : Stored} (h : oddBits 8 (syndrome w) = false) (h0 : syndrome w ≠ 0) :
    secRead w = ⟨secData w, false, true, syndrome w == 0xFF⟩ := by
  obtain ⟨hone, hcol⟩ := even_names_none _ h
  simpa [secRead, hone, hcol] using h0

/-- Settles O12: the columns are odd, all different, so one wrong bit is named and two are not. -/
theorem checkCodeCorrectsOneFindsTwo : Obligations.CheckCodeCorrectsOneFindsTwo := by
  intro d
  have hpoison : secRead (poisonWord d) = ⟨d, false, true, true⟩ := by
    rw [secRead_even (by rw [syndrome_poisonWord]; decide) (by rw [syndrome_poisonWord]; decide), syndrome_poisonWord]
    exact congrArg (Found.mk · _ _ _) (secData_append _ _)
  refine ⟨?_, hpoison, ?_, fun i => ?_, fun i j hij => ?_⟩
  · rw [secRead_clean (syndrome_secWord d), secData_secWord]
  · simp [secCorrect, hpoison]
  · have hs : syndrome (secWord d ^^^ 1#56 <<< i.val) = wrongCol i := by
      rw [syndrome_xor, syndrome_secWord, syndrome_bit]; exact BitVec.zero_xor
    have hread : secRead (secWord d ^^^ 1#56 <<< i.val) = ⟨d, true, false, false⟩ := by
      rw [secRead_wrong hs, secData_xor, secData_secWord, secData_bit, xor_wrongData_self]
    exact ⟨hread, by simp [secCorrect, hread]⟩
  · intro w
    have hs : syndrome w = wrongCol i ^^^ wrongCol j := by
      rw [syndrome_xor, syndrome_xor, syndrome_secWord, syndrome_bit, syndrome_bit]
      exact congrArg (· ^^^ _) BitVec.zero_xor
    obtain ⟨h0, hff⟩ := wrongCols_differ i j hij
    have hread : secRead w = ⟨secData w, false, true, false⟩ := by
      rw [secRead_even (by rw [hs, oddBits_xor, wrongCol_odd, wrongCol_odd]; rfl) (hs ▸ h0), hs]
      exact congrArg _ (beq_false_of_ne hff)
    simp [secCorrect, hread]

end Sys2Proof.Machine

namespace Sys2Proof.Machine

/-! What records leave as it was: everything but the Ledger. -/

/-- From s to t nothing but the Ledger changes. -/
@[simp] abbrev OnlyLedger (s t : State) : Prop :=
  t.bell = s.bell ∧ t.slots = s.slots ∧ t.plots = s.plots ∧ t.banks = s.banks ∧ t.scrubS = s.scrubS ∧
    t.binScrubS = s.binScrubS ∧ t.queues = s.queues ∧ t.qstore = s.qstore ∧ t.holdings = s.holdings ∧
    t.hedges = s.hedges ∧ t.breaches = s.breaches ∧ t.snap = s.snap ∧ t.rings = s.rings ∧ t.fns = s.fns ∧
    t.host = s.host ∧ t.quads = s.quads ∧ t.lanes = s.lanes ∧ t.cvus = s.cvus ∧ t.gates = s.gates ∧ t.ssp = s.ssp ∧
    t.fnet = s.fnet ∧ t.store = s.store ∧ t.boot = s.boot ∧ t.load = s.load ∧ t.tele = s.tele ∧ t.test = s.test ∧
    t.village = s.village ∧ t.dev = s.dev ∧ t.pins = s.pins ∧ t.out = s.out ∧ t.fresh = s.fresh ∧ t.pending = s.pending

theorem OnlyLedger.eq {s t : State} (h : OnlyLedger s t) : t = modLedger (fun _ => t.ledger) s := by
  cases s; cases t; simp_all [modLedger]

@[simp] theorem record_onlyLedger (e : Ev) (owner : Fin 32) (data : Word) (s : State) :
    OnlyLedger s (record e owner data s) := by
  rw [record_eq]; simp

@[simp] theorem limitWrite_onlyLedger (code : BitVec 12) (subj n : Nat) (s : State) :
    OnlyLedger s (limitWrite code subj n s) := by
  unfold limitWrite; repeat' split
  all_goals simp

@[simp] theorem limited_onlyLedger (e : Ev) (subj n : Nat) (s : State) : OnlyLedger s (limited e subj n s) := by
  unfold limited; dsimp only; repeat' split
  all_goals simp

end Sys2Proof.Machine

namespace Sys2Proof.Machine
open Sys2Proof.Safety
/-! Plot ports of a Granary bank (R171 to R188). -/

@[simp] theorem satAdd_zero {w : Nat} (x : BitVec w) : satAdd x 0 = x := by
  rw [satAdd, Nat.add_zero, if_pos x.isLt, BitVec.ofNat_toNat, BitVec.setWidth_eq]

/-- Fabric runs only in Plots of a Holding. -/
theorem fabricRuns_owned {s : State} {p : Fin 64} (h : fabricRuns s p = true) : s.plots[p].owner.val ≠ 0 := by
  unfold fabricRuns at h; dsimp only at h
  simp at h ⊢
  tauto

theorem portOpen_owned {s : State} {p : Fin 64} (h : portOpen s p = true) : s.plots[p].owner.val ≠ 0 := by
  rw [portOpen, Bool.and_assoc, Bool.and_eq_true] at h
  exact fabricRuns_owned h.1

theorem bankWord_bankWrite {s : State} {p : Fin 64} (h : memWf s.banks[p].mem = true) (a : Nat) (w : Stored) (k : Nat) :
    bankWord { s.banks[p] with mem := memSet s.banks[p].mem a (w ^^^ bankBase s.banks[p] a) } k =
      if k = a then w else bankWord s.banks[p] k := by
  unfold bankWord
  rw [memGet_memSet h]
  by_cases hk : k = a
  · subst hk
    rw [if_pos rfl, if_pos rfl, BitVec.xor_assoc]
    exact (congrArg _ BitVec.xor_self).trans BitVec.xor_zero
  · rw [if_neg hk, if_neg hk]; rfl

/-- An update that leaves g of the element as it is leaves g of every element. -/
theorem upd_keeps {α β : Type} {n : Nat} (g : α → β) (v : Vector α n) (i j : Fin n) (f : α → α)
    (h : g (f v[i]) = g v[i]) : g (upd v i f)[j.val] = g v[j.val] := by
  rw [upd_get]
  split
  next hj => subst hj; exact h
  next => rfl

/-- What a read counts for a Holding and for a bank. -/
def foundCount (f : Found) (x : Holding) : Holding :=
  { x with memCe := satAdd x.memCe (b2n f.ce), memUe := satAdd x.memUe (b2n f.ue) }
def bankCount (f : Found) (b : Bank) : Bank :=
  { b with ceCount := satAdd b.ceCount (b2n f.ce), ueCount := satAdd b.ueCount (b2n f.ue) }

theorem countHolding_eq (p : Fin 64) (f : Found) (s : State) : countHolding p f s =
    if s.plots[p].owner.val = 0 then s else modHolding s.plots[p].owner (foundCount f) s := rfl

theorem countFound_eq (p : Fin 64) (f : Found) (s : State) : countFound p f s =
    if f.ce then limited evGranaryCe p.val 1 (countHolding p f (modBank p (bankCount f) s))
    else countHolding p f (modBank p (bankCount f) s) := rfl

theorem countHolding_owned {s : State} {p : Fin 64} (f : Found) (h : s.plots[p].owner.val ≠ 0) :
    countHolding p f s = modHolding s.plots[p].owner (foundCount f) s := if_neg h

/-- A clean read counts nothing. -/
theorem foundCount_clean {f : Found} (hce : f.ce = false) (hue : f.ue = false) (x : Holding) : foundCount f x = x := by
  simp [foundCount, hce, hue, b2n]

theorem countHolding_clean {f : Found} (p : Fin 64) (s : State) (hce : f.ce = false) (hue : f.ue = false) :
    countHolding p f s = s := by
  rw [countHolding_eq]
  split
  · rfl
  · exact modHolding_id _ _ _ (foundCount_clean hce hue _)

theorem countFound_clean {f : Found} (p : Fin 64) (s : State) (hce : f.ce = false) (hue : f.ue = false) :
    countFound p f s = s := by
  rw [countFound_eq, modBank_id _ _ _ (by simp [bankCount, hce, hue, b2n]), countHolding_clean _ _ hce hue]
  simp [hce]

/-- Counting keeps the policy of every Holding, the Plots and what waits in the banks. -/
theorem countFound_keeps (p : Fin 64) (f : Found) (s : State) :
    (countFound p f s).plots = s.plots ∧ (countFound p f s).bell = s.bell ∧
    (∀ q : Fin 64, (countFound p f s).banks[q.val].wbq = s.banks[q.val].wbq) ∧
    ∀ h : Fin 32, (countFound p f s).holdings[h.val].memUeReport = s.holdings[h.val].memUeReport := by
  have hb : ∀ q : Fin 64, (upd s.banks p (bankCount f))[q.val].wbq = s.banks[q.val].wbq :=
    fun q => upd_keeps Bank.wbq _ _ _ _ rfl
  have hh : ∀ k h : Fin 32, (upd s.holdings k (foundCount f))[h.val].memUeReport = s.holdings[h.val].memUeReport :=
    fun k h => upd_keeps Holding.memUeReport _ _ _ _ rfl
  rw [countFound_eq, countHolding_eq]
  repeat' split
  all_goals simp [hb, hh]

theorem queueLine_keeps (p : Fin 64) (line : Nat) (s : State) :
    (queueLine p line s).plots = s.plots ∧ (queueLine p line s).holdings = s.holdings := by
  unfold queueLine; dsimp only; repeat' split
  all_goals simp

theorem recordUe_keeps (p : Fin 64) (a : Nat) (s : State) :
    (recordUe p a s).plots = s.plots ∧ (recordUe p a s).holdings = s.holdings := by
  unfold recordUe; dsimp only; split
  all_goals simp

theorem bankWrite_eq (p : Fin 64) (a : Nat) (w : Stored) (s : State) : bankWrite p a w s =
    modBank p (fun b => { b with mem := memSet s.banks[p].mem a (w ^^^ bankBase s.banks[p] a) }) s := by
  rw [bankWrite, modBank, modBank, upd, upd]

/-- A correctable error counts 1. -/
theorem foundCount_ce {f : Found} (hce : f.ce = true) (hue : f.ue = false) :
    foundCount f = fun x => { x with memCe := satAdd x.memCe 1 } := by
  funext x; simp [foundCount, hce, hue, b2n]

theorem bankCount_ce {f : Found} (hce : f.ce = true) (hue : f.ue = false) :
    bankCount f = fun b => { b with ceCount := satAdd b.ceCount 1 } := by
  funext b; simp [bankCount, hce, hue, b2n]

theorem granaryPortRead_eq (p : Fin 64) (a : Nat) (s : State) : granaryPortRead p a s =
    let f := bankRead s p a
    let t := emit (.portData p f.data) (countFound p f s)
    let t := if f.ce || f.ue then queueLine p (a / 4) t else t
    if f.ue then uePolicy p (datTop p.val a) (recordUe p a t) else t := rfl

theorem uePolicy_of {t : State} {p : Fin 64} {data : Word} {h : Fin 32} {b : Bool} (hown : t.plots[p.val].owner = h)
    (hrep : t.holdings[h.val].memUeReport = b) :
    uePolicy p data t = if b then mailbox evMemUe h data t else faultHolding h .memUe t := by
  subst hown hrep; rfl

/-- A line enters the queue of a state in which as much waits as in s. -/
theorem queueLine_eq {s t : State} {p : Fin 64} (hq : t.banks[p].wbq = s.banks[p].wbq) (hb : t.bell = s.bell) (n : Nat) :
    queueLine p n t =
      if s.banks[p].wbq.any fun e => e.1 == n then t
      else if 16 ≤ s.banks[p].wbq.length then modBank p (fun b => { b with wbDropped := satAdd b.wbDropped 1 }) t
      else modBank p (fun b => { b with wbq := b.wbq ++ [(n, s.bell.now)] }) t := by
  rw [queueLine, hq, hb]

/-- Settles O13: the ports' own functions, in a Plot that a Holding owns. -/
theorem granaryPortsWriteAndRead : Obligations.GranaryPortsWriteAndRead := by
  refine ⟨fun s p port addr d hopen hwf => ?_, fun s p port addr hopen => ?_, fun s p port addr hopen => ?_⟩
  · refine ⟨memSet s.banks[p].mem (addr18 addr) (secWord d ^^^ bankBase s.banks[p] (addr18 addr)), ?_,
      memSet_wf _ _ hwf, fun a => bankWord_bankWrite hwf _ _ a⟩
    rw [← bankWrite_eq]
    exact congrArg _ (if_pos hopen)
  · intro a f h
    have hread : exec (.granaryPortRead p port addr) s = .next (granaryPortRead p a s) := congrArg _ (if_pos hopen)
    rw [hread, granaryPortRead_eq, show bankRead s p a = f from rfl]
    refine ⟨fun hce hue => ?_, fun hce hue => ?_⟩
    · simp only [hce, hue, Bool.or_self, Bool.false_eq_true, if_false, countFound_clean p s hce hue]
    · intro counted t
      obtain ⟨-, hbell, hwbq, -⟩ := countFound_keeps p f s
      have ht : t = emit (.portData p f.data) (countFound p f s) := by
        rw [countFound_eq, if_pos hce, countHolding_owned (s := modBank p _ s) f
          (show s.plots[p].owner.val ≠ 0 from portOpen_owned hopen),
          foundCount_ce hce hue, bankCount_ce hce hue]
        rfl
      simp only [hce, hue, Bool.or_false, if_true, Bool.false_eq_true, if_false]
      rw [← ht, queueLine_eq (s := s)]
      · rw [ht]; exact hwbq p
      · rw [ht]; exact hbell
  · intro a f h hue t
    have hread : exec (.granaryPortRead p port addr) s = .next (granaryPortRead p a s) := congrArg _ (if_pos hopen)
    obtain ⟨hplots, -, -, hpolicy⟩ := countFound_keeps p f s
    have htp : t.plots = s.plots :=
      (recordUe_keeps p a _).1.trans ((queueLine_keeps p (a / 4) _).1.trans hplots)
    have hth : t.holdings[h.val].memUeReport = s.holdings[h.val].memUeReport :=
      (congrArg (fun x : Vector Holding 32 => x[h.val].memUeReport)
        ((recordUe_keeps p a _).2.trans (queueLine_keeps p (a / 4) _).2)).trans (hpolicy h)
    rw [hread, granaryPortRead_eq, show bankRead s p a = f from rfl]
    simp only [hue, Bool.or_true, if_true]
    exact congrArg _ (uePolicy_of (congrArg (fun x : Vector Plot 64 => x[p.val].owner) htp) hth)

end Sys2Proof.Machine

namespace Sys2Proof.Machine
open Sys2Proof.Safety

/-! Bins: what a write leaves a read (R194 to R198). -/

theorem testBit_ofBits (l : List Bool) (j : Nat) : (ofBits l).testBit j = (l[j]?).getD false := by
  induction l generalizing j with
  | nil => exact Nat.zero_testBit j
  | cons b l ih =>
    change (b2n b + 2 * ofBits l).testBit j = _
    cases j with
    | zero => cases b <;> simp [b2n, Nat.testBit_zero]
    | succ j =>
      rw [Nat.testBit_succ, show (b2n b + 2 * ofBits l) / 2 = ofBits l by cases b <;> simp [b2n]; omega, ih]
      rfl

/-- The bits of a row that a write of len bits from bit lo gives. -/
def partMask (lo len : Nat) : Word := BitVec.ofNat 48 ((2 ^ len - 1) * 2 ^ lo)

theorem partMask_bit {lo len i : Nat} (hi : i < len) (hk : i + lo < 48) : (partMask lo len)[i + lo] = true := by
  have hm : (partMask lo len).getLsbD (i + lo) = true := by
    rw [partMask, BitVec.getLsbD_ofNat, Nat.testBit_mul_two_pow, Nat.add_sub_cancel, Nat.testBit_two_pow_sub_one]
    simp [hk, hi]
  exact hm

/-- The part of a row's DATA that a write gives is what it wrote. -/
theorem merged_part (w d : Word) {lo len : Nat} (h : lo + len ≤ 48) :
    ((w &&& ~~~partMask lo len) ||| ((d <<< lo) &&& partMask lo len)).toNat / 2 ^ lo % 2 ^ len = d.toNat % 2 ^ len := by
  apply Nat.eq_of_testBit_eq
  intro i
  rw [Nat.testBit_mod_two_pow, Nat.testBit_mod_two_pow, Nat.testBit_div_two_pow, BitVec.testBit_toNat, BitVec.testBit_toNat]
  by_cases hi : i < len
  · have hk : i + lo < 48 := by omega
    simp [hi, hk, partMask_bit hi hk]
    rfl
  · simp [hi]

/-- DATA of a row after a write of a part. -/
def mergedData (w : Stored) (lo len : Nat) (d : Word) : Word :=
  (secData w &&& ~~~partMask lo len) ||| ((d <<< lo) &&& partMask lo len)

/-- A row that a write has merged reads clean, whatever the check mode, in the groups written. -/
theorem binFound_binMerge (mode : BitVec 2) (w : Stored) (lo len : Nat) (groups : List Nat) (d : Word)
    (hg : ∀ j ∈ groups, j < 8) :
    binFound mode (binMerge mode w lo len groups d) groups = ⟨mergedData w lo len d, false, false, false⟩ := by
  unfold binFound binMerge
  by_cases h0 : mode = 0
  · rw [if_pos h0, if_pos h0, secRead_clean (syndrome_secWord _), secData_secWord]; rfl
  by_cases h1 : mode = 1
  · rw [if_neg h0, if_pos h1, if_neg h0, if_pos h1, secData_append]
    refine congrArg (Found.mk _ _ · _) ?_
    unfold parityError
    rw [secData_append, List.any_eq_false]
    intro j hj
    have hj8 := hg j hj
    rw [BitVec.getLsbD_append, BitVec.getLsbD_ofNat, testBit_ofBits]
    simp [hj, hj8]
  · rw [if_neg h0, if_neg h1, if_neg h0, if_neg h1, secData_append]; rfl

/-- The part that an address selects lies in its row. -/
theorem binPlace_fits (shape : BitVec 2) (addr : Word) :
    (binPlace shape addr).2.1 + (binPlace shape addr).2.2.1 ≤ 48 ∧ ∀ j ∈ (binPlace shape addr).2.2.2, j < 8 := by
  unfold binPlace; dsimp only
  split
  · simp
  split
  · simp; omega
  · simp; omega

theorem binPlace_eq (shape : BitVec 2) (addr : Word) :
    (binPlace shape addr).1 = (if shape = 0 then addr.toNat % 1024
      else if shape = 1 then addr.toNat / 2 % 1024 else addr.toNat / 4 % 1024) ∧
    (binPlace shape addr).2.2.1 = if shape = 0 then 48 else if shape = 1 then 24 else 12 := by
  unfold binPlace; dsimp only
  repeat' split
  all_goals simp

/-- The row that an address selects in a Bin of a Plot, and what a read of it finds. -/
def binRowKey (x : Plot) (b : Fin 24) (addr : Word) : Nat := binKey b (binPlace x.bins[b].shape addr).1
def binSees (x : Plot) (b : Fin 24) (addr : Word) (w : Stored) : Found :=
  binFound (binModeOf x b) w (binPlace x.bins[b].shape addr).2.2.2

/-- The row after a write. -/
def binWritten (x : Plot) (b : Fin 24) (addr d : Word) : Stored :=
  binMerge (binModeOf x b) (memGet x.binMem (binRowKey x b addr)) (binPlace x.bins[b].shape addr).2.1
    (binPlace x.bins[b].shape addr).2.2.1 (binPlace x.bins[b].shape addr).2.2.2 d

theorem binWriteAt_eq (p : Fin 64) (b : Fin 24) (addr d : Word) (s : State) :
    binWriteAt p b addr d s = modPlot p (fun x => { x with
      binMem := memSet s.plots[p].binMem (binRowKey s.plots[p] b addr) (binWritten s.plots[p] b addr d) }) s :=
  modPlot_congr rfl

/-- A read of a row without an error delivers its part and changes nothing. -/
theorem binReadAt_clean {s : State} {p : Fin 64} {b : Fin 24} {addr data : Word} {x : Plot} (hx : s.plots[p] = x)
    (h : binSees x b addr (memGet x.binMem (binRowKey x b addr)) = ⟨data, false, false, false⟩) :
    binReadAt p b addr s = emit (.portData p (BitVec.ofNat 48 (data.toNat / 2 ^ (binPlace x.bins[b].shape addr).2.1 %
      2 ^ (binPlace x.bins[b].shape addr).2.2.1))) s := by
  subst hx
  have hf : binFound (binModeOf s.plots[p] b)
      (memGet s.plots[p].binMem (binKey b (binPlace s.plots[p].bins[b].shape addr).1))
      (binPlace s.plots[p].bins[b].shape addr).2.2.2 = ⟨data, false, false, false⟩ := h
  unfold binReadAt
  simp only [hf, countHolding_clean (f := ⟨data, false, false, false⟩) p s rfl rfl, Bool.false_eq_true, if_false]

theorem fabricRuns_modPlot {s : State} {p : Fin 64} {f : Plot → Plot} (h : (f s.plots[p]).owner = s.plots[p].owner) :
    fabricRuns (modPlot p f s) p = fabricRuns s p := by
  have ho : (modPlot p f s).plots[p].owner = s.plots[p].owner := (congrArg Plot.owner (upd_same s.plots p f)).trans h
  exact congrArg (fun h : Fin 32 => h.val != 0 && (s.holdings[h].st == .running || s.holdings[h].st == .quiesced) &&
    s.holdings[h].freeze != .cut && s.holdings[h].freeze != .forced) ho

theorem countHolding_plots (p : Fin 64) (f : Found) (s : State) : (countHolding p f s).plots = s.plots := by
  rw [countHolding_eq]; split <;> rfl

theorem modPlot_congr_of {s : State} {p : Fin 64} {x : Plot} {f g : Plot → Plot} (hx : s.plots[p] = x) (h : f x = g x) :
    modPlot p f s = modPlot p g s := modPlot_congr (by rw [hx, h])

/-- Settles O14: a part that has been merged reads back; scrub steps are their definitions. -/
theorem binsReadBackAndScrub : Obligations.BinsReadBackAndScrub := by
  refine ⟨fun s p b port port' addr d hruns hwf => ?_, fun s p hc hv hg hu hd => ?_, fun s p b => ?_⟩
  · intro x width row
    obtain ⟨hrow, hwidth⟩ := binPlace_eq x.bins[b].shape addr
    obtain ⟨hfits, hgroups⟩ := binPlace_fits x.bins[b].shape addr
    have hkey : binRowKey x b addr = 1024 * b.val + row := congrArg (binKey b) hrow
    let m := memSet x.binMem (binRowKey x b addr) (binWritten x b addr d)
    refine ⟨m, congrArg _ ((if_pos hruns).trans (binWriteAt_eq p b addr d s)),
      fun k hk => memGet_memSet_other hwf _ (hkey ▸ hk), ?_⟩
    have hfound : binSees x b addr (memGet m (binRowKey x b addr)) =
        ⟨mergedData (memGet x.binMem (binRowKey x b addr)) (binPlace x.bins[b].shape addr).2.1
          (binPlace x.bins[b].shape addr).2.2.1 d, false, false, false⟩ := by
      rw [memGet_memSet_same hwf]
      exact binFound_binMerge _ _ _ _ _ _ hgroups
    refine congrArg _ ((if_pos ((fabricRuns_modPlot rfl).trans hruns)).trans ?_)
    rw [binReadAt_clean (x := { x with binMem := m }) (upd_same s.plots p _) hfound]
    dsimp only
    rw [mergedData, merged_part _ _ hfits, hwidth]
  · refine congrArg _ ((if_neg ?_).trans ?_)
    · rw [hc, hv, hg, hu]; simpa using hd
    · simp only [scrubInterval, Nat.mul_assoc]
  · intro x k w f hscrub hshape hcheck hue
    have hmode : binModeOf x b = 0 := by rw [binModeOf, hshape, hcheck]; rfl
    refine congrArg _ ((if_pos (by rw [hscrub, show binModeOf s.plots[p] b = 0 from hmode]; rfl)).trans ?_)
    have hu : (binFound 0 (memGet s.plots[p].binMem (binKey b s.plots[p].bins[b].scrubRow)) [0, 1, 2, 3]).ue = false := hue
    have hx : (countHolding p f s).plots[p] = x := congrArg (fun v : Vector Plot 64 => v[p]) (countHolding_plots p f s)
    unfold binScrubAt
    simp only [show binModeOf s.plots[p] b = 0 from hmode, hu, Bool.not_false, if_true]
    exact modPlot_congr_of hx rfl

end Sys2Proof.Machine

namespace Sys2Proof.Machine
open Sys2Proof.Safety

/-! The system port (R176 to R183). -/

/-- The units that wait at a slot's owner, and so the units decided at the fence, by the slot that comes. -/
theorem execGranaryFence_eq {s : State} (p : Fin 64) (hedge : noEdge s = false) (hv : s.pins.vgran = true)
    (hslot : s.bell.slot.val ≠ 15) : execGranaryFence p s =
      let j := s.bell.slot.val + 1
      let k := min (slotLen s.bell.len j / 14) (unitsWaiting s p j ((s.slots.granary[p].toList[j]?).getD 0)
        (s.bell.edgeAt + slotStart s.bell.len j))
      .next (modBank p (fun b => { b with unitsNext := k, fence := b.fence || k != 0 }) s) := by
  have hj : (s.bell.slot.val + 1) % 16 = s.bell.slot.val + 1 := Nat.mod_eq_of_lt (by omega)
  refine congrArg _ ((if_neg (by rw [hedge, hv]; simp)).trans ?_)
  simp only [hj, hslot, if_false]

theorem unitsWaiting_system {s : State} {p : Fin 64} {j t : Nat} {owner : Byte} (hj : j ≠ 15) (ho : owner = 0) :
    unitsWaiting s p j owner t = sysLines s.banks[p].sys := by
  rw [unitsWaiting, if_neg hj, if_pos ho]

theorem unitsWaiting_window {s : State} {p : Fin 64} {j t : Nat} {owner : Byte} (hj : j ≠ 15) (ho : owner ≠ 0) :
    unitsWaiting s p j owner t = s.banks[p].win.length := by
  rw [unitsWaiting, if_neg hj, if_neg ho]

theorem systemUnits_none {s : State} {p : Fin 64} (h : s.banks[p].sys = []) : sysLines s.banks[p].sys = 0 := by
  rw [h]; rfl

/-- A unit that runs takes one of the slot's. -/
theorem execGranarySystemUnit_some {s t : State} {p : Fin 64} (hunits : s.banks[p].slotUnits ≠ 0)
    (hv : s.pins.vgran = true) (h : systemUnit p s = some t) :
    execGranarySystemUnit p s = .next (modBank p (fun b => { b with
      slotUnits := b.slotUnits - 1, fence := b.slotUnits != 1 || b.unitsNext != 0 }) t) := by
  refine congrArg _ ((if_neg (by simpa [hv] using hunits)).trans ?_)
  rw [h]

/-- From s to t no more scrub lines have fallen due in a bank, and none has been done. -/
def SameDue (p : Fin 64) (s t : State) : Prop := t.banks[p.val].scrubDue = s.banks[p.val].scrubDue

theorem SameDue.of_banks {p : Fin 64} {s t : State} (h : t.banks = s.banks) : SameDue p s t := by rw [SameDue, h]

theorem SameDue.trans {p : Fin 64} {s t u : State} (h : SameDue p s t) (k : SameDue p t u) : SameDue p s u :=
  Eq.trans k h

theorem modBank_sameDue (p q : Fin 64) (f : Bank → Bank) (s : State) (h : ∀ b, (f b).scrubDue = b.scrubDue) :
    SameDue p s (modBank q f s) := upd_keeps Bank.scrubDue _ _ _ _ (h _)

theorem countFound_sameDue (p q : Fin 64) (f : Found) (s : State) : SameDue p s (countFound q f s) := by
  refine .trans (modBank_sameDue p q (bankCount f) s fun _ => rfl) (.of_banks ?_)
  rw [countFound_eq, countHolding_eq]
  repeat' split
  all_goals simp

theorem noteRow_sameDue (p q : Fin 64) (a : Nat) (s : State) : SameDue p s (noteRow q a s) := by
  unfold noteRow
  extract_lets r n t
  have ht : SameDue p s t := modBank_sameDue p q _ s fun _ => rfl
  split
  · exact ht.trans (.of_banks (by simp [repairCandidate]))
  · exact ht

theorem correctWord_sameDue (p q : Fin 64) (scrub : Bool) (a : Nat) (s : State) :
    SameDue p s (correctWord scrub q a s) := by
  unfold correctWord
  extract_lets f t₁ t₂ poisons t₃ t₄ t₅
  have h₁ : SameDue p s t₁ := by
    unfold t₁; split
    · exact countFound_sameDue p q f s
    · rfl
  have h₂ : SameDue p s t₂ := by
    unfold t₂; split
    · exact h₁.trans (noteRow_sameDue p q a t₁)
    · exact h₁
  have h₃ : SameDue p s t₃ := by
    unfold t₃; split
    · exact h₂.trans (modBank_sameDue p q _ t₂ fun _ => rfl)
    · exact h₂
  have h₄ : SameDue p s t₄ := h₃.trans (modBank_sameDue p q _ t₃ fun _ => rfl)
  have h₅ : SameDue p s t₅ := h₄.trans (.of_banks (by simp [t₅]))
  split
  · exact h₃
  split
  · exact h₅.trans (.of_banks (by simp [repairCandidate]))
  · exact h₅

theorem correctLine_sameDue (p q : Fin 64) (scrub : Bool) (line : Nat) (s : State) :
    SameDue p s (correctLine scrub q line s) :=
  eachOf_rel (SameDue p) (fun _ => rfl) (fun _ _ _ => .trans) _ _ s fun _ _ => correctWord_sameDue p q scrub _ _

/-- A scrub unit: the next line is due, and one line fewer. -/
theorem scrubUnit_bank (p : Fin 64) (s : State) : (scrubUnit p s).banks[p].scrubLine = s.banks[p].scrubLine + 1 ∧
    (scrubUnit p s).banks[p].scrubDue = s.banks[p].scrubDue - 1 := by
  have h := upd_same (correctLine true p s.banks[p].scrubLine.toNat s).banks p fun b => { b with
    scrubLine := s.banks[p].scrubLine + 1, scrubDue := b.scrubDue - 1,
    ceRows := if s.banks[p].scrubLine = 0xFFFF then [] else b.ceRows }
  refine ⟨congrArg Bank.scrubLine h, (congrArg Bank.scrubDue h).trans ?_⟩
  exact congrArg (· - 1) (correctLine_sameDue p p true s.banks[p].scrubLine.toNat s)

/-- A system unit of one write: the write after it lies in another line. -/
theorem sysUnit_single {s : State} {p : Fin 64} {o : SysOp} {l : List SysOp} (h : s.banks[p].sys = o :: l)
    (hnext : ∀ x, l.head? = some x → x.addr / 4 ≠ o.addr / 4) :
    sysUnit p s = bankWrite p o.addr (secWord o.w) (modBank p (fun b => { b with sys := l }) s) := by
  unfold sysUnit
  rw [h]
  cases l with
  | nil => rfl
  | cons x l =>
    have hx : (x.addr / 4 == o.addr / 4) = false := beq_false_of_ne (hnext x rfl)
    simp [List.takeWhile, List.dropWhile, hx, eachOf]

theorem windowUnit_served {s : State} {p : Fin 64} {o : WinOp} (h : windowServes s s.plots[p].owner o.isWrite = true) :
    windowUnit p o s = if o.isWrite then windowWriteUnit p o s else windowReadUnit p o s :=
  if_neg (by rw [h]; decide)

/-- Settles O15: the fence's decision, and each kind of unit by what waits. -/
theorem systemUnitsFitTheirSlot : Obligations.SystemUnitsFitTheirSlot := by
  refine ⟨fun s p hedge hv hslot => ?_, fun s p hunits hv => ?_⟩
  · refine ⟨_, execGranaryFence_eq p hedge hv hslot, ?_, fun h14 => ?_, fun h14 howner hsys => ?_, fun h14 howner => ?_⟩
    · refine le_trans (Nat.mul_le_mul_left 14 (Nat.min_le_left _ _)) (le_trans (Nat.mul_div_le _ _) (le_of_eq ?_))
      rfl
    · simp only [h14]
      exact Nat.min_le_right _ _
    · rw [unitsWaiting_system (by omega) howner, systemUnits_none hsys]
      exact Nat.min_zero _
    · exact le_trans (Nat.min_le_right _ _) (le_of_eq (unitsWaiting_window (by omega) howner))
  intro took
  refine ⟨?_, ?_, ?_, ?_⟩
  · intro line tick l h15 hq
    refine execGranarySystemUnit_some hunits hv ?_
    rw [systemUnit, if_pos h15, hq]
  · intro h15 hq hdue
    refine ⟨execGranarySystemUnit_some hunits hv ?_, scrubUnit_bank p s⟩
    rw [systemUnit, if_pos h15, hq]
    exact if_pos hdue
  · intro o l h15 howner hsys hnext
    refine execGranarySystemUnit_some hunits hv ?_
    rw [systemUnit, if_neg h15, if_pos howner, sysUnit_single hsys hnext, hsys]
    rfl
  · intro o l h15 howner hwin hturn hserves t
    refine execGranarySystemUnit_some hunits hv ?_
    rw [systemUnit, if_neg h15, if_neg howner, hwin]
    dsimp only
    rw [if_pos hturn, windowUnit_served (s := modBank p _ s) hserves]

end Sys2Proof.Machine

namespace Sys2Proof.Machine
open Sys2Proof.Safety

/-! The Granary window (R202 to R207). -/

/-- Byte k of a value. -/
def byteOf (d : Word) (k : Nat) : Byte := BitVec.ofNat 8 (d.toNat / 256 ^ k)

theorem byteOf_bit (d : Word) (k : Nat) {i : Nat} (hi : i < 8) : (byteOf d k).getLsbD i = d.getLsbD (8 * k + i) := by
  rw [byteOf, BitVec.getLsbD_ofNat, show 256 ^ k = 2 ^ (8 * k) by rw [Nat.pow_mul], Nat.testBit_div_two_pow,
    BitVec.testBit_toNat, Nat.add_comm]
  simp [hi]

theorem windowByte_eq (d : Word) (k : Nat) : windowByte d k = if k < 6 then byteOf d k else 0 := by
  unfold windowByte
  split
  · ext i hi
    exact (BitVec.getLsbD_extractLsb' .. |>.trans (by simp [hi])).trans (byteOf_bit d k hi).symm
  · rfl

theorem byteMask_bit {j : Nat} (hj : j < 48) : (0xFF#48).getLsbD j = decide (j < 8) := by
  rw [BitVec.getLsbD_ofNat, show (0xFF : Nat) = 2 ^ 8 - 1 from rfl, Nat.testBit_two_pow_sub_one]
  simp [hj]

theorem putByte_bit (d : Word) (k : Nat) (v : Byte) {i : Nat} (hi : i < 48) :
    (putByte d k v).getLsbD i = if 8 * k ≤ i ∧ i < 8 * k + 8 then v.getLsbD (i - 8 * k) else d.getLsbD i := by
  rw [putByte, BitVec.getLsbD_or, BitVec.getLsbD_and, BitVec.getLsbD_not, BitVec.getLsbD_shiftLeft,
    BitVec.getLsbD_shiftLeft, BitVec.getLsbD_setWidth, byteMask_bit (by omega)]
  by_cases hlow : i < 8 * k
  · simp [hi, hlow, Nat.not_le.mpr hlow]
  by_cases hin : i < 8 * k + 8
  · have : i - 8 * k < 8 ∧ i - 8 * k < 48 ∧ 8 * k ≤ i := by omega
    simp [hi, hlow, hin, this]
  · have : ¬ i - 8 * k < 8 := by omega
    simp [hi, hin, this, BitVec.getLsbD_of_ge v _ (Nat.not_lt.mp this)]

/-- Six bytes of a value, put in place, are the value. -/
theorem putBytes_bit (d e : Word) (n : Nat) {i : Nat} (hi : i < 48) :
    ((List.range n).foldl (fun x k => putByte x k (byteOf e k)) d).getLsbD i =
      if i < 8 * n then e.getLsbD i else d.getLsbD i := by
  induction n with
  | zero => rfl
  | succ n ih =>
    rw [List.range_succ, List.foldl_append, List.foldl_cons, List.foldl_nil, putByte_bit _ _ _ hi, ih]
    split
    next h => rw [byteOf_bit e n (by omega), if_pos (by omega)]; congr 1; omega
    next h => by_cases h8 : i < 8 * n
              · rw [if_pos h8, if_pos (by omega)]
              · rw [if_neg h8, if_neg (by omega)]

theorem putBytes_eq (d e : Word) : (List.range 6).foldl (fun x k => putByte x k (byteOf e k)) d = e := by
  apply BitVec.eq_of_getLsbD_eq
  intro i hi
  rw [putBytes_bit d e 6 hi, if_pos hi]

theorem word_place (a : Nat) {j : Nat} (hj : j < 8) : (8 * a + j) / 8 = a ∧ (8 * a + j) % 8 = j := by omega

/-- A full word is the one word that a request for it touches. -/
theorem wordsOf_full (a : Nat) : wordsOf (8 * a) 8 = [a] := by
  rw [wordsOf, show (8 * a % 8 + 8 + 7) / 8 = 1 by omega, Nat.mul_div_cancel_left a (by decide)]
  rfl

/-- The six data bytes of a full word. -/
theorem writtenBytes_full (vf : Fin 33) (a : Nat) (e : Word) :
    writtenBytes ⟨vf, 0, true, 8 * a, 8, (List.range 8).map (byteOf e)⟩ a = (List.range 6).map fun k => (k, byteOf e k) := by
  have hdiv : ∀ j < 8, (8 * a + j) / 8 = a := fun j hj => (word_place a hj).1
  simp [writtenBytes, List.range_succ, List.zipIdx, hdiv]

/-- A part waits at its bank behind the earlier ones. -/
def waitsAt (p : Fin 64) (o : WinOp) (s : State) : State :=
  let t := modBank p (fun b => { b with win := b.win ++ [o] }) s
  { t with host := { t.host with winSeq := s.host.winSeq + 1 } }

/-- A request in one line of a window is one part. -/
theorem windowParts_line {vf : Fin 33} {write : Bool} {off n fuel : Nat} (bytes : List Byte) (s : State)
    (hfuel : fuel ≠ 0) (hn : 0 < n) (hline : off % 32 + n ≤ 32) :
    windowParts vf write (fuel + 1) off n bytes s =
      match rectBank s.holdings[vfHolding s vf].rect (off / 0x200000), windowServes s (vfHolding s vf) write with
      | some p, true => waitsAt p ⟨vf, s.host.winSeq, write, off % 0x200000, n, bytes.take n⟩ s
      | _, _ => windowMiss vf (vfHolding s vf) write n s := by
  have hpart : partLen off n = n := by rw [partLen]; omega
  obtain ⟨m, rfl⟩ : ∃ m, fuel = m + 1 := ⟨fuel - 1, by omega⟩
  rw [windowParts, if_neg (by omega), hpart]
  dsimp only
  rw [windowParts, if_pos (Nat.sub_self n)]
  rfl

section
variable {vf : Fin 33} {write : Bool} {off n fuel : Nat} {bytes : List Byte} {s : State}
  (hfuel : fuel ≠ 0) (hn : 0 < n) (hline : off % 32 + n ≤ 32)
include hfuel hn hline

theorem windowParts_waits {p : Fin 64} (hp : rectBank s.holdings[vfHolding s vf].rect (off / 0x200000) = some p)
    (hs : windowServes s (vfHolding s vf) write = true) :
    windowParts vf write (fuel + 1) off n bytes s =
      waitsAt p ⟨vf, s.host.winSeq, write, off % 0x200000, n, bytes.take n⟩ s := by
  rw [windowParts_line bytes s hfuel hn hline, hp, hs]

theorem windowParts_misses (h : rectBank s.holdings[vfHolding s vf].rect (off / 0x200000) = none ∨
      windowServes s (vfHolding s vf) write = false) :
    windowParts vf write (fuel + 1) off n bytes s = windowMiss vf (vfHolding s vf) write n s := by
  rw [windowParts_line bytes s hfuel hn hline]
  rcases h with h | h
  · rw [h]
  · rw [h]; split <;> simp_all

end

theorem windowMiss_eq (vf : Fin 33) (h : Fin 32) (write : Bool) (len : Nat) (s : State) :
    windowMiss vf h write len s =
      let t := if h = 0 then s else limited evWindowMiss h.val 1 s
      if write then t else emit (.windowCpl vf (List.replicate len 0) false) t := by
  simp only [windowMiss, Fin.val_eq_zero_iff]

theorem windowReadUnit_eq (p : Fin 64) (o : WinOp) (s : State) : windowReadUnit p o s =
    emit (.windowCpl o.vf ((List.range o.len).map fun i =>
        windowByte (bankRead s p ((o.off + i) / 8)).data ((o.off + i) % 8))
      ((wordsOf o.off o.len).any fun a => (bankRead s p a).ue))
    (eachOf (wordsOf o.off o.len) (fun a t =>
      if (bankRead t p a).ue then recordUe p a (countFound p (bankRead t p a) t)
      else countFound p (bankRead t p a) t) s) := rfl

/-- A read of a clean word delivers its bytes and changes nothing. -/
theorem windowReadUnit_full {s : State} {p : Fin 64} {a : Nat} {d : Word} (vf : Fin 33)
    (h : bankRead s p a = ⟨d, false, false, false⟩) :
    windowReadUnit p ⟨vf, 0, false, 8 * a, 8, []⟩ s =
      emit (.windowCpl vf ((List.range 8).map fun k => if k < 6 then byteOf d k else 0) false) s := by
  have hbytes : ((List.range 8).map fun i => windowByte (bankRead s p ((8 * a + i) / 8)).data ((8 * a + i) % 8)) =
      (List.range 8).map fun k => if k < 6 then byteOf d k else 0 := by
    refine List.map_congr_left fun i hi => ?_
    obtain ⟨hdiv, hmod⟩ := word_place a (List.mem_range.mp hi)
    rw [hdiv, hmod, h, windowByte_eq]
  rw [windowReadUnit_eq, hbytes, wordsOf_full]
  simp [eachOf, h, countFound_clean (f := ⟨d, false, false, false⟩) p s rfl rfl]

/-- A write of all bytes stores the word. -/
theorem windowWriteUnit_full (vf : Fin 33) (p : Fin 64) (a : Nat) (e : Word) (s : State) :
    windowWriteUnit p ⟨vf, 0, true, 8 * a, 8, (List.range 8).map (byteOf e)⟩ s = bankWrite p a (secWord e) s := by
  unfold windowWriteUnit
  rw [wordsOf_full]
  simp only [eachOf, List.foldl_cons, List.foldl_nil, writtenBytes_full, List.foldl_map, putBytes_eq]
  rfl

/-- Settles O16: requests within a line, and the bytes of a word. -/
theorem windowRequestsAreServed : Obligations.WindowRequestsAreServed := by
  refine ⟨fun s vf off bytes n harr hn hline hlen => ?_, fun s p vf a d hword hwf => ?_⟩
  · intro h waits
    have hread : exec (.windowRead vf off n) s = .next (windowParts vf false (n + 1) off.toNat n [] s) :=
      congrArg _ (if_pos harr)
    have hwrite : exec (.windowWrite vf off bytes) s = .next (windowParts vf true (n + 1) off.toNat n bytes s) := by
      subst hlen; exact congrArg _ (if_pos harr)
    rw [hread, hwrite]
    refine ⟨fun p hp => ⟨fun hs => ?_, fun hs => ?_⟩, fun w hmiss => ?_⟩
    · rw [windowParts_waits (by omega) hn hline hp hs]
      exact congrArg (fun l => Host.Outcome.next (waits p ⟨vf, _, _, _, n, l⟩)) List.take_nil
    · rw [windowParts_waits (by omega) hn hline hp hs, List.take_of_length_le (le_of_eq hlen)]
      rfl
    · intro t
      refine ⟨?_, ?_⟩
      all_goals rintro rfl; rw [windowParts_misses (by omega) hn hline hmiss, windowMiss_eq]; rfl
  · intro l
    have hclean : bankRead s p a = ⟨d, false, false, false⟩ := by
      rw [bankRead, hword, secRead_clean (syndrome_secWord d), secData_secWord]
    exact ⟨windowReadUnit_full vf hclean, fun e k =>
      congrArg (fun t : State => bankWord t.banks[p] k) (windowWriteUnit_full vf p a e s).symm⟩

end Sys2Proof.Machine

namespace Sys2Proof.Machine
open Sys2Proof.Safety

/-! An acceptance resets the idle count (R265). -/

/-- A queue of the system to a Reeve channel, with one item behind the open gate that has waited for one edge. -/
def waitingQueue : Queue :=
  { Queue.reset with bound := true, active := true, consumer := 0x5000, items := [⟨marker 0x04 1, 0, false, false⟩],
                     vis := 1, buf := 1, idleCnt := 1 }

def waitingState : State := modQueue 0 (fun _ => waitingQueue) State.reset

theorem waitingState_queue : waitingState.queues[(0 : Fin 256)] = waitingQueue := upd_same State.reset.queues 0 _

theorem waitingState_owner : queueOwner waitingState 0 = 0 := by
  rw [queueOwner, waitingState_queue]; rfl

theorem waitingState_delivers : delivers waitingState 0 = true := by
  simp only [delivers, waitingState_owner, waitingState_queue]; rfl

theorem waitingState_accepts : portAccepts waitingState 0 = true := by
  rw [portAccepts, waitingState_queue]; rfl

/-- After an acceptance the queue has been idle for no edge. -/
theorem acceptItem_idleCnt {s : State} {q : Fin 256} {it : Item} (hoff : offered s.queues[q] = some it)
    (hdel : delivers s q = true) (hport : portAccepts s q = true) (hgap : s.queues[q].heldGap = 0) :
    (acceptItem q s).queues[q].idleCnt = 0 := by
  rw [acceptItem, hoff]
  dsimp only
  rw [if_pos (by rw [hdel, hport]; rfl), takeItem]
  simp only [hgap, ne_eq, not_true_eq_false, decide_false, Bool.and_false, Bool.false_eq_true, if_false]
  exact congrArg Queue.idleCnt (upd_same s.queues q _)

/-- Refutes O17: an acceptance also sets the count of idle edges to 0, which the statement keeps. -/
theorem not_itemsPassThroughTheQueue : ¬ Obligations.ItemsPassThroughTheQueue := by
  rintro ⟨-, -, h⟩
  have hoff : offered waitingState.queues[(0 : Fin 256)] = some (marker 0x04 1) := by rw [waitingState_queue]; rfl
  have hgap : waitingState.queues[(0 : Fin 256)].heldGap = 0 := by rw [waitingState_queue]; rfl
  have heq := h waitingState 0 _ hoff waitingState_delivers waitingState_accepts hgap
  have hnext := Host.Outcome.next.inj heq
  have hcnt := acceptItem_idleCnt hoff waitingState_delivers waitingState_accepts hgap
  rw [show acceptItem 0 waitingState = _ from hnext] at hcnt
  have hkept : waitingState.queues[(0 : Fin 256)].idleCnt = 1 := congrArg Queue.idleCnt waitingState_queue
  exact absurd (hcnt.symm.trans ((congrArg Queue.idleCnt (upd_same waitingState.queues 0 _)).trans hkept)) (by decide)

end Sys2Proof.Machine

namespace Sys2Proof.Machine
open Sys2Proof.Safety

/-! Commits (R226 to R232, R255 to R259). -/

theorem itLast_mkItem (f l m b : Bool) (d : Word) : itLast (mkItem f l m b d) = l := by
  simp only [itLast, mkItem, BitVec.getLsbD_append]
  cases l <;> rfl
theorem itBad_mkItem (f l m b : Bool) (d : Word) : itBad (mkItem f l m b d) = b := by
  simp only [itBad, mkItem, BitVec.getLsbD_append]
  cases b <;> rfl

@[simp] theorem itLast_storedMarker (it : Item) : itLast (storedMarker it) = itLast it := by
  unfold storedMarker; split
  · exact itLast_mkItem ..
  · rfl
@[simp] theorem itBad_storedMarker (it : Item) : itBad (storedMarker it) = itBad it := by
  unfold storedMarker; split
  · exact itBad_mkItem ..
  · rfl

/-- A tap that no unit holds sees nothing. -/
theorem showTap_unseen {s : State} {kind n : Nat} (e : TapEv)
    (h : ∀ u : Fin 32, tapSees s.cvus[u] (tapCode kind n) = false) : showTap kind n e s = s := by
  refine if_neg ?_
  rw [Vector.any_eq_true]
  rintro ⟨i, hi, hu⟩
  exact absurd hu (by simp [show tapSees s.cvus[i] _ = false from h ⟨i, hi⟩])

theorem tapRewind_unseen {s : State} {q : Fin 256} (h : ∀ u : Fin 32, tapSees s.cvus[u] (tapCode 1 q.val) = false) :
    tapRewind q s = s := by
  unfold tapRewind; split
  · rfl
  · exact showTap_unseen _ h

/-! The owner of a queue. -/

theorem queueOwner_congr {s t : State} {q : Fin 256} (hb : t.queues[q.val].bound = s.queues[q.val].bound)
    (ho : t.queues[q.val].owner = s.queues[q.val].owner) : queueOwner t q = queueOwner s q := by
  simp only [queueOwner, Fin.getElem_fin, hb, ho]

theorem ownerRuns_congr {s t : State} {q : Fin 256} (hb : t.queues[q.val].bound = s.queues[q.val].bound)
    (ho : t.queues[q.val].owner = s.queues[q.val].owner) (hh : t.holdings = s.holdings) :
    ownerRuns t q = ownerRuns s q := by
  simp only [ownerRuns, queueOwner_congr hb ho, hh]

theorem restoring_congr {s t : State} {q : Fin 256} (hb : t.queues[q.val].bound = s.queues[q.val].bound)
    (ho : t.queues[q.val].owner = s.queues[q.val].owner) (hh : t.snap = s.snap) :
    restoring t q = restoring s q := by
  simp only [restoring, queueOwner_congr hb ho, hh]

theorem commitEdge_congr {s t : State} (hb : t.bell = s.bell) (hf : t.fresh = s.fresh) : commitEdge t = commitEdge s := by
  rw [commitEdge, edgesAway, noEdge, toEdge, hb, hf]
  rfl

/-- The item as it is committed: its place in the packet, and its edge. -/
def commitCell (cb : Nat) (x : Queue) (it : Item) : QCell := ⟨setFirst x.openPk.isEmpty (storedMarker it), cb, false, false⟩

theorem modQueue_congr {q : Fin 256} {f g : Queue → Queue} {s : State} (h : f s.queues[q] = g s.queues[q]) :
    modQueue q f s = modQueue q g s := by
  rw [modQueue, modQueue, upd_congr h]

/-- What is appended to a queue of a running owner is released at once when the queue is free. -/
theorem afterAppend_running {s : State} {q : Fin 256} (f : Queue → Queue) (h : ownerRuns s q = true)
    (hb : (f s.queues[q]).bound = s.queues[q].bound) (ho : (f s.queues[q]).owner = s.queues[q].owner) :
    afterAppend q (modQueue q f s) =
      modQueue q (fun x => if (f x).locked then f x else { f x with vis := (f x).items.length }) s := by
  have hx : (modQueue q f s).queues[q.val] = f s.queues[q.val] := upd_same s.queues q f
  have hruns : ownerRuns (modQueue q f s) q = true := by
    rw [ownerRuns_congr ((congrArg Queue.bound hx).trans hb) ((congrArg Queue.owner hx).trans ho) rfl, h]
  have hlocked : (modQueue q f s).queues[q].locked = (f s.queues[q]).locked := congrArg Queue.locked hx
  rw [afterAppend, hruns, hlocked]
  cases hl : (f s.queues[q]).locked
  · exact (modQueue_modQueue q _ f s).trans (modQueue_congr (if_neg (by rw [hl]; decide)).symm)
  · exact modQueue_congr (if_pos hl).symm

/-- A commit with room: what it makes of the queue. -/
def committed (cb : Nat) (it : Item) (x : Queue) : Queue :=
  let whole := freeReserve x.items ++ x.openPk ++ [commitCell cb x it]
  { x with
    items := if itLast it then whole else freeReserve x.items,
    openPk := if itLast it then [] else x.openPk ++ [commitCell cb x it],
    vis := if itLast it && !x.locked then whole.length else x.vis }

theorem commitItem_room {s : State} {q : Fin 256} {it : Item} (cb : Nat) (hlosing : s.queues[q].losing = false)
    (hroom : roomFor s.queues[q] = true) (hgood : (itLast it && itBad it) = false)
    (htap : ∀ u : Fin 32, tapSees s.cvus[u] (tapCode 1 q.val) = false) (hruns : ownerRuns s q = true) :
    commitItem cb q it s = modQueue q (committed cb it) s := by
  unfold commitItem
  simp only [hlosing, itLast_storedMarker, itBad_storedMarker, hgood, hroom, showTap_unseen _ htap,
    Bool.not_true, Bool.false_eq_true, if_false]
  by_cases hl : itLast it = true
  · rw [if_pos hl, afterAppend_running _ hruns rfl rfl]
    refine modQueue_congr ?_
    dsimp only [committed]
    rw [hl]
    cases s.queues[q].locked <;> rfl
  · rw [if_neg hl]
    refine modQueue_congr ?_
    dsimp only [committed]
    rw [eq_false_of_ne_true hl]
    rfl

theorem leaveStaging_other {s : State} {q : Fin 256} (n : Nat)
    (h : ∀ c, endpoint s.queues[q.val].producer ≠ some (.laneRx c)) : leaveStaging q n s = s := by
  rw [leaveStaging]
  split
  next c hc => exact absurd hc (h c)
  next => rfl

/-- Nothing enters staging from a freeze register that is empty. -/
theorem refill_empty {s : State} {q : Fin 256} (h : ∀ p port, endpoint s.queues[q.val].producer = some (.plotPort p port) →
    s.plots[p.val].freezeRegs[port.val] = none) : refill q s = s := by
  rw [refill]
  split
  next p port hp =>
    split
    next it hit => exact absurd (hit.symm.trans (h p port hp)) (by simp)
    next => rfl
  next => rfl

/-- Of a staging of items alone a unit of one item takes the first. -/
theorem commitStaged_one {l : List Staged} (cb : Nat) (q : Fin 256) (it : Item) (s : State)
    (h : l.all isStagedItem = true) : commitStaged cb q (.item it :: l) 1 s = (commitItem cb q it s, l) := by
  cases l with
  | nil => rfl
  | cons x l =>
    cases x with
    | item _ => rfl
    | _ => simp [isStagedItem] at h

/-- The first loss of a packet stands in a new marker, whose queue is released when it is free. -/
theorem gapCount_new {s : State} {q : Fin 256} {n : Nat} (hn : n ≠ 0) (hrestore : restoring s q = false)
    (hheld : s.queues[q].heldGap = 0) (hres : s.queues[q].items.any (·.res) = false)
    (hgap : ∀ c, s.queues[q].items.getLast? = some c → c.gap = false) :
    gapCount q n s = afterAppend q (modQueue q (fun x => { x with
      items := x.items ++ [⟨marker mkGap n, commitEdge s, true, true⟩] }) s) := by
  rw [gapCount, if_neg hn, hrestore]
  simp only [hheld, ne_eq, not_true_eq_false, if_false, Bool.false_eq_true]
  split
  next c hc => rw [hgap c hc, hres]; rfl
  next hnone => exact congrArg _ (modQueue_congr (by rw [List.getLast?_eq_none_iff.mp hnone]; rfl))

theorem countDrop_eq {q : Fin 256} {n : Nat} (hn : n ≠ 0) (s : State) : countDrop q n s =
    limited evQueueDrop q.val n (modQueue q (fun x => { x with dropCount := satAdd x.dropCount n }) s) := if_neg hn

/-- A unit that may run: an edge lies ahead, and the owner runs. -/
theorem canCommit_parts {s : State} {q : Fin 256} {n : Nat} (h : canCommit s q n = true) :
    noEdge s = false ∧ ownerRuns s q = true := by
  simp only [canCommit, storeSlot, Bool.and_eq_true, Bool.not_eq_true'] at h
  tauto

/-- A unit of one item, far from the edge, of a queue whose port waits for nothing. -/
theorem execCommitUnit_one {s : State} {q : Fin 256} {it : Item} {l : List Staged} (hcan : canCommit s q 1 = true)
    (hstage : s.queues[q].staging = .item it :: l) (hl : l.all isStagedItem = true) (hfar : 2 ≤ toEdge s) {f : Queue → Queue}
    (hcommit : commitItem (s.bell.edges + 1) q it s = modQueue q f s)
    (hprod : (f s.queues[q]).producer = s.queues[q].producer)
    (hlane : ∀ c, endpoint s.queues[q].producer ≠ some (.laneRx c))
    (hreg : ∀ p port, endpoint s.queues[q].producer = some (.plotPort p port) → s.plots[p].freezeRegs[port] = none) :
    exec (.commitUnit q 1) s =
      .next (modQueue q (fun x => { f x with staging := l, prodFree := (f x).prodFree + 1 }) s) := by
  have hn : commitN q 1 s = modQueue q (fun x => { f x with staging := l, prodFree := (f x).prodFree + 1 }) s := by
    rw [commitN, hstage, commitEdge, edgesAway_of_far hfar, commitStaged_one _ _ _ _ hl, hcommit]
    dsimp only
    rw [modQueue_modQueue]
    refine leaveStaging_other 1 fun c => ?_
    rw [show (modQueue q _ s).queues[q.val] = _ from upd_same s.queues q _]
    exact hprod ▸ hlane c
  refine congrArg _ ((if_pos hcan).trans ?_)
  rw [hn, afterArbiter_of_far (show 2 ≤ toEdge (modQueue q _ s) from hfar)]
  refine refill_empty fun p port => ?_
  rw [show (modQueue q _ s).queues[q.val] = _ from upd_same s.queues q _]
  exact hprod ▸ hreg p port

/-- A commit without room within a packet: the packet is lost with what was committed of it. -/
theorem commitItem_noRoom {s : State} {q : Fin 256} {it : Item} (cb : Nat) (hlosing : s.queues[q].losing = false)
    (hlast : itLast it = false) (hroom : roomFor s.queues[q] = false)
    (htap : ∀ u : Fin 32, tapSees s.cvus[u] (tapCode 1 q.val) = false) :
    commitItem cb q it s = gapCount q (s.queues[q].openPk.length + 1) (countDrop q (s.queues[q].openPk.length + 1)
      (modQueue q (fun x => { x with openPk := [], losing := true }) s)) := by
  unfold commitItem
  simp only [hlosing, itLast_storedMarker, itBad_storedMarker, hlast, hroom, tapRewind_unseen htap, Bool.false_and,
    Bool.not_false, if_true, Bool.false_eq_true, if_false]

/-- Settles O18: one item at a time, by what a commit makes of its queue. -/
theorem commitUnitsKeepPacketsWhole : Obligations.CommitUnitsKeepPacketsWhole := by
  refine ⟨fun s q it l => ?_, fun s q it cb => ?_⟩
  · intro x hcan hstage hl hlosing hroom hgood htap hlane hreg hfar cell whole
    obtain ⟨-, hruns⟩ := canCommit_parts hcan
    rw [execCommitUnit_one hcan hstage hl hfar (commitItem_room _ hlosing hroom hgood htap hruns)
      rfl hlane hreg]
    rfl
  · intro x hlosing htap
    refine ⟨fun hlast hbad => ?_, fun hlast hroom hheld hres hgap hrestore hlocked hruns => ?_⟩
    · unfold commitItem
      simp only [show s.queues[q].losing = false from hlosing, itLast_storedMarker, itBad_storedMarker, hlast, hbad,
        tapRewind_unseen htap, Bool.and_self, if_true, Bool.false_eq_true, if_false]
      exact upd_same s.queues q _
    · intro n
      rw [commitItem_noRoom cb hlosing hlast hroom htap, countDrop_eq (Nat.succ_ne_zero _)]
      let u := limited evQueueDrop q.val n (modQueue q (fun y => { y with dropCount := satAdd y.dropCount n })
        (modQueue q (fun y => { y with openPk := [], losing := true }) s))
      have hu : u.queues[q.val] = { x with openPk := [], losing := true, dropCount := satAdd x.dropCount n } := by
        simp [u, x]
      have hbound := congrArg Queue.bound hu
      have howner := congrArg Queue.owner hu
      have hrun : ownerRuns u q = true := (ownerRuns_congr hbound howner (by simp [u])).trans hruns
      have hrest : restoring u q = false := (restoring_congr hbound howner (by simp [u])).trans hrestore
      have hedge : commitEdge u = commitEdge s := commitEdge_congr (by simp [u]) (by simp [u])
      change (gapCount q n u).queues[q.val] = _
      rw [gapCount_new (Nat.succ_ne_zero _) hrest ((congrArg Queue.heldGap hu).trans hheld)
        ((congrArg (fun y : Queue => y.items.any (·.res)) hu).trans hres)
        (fun c hc => hgap c ((congrArg (fun y : Queue => y.items.getLast?) hu).symm.trans hc)),
        afterAppend_running _ hrun rfl rfl, hedge, modQueue_queues, upd_same, hu]
      exact if_pos hlocked

end Sys2Proof.Machine

namespace Sys2Proof.Machine
open Sys2Proof.Safety

/-! Closure, late edges and idle timeouts (R52 to R61, R264, R265). -/

theorem queueOwner_modQueue {s : State} {q : Fin 256} {f : Queue → Queue} (r : Fin 256)
    (hb : (f s.queues[q]).bound = s.queues[q].bound) (ho : (f s.queues[q]).owner = s.queues[q].owner) :
    queueOwner (modQueue q f s) r = queueOwner s r :=
  queueOwner_congr (upd_keeps Queue.bound _ _ _ _ hb) (upd_keeps Queue.owner _ _ _ _ ho)

/-- A close handshake far from the edge covers what is committed, for that edge. -/
theorem closeHandshake_far {s : State} {q : Fin 256} (hcar : carries s.queues[q] = true) (hlock : s.queues[q].locked = true)
    (hdes : isDesign s.queues[q].producer = true) (hfar : 2 ≤ toEdge s) :
    closeHandshake q s = modQueue q (fun x => { x with closeLen := some x.items.length }) s := by
  unfold closeHandshake
  dsimp only
  rw [hcar, hlock, hdes, edgesAway_of_far hfar]
  exact afterArbiter_of_far (s := modQueue q _ s) hfar

/-- The judgement of a bell-locked queue of a running design outside a freeze. -/
theorem judgeQueue_design {s : State} {q : Fin 256} (e : Nat) (hcar : carries s.queues[q] = true)
    (hlock : s.queues[q].locked = true) (hdes : isDesign s.queues[q].producer = true) (hrun : ownerRuns s q = true)
    (hgate : gated s q = false) : judgeQueue e q s =
      match s.queues[q].closeLen with
      | some n => closedEdge q e n s
      | none => lateEdge q e s := by
  unfold judgeQueue
  dsimp only
  rw [hcar, hlock, hdes, hrun, hgate]
  rfl

/-- A closed edge that ends no run of late ones. -/
theorem closedEdge_noRun {s : State} {q : Fin 256} (e n : Nat) (h : s.queues[q].lateRun.toNat < 16) :
    closedEdge q e n s = modQueue q (fun x => { x with
      vis := max x.vis (duePrefix e n x), lateRun := 0, runPosted := false }) s := by
  unfold closedEdge
  dsimp only
  rw [if_neg (Nat.not_le.mpr h), releaseTo, modQueue_modQueue]
  exact modQueue_congr rfl

/-- A late edge of a queue that stalls. -/
theorem lateEdge_stall {s : State} {q : Fin 256} (e : Nat) (h : s.queues[q].mark = false) :
    lateEdge q e s = modQueue q (fun x => { x with
      lateCount := satAdd x.lateCount 1, lateRun := satAdd x.lateRun 1 }) s := by
  have hmark : (modQueue q (fun x => { x with
      lateCount := satAdd x.lateCount 1, lateRun := satAdd x.lateRun 1 }) s).queues[q].mark = false :=
    (congrArg Queue.mark (upd_same s.queues q _)).trans h
  exact if_neg (Bool.eq_false_iff.mp hmark)

/-- A timeout of a queue that carries traffic, not yet posted. -/
theorem execIdleTimeout_due {s : State} {q : Fin 256} (hcar : carries s.queues[q] = true)
    (hbells : s.queues[q].idleBells ≠ 0) (hidle : s.queues[q].idle = false)
    (hcnt : s.queues[q].idleBells.toNat ≤ s.queues[q].idleCnt) : execIdleTimeout q s =
      let t := post evIdleTimeout (queueOwner (modQueue q (fun x => { x with idle := true }) s) q)
        (datTop q.val (min s.queues[q].idleCnt 0xFFFF)) (modQueue q (fun x => { x with idle := true }) s)
      .next (if s.queues[q].idleFlush then flushQueue q t else t) := by
  refine congrArg _ (if_neg ?_)
  rw [hcar, hidle, decide_eq_false hbells, decide_eq_false (Nat.not_lt.mpr hcnt)]
  decide

/-- Settles O19. -/
theorem closureDecidesReleases : Obligations.ClosureDecidesReleases := by
  refine ⟨fun s q hcar hlock hdes => ⟨fun hruns _ hfar => ?_, fun hrun hgate => ⟨fun e n hclose hlate => ?_,
      fun e hclose hmark => ?_⟩⟩,
    fun s q => ?_⟩
  · exact congrArg _ ((if_pos hruns).trans (closeHandshake_far hcar hlock hdes hfar))
  · rw [judgeQueue_design e hcar hlock hdes hrun hgate, hclose]
    exact closedEdge_noRun e n hlate
  · rw [judgeQueue_design e hcar hlock hdes hrun hgate, hclose]
    exact lateEdge_stall e hmark
  · intro x h
    refine ⟨fun hrun hposted => ?_, fun hrun => ?_, fun hcar hbells hidle hcnt => ?_⟩
    · refine congrArg _ (if_neg ?_)
      rw [show s.queues[q].runPosted = false from hposted, decide_eq_false (Nat.not_lt.mpr hrun)]
      decide
    · refine congrArg _ (if_pos ?_)
      rw [decide_eq_true hrun]
      rfl
    · intro t
      have howner : queueOwner (modQueue q (fun x => { x with idle := true }) s) q = h :=
        queueOwner_modQueue q rfl rfl
      exact (execIdleTimeout_due hcar hbells hidle hcnt).trans (by rw [howner])

end Sys2Proof.Machine

namespace Sys2Proof.Machine
open Sys2Proof.Safety

/-! An INVOKE that the checks pass (Table 13-3): what its own condition and effect make of it. -/

/-- A row that some column may invoke is an Action. -/
def invokesActions (l : List Attr) : Bool :=
  l.all fun a => (a.op != .x && a.ten != .x && a.maint != .x && a.pub != .x) || a.ty == .action

theorem attrs_invokesActions (area : Area) : invokesActions (attrs area) = true := by
  cases area with
  | hold h g => unfold attrs; dsimp only; repeat' split
                all_goals decide
  | _ => rfl

theorem allows_x : ∀ {right : Rt}, allows right .x = true → right = .x
  | .x, _ => rfl

theorem attrOf_action {ix : BitVec 16} {sub : Nat} {a : Attr} {role : Role} (ha : attrOf ix sub = some a)
    (h : hasRight role a .x = true) : a.ty = .action := by
  obtain ⟨area, -, hfind⟩ := Option.bind_eq_some_iff.mp ha
  have hrow := List.all_eq_true.mp (attrs_invokesActions area) a (List.mem_of_find?_eq_some hfind)
  have hx : a.op = .x ∨ a.ten = .x ∨ a.maint = .x ∨ a.pub = .x := by
    unfold hasRight at h
    rw [Bool.or_eq_true] at h
    rcases h with h | h
    · exact .inr (.inr (.inr (allows_x h)))
    · cases role with
      | pub => cases h
      | operator => exact .inl (allows_x h)
      | tenant _ => exact .inr (.inl (allows_x h))
      | maint => exact .inr (.inr (.inl (allows_x h)))
  rcases hx with hx | hx | hx | hx <;> simpa [hx] using hrow

/-- The checks pass for an entry that exists and that the role has a right to. -/
theorem checkEntry_none {s : State} {role : Role} {ix : BitVec 16} {sub : Nat} {acc : Access}
    (h : checkEntry s role ix sub acc true true true = none) :
    ∃ a, attrOf ix sub = some a ∧ hasRight role a acc = true := by
  unfold checkEntry at h
  split at h
  · cases h
  split at h
  · cases h
  next a ha =>
    refine ⟨a, ha, ?_⟩
    by_contra hr
    rw [Bool.not_eq_true] at hr
    rw [hr] at h
    cases h

section
variable {s : State} {rq : Req} {se : Session} {ix : BitVec 16} {sub : Nat}
  {cond : Session → State → Option Byte} {eff : Session → State → State × Option (Byte × BellNo)}

/-- The TYPE of the response to an INVOKE that the checks pass. -/
theorem granted_type (h : granted s rq se ix sub .x = true) (op : Byte) : typeByte op ix sub = actionType := by
  obtain ⟨a, ha, hr⟩ := checkEntry_none (granted_parts h).2
  rw [typeByte, ha]
  dsimp only
  rw [attrOf_action ha hr]
  rfl

theorem invokeReq_answered {t : State} {st : Byte} {b : BellNo} (h : granted s rq se ix sub .x = true)
    (hc : cond (advanced rq se) (executing rq se s) = none)
    (he : eff (advanced rq se) (executing rq se s) = (t, some (st, b))) :
    invokeReq rq ix sub true cond eff s = answered rq st b t := by
  rw [invokeReq_granted cond eff h, hc, he, granted_type h]
  rfl

theorem invokeReq_later {t : State} (h : granted s rq se ix sub .x = true)
    (hc : cond (advanced rq se) (executing rq se s) = none)
    (he : eff (advanced rq se) (executing rq se s) = (t, none)) :
    invokeReq rq ix sub true cond eff s = t := by
  rw [invokeReq_granted cond eff h, hc, he]

theorem invokeReq_refused {st : Byte} (h : granted s rq se ix sub .x = true)
    (hc : cond (advanced rq se) (executing rq se s) = some st) :
    invokeReq rq ix sub true cond eff s = refusedWith rq opInvoke st ix sub (executing rq se s) := by
  rw [invokeReq_granted cond eff h, hc]
  rfl

end

end Sys2Proof.Machine

namespace Sys2Proof.Machine
open Sys2Proof.Safety

/-! Bind, unbind and flush (R235 to R245, R260 to R262, R267). -/

theorem effectEdge_far {s : State} (h : 16 ≤ toEdge s) : effectEdge s = s.bell.edges + 1 := by
  rw [effectEdge, edgesAway_of_far h]

@[simp] theorem updateItemsHeld_queues (h : Fin 32) (s : State) : (updateItemsHeld h s).queues = s.queues ∧
    (updateItemsHeld h s).qstore = s.qstore := by
  unfold updateItemsHeld; split <;> simp

@[simp] theorem laneBound_queues (q : Fin 256) (s : State) : (laneBound q s).queues = s.queues ∧
    (laneBound q s).qstore = s.qstore := by
  unfold laneBound; split <;> simp

@[simp] theorem leaveStaging_queues (q : Fin 256) (n : Nat) (s : State) : (leaveStaging q n s).queues = s.queues ∧
    (leaveStaging q n s).qstore = s.qstore ∧ (leaveStaging q n s).holdings = s.holdings := by
  unfold leaveStaging; split <;> simp

@[simp] theorem bindRing_queues (q : Fin 256) (s : State) : (bindRing q s).queues = s.queues ∧
    (bindRing q s).qstore = s.qstore := by
  unfold bindRing; split <;> simp

/-- What a bind makes of the queue from its execution on. -/
def boundFrom (edge : Nat) (decl : Option Nat) (x : Queue) : Queue :=
  { x with
    bound := true, bindEdge := some (max edge (x.unbindEdge.getD 0)), decl, pages := pagesFor x.depthLog2.toNat,
    dropCount := 0, rewindCount := 0, flushCount := 0, lateCount := 0, lateRun := 0, runPosted := false,
    idleCnt := 0, idle := false }

theorem bindQueue_queues (q : Fin 256) (edge : Nat) (decl : Option Nat) (s : State) :
    (bindQueue q edge decl s).queues = upd s.queues q (boundFrom edge decl) ∧
    (bindQueue q edge decl s).qstore =
      { s.qstore with freePages := s.qstore.freePages - pagesFor s.queues[q].depthLog2.toNat } := by
  unfold bindQueue
  simp only [updateItemsHeld_queues, laneBound_queues, modQueue_queues, modQueue_qstore, and_true]
  exact upd_congr rfl

/-- What an unbind makes of the queue from its execution on. -/
def unboundFrom (edge : Nat) (x : Queue) : Queue :=
  { x with
    bound := false, unbindEdge := some (max edge (x.bindEdge.getD 0)), unbindPages := x.unbindPages + x.pages, pages := 0 }

theorem unbindQueue_queues (q : Fin 256) (edge : Nat) (s : State) :
    (unbindQueue q edge s).queues = upd s.queues q (unboundFrom edge) ∧ (unbindQueue q edge s).qstore = s.qstore := by
  unfold unbindQueue
  simp only [updateItemsHeld_queues, modQueue_queues, modQueue_qstore, and_true]
  rfl

/-- A ring without issued tallies has none to force. -/
theorem forceTallies_none {s : State} {q : Fin 256} {code : Byte} (hcode : code ≠ codeFaulted)
    (h : s.rings[q].tallies = []) : forceTallies q code s = s := by
  have hmod : modRing q (fun r => { r with
      tallies := r.tallies.map fun t => if t.code.isNone then { t with code := some code } else t }) s = s :=
    modRing_id _ _ _ (by rw [h, List.map_nil, ← h])
  unfold forceTallies
  simp only [hcode, decide_false, Bool.false_and, Bool.false_eq_true, if_false, hmod]
  rw [sendForced, h]

theorem unbindRing_queues {s : State} {q : Fin 256} (h : s.rings[q].tallies = []) :
    (unbindRing q s).queues = s.queues ∧ (unbindRing q s).qstore = s.qstore := by
  unfold unbindRing
  rw [forceTallies_none (by decide) h]
  dsimp only
  split <;> simp

/-- What a flush leaves of a queue before its marker. -/
def emptied (x : Queue) : Queue :=
  { x with
    items := [], vis := 0, buf := 0, openPk := [], staging := [], losing := false, arrLosing := false,
    discarding := arrivalOpen x, heldGap := 0, closeLen := x.closeLen.map fun _ => 0,
    closeNext := x.closeNext.map fun _ => 0, runLen := 0, reqUp := false,
    prodFree := x.prodFree + (stagedItems x).length, consFree := x.consFree + x.buf,
    flushCount := satAdd x.flushCount (flushTotal x) }

/-- A free queue after its flush: one marker, released. -/
def flushed (edge : Nat) (x : Queue) : Queue :=
  { emptied x with items := [⟨marker mkFlush (flushTotal x), edge, false, false⟩], vis := 1 }

theorem roomFor_emptied {x : Queue} (h : 2 ≤ x.depthLog2.toNat) : roomFor (emptied x) = true := by
  have hd : 2 ^ 2 ≤ 2 ^ x.depthLog2.toNat := Nat.pow_le_pow_right (by decide) h
  simp only [roomFor, emptied, ordinaryItems, depth]
  simp
  omega

/-- A flush of a free queue of a running owner, with no loss waiting and no tap that sees it. -/
theorem flushItems_queues {s : State} {q : Fin 256} (htap : ∀ u : Fin 32, tapSees s.cvus[u] (tapCode 1 q.val) = false)
    (hheld : lossesHeld s.queues[q] = 0) (hruns : ownerRuns s q = true) (hlocked : s.queues[q].locked = false)
    (hdepth : 2 ≤ s.queues[q].depthLog2.toNat) :
    ∃ edge, (flushItems q s).queues = upd s.queues q (flushed edge) := by
  let t := modQueue q (fun x => { x with flushCount := satAdd x.flushCount (flushTotal s.queues[q]) }) (emptyQueue q s)
  have ht : t.queues = upd s.queues q emptied := by
    simp only [t, modQueue_queues, emptyQueue, leaveStaging_queues, tapRewind_unseen htap, upd_upd]
    exact upd_congr rfl
  have hx : t.queues[q.val] = emptied s.queues[q.val] := by rw [ht, upd_same]
  have hholdings : t.holdings = s.holdings := by
    simp only [t, modQueue_holdings, emptyQueue, leaveStaging_queues, tapRewind_unseen htap]
  have hrun : ownerRuns t q = true :=
    (ownerRuns_congr (by rw [hx]; rfl) (by rw [hx]; rfl) hholdings).trans hruns
  have hroom : roomFor t.queues[q] = true := (congrArg roomFor hx).trans (roomFor_emptied hdepth)
  refine ⟨commitEdge t, ?_⟩
  have hmark : (commitMarker q mkFlush (flushTotal s.queues[q]) t).queues = upd s.queues q (flushed (commitEdge t)) := by
    rw [commitMarker, hroom]
    rw [Bool.not_true, if_neg Bool.false_ne_true, afterAppend_running _ hrun rfl rfl, modQueue_queues, ht, upd_upd]
    refine upd_congr ?_
    exact if_neg (by simpa [emptied] using hlocked)
  unfold flushItems
  simp only [hheld, record_onlyLedger]
  exact hmark

theorem bellAt_coming {s : State} (h : noEdge s = false) : bellAt s (s.bell.edges + 1 - s.bell.edges) = s.bell.number + 1 := by
  rw [Nat.add_sub_cancel_left, bellAt_next h]

theorem max_none (n : Nat) {o : Option Nat} (h : o = none) : max n (o.getD 0) = n := by
  rw [h]; exact Nat.max_zero n

/-- The condition of an unbind of a bound queue whose Holding does not need it. -/
theorem unbindRefusal_none {s : State} {q : Fin 256} (hbound : s.queues[q].bound = true)
    (howner : queueOwner s q = 0 ∨ unbindable s.holdings[queueOwner s q].st = true) :
    (if !s.queues[q].bound then some stNotReady
      else if (queueOwner s q).val ≠ 0 && !unbindable s.holdings[queueOwner s q].st then some stBusy else none) = none := by
  refine (if_neg (by rw [hbound]; decide)).trans (if_neg ?_)
  rcases howner with h | h
  · simp [h]
  · simp only [h]; simp

/-- The condition of a flush of a bound queue that no snapshot or restore holds. -/
theorem flushRefusal_none {s : State} {q : Fin 256} (hbound : s.queues[q].bound = true)
    (hjob : queueOwner s q = 0 ∨ jobHolds s (queueOwner s q) = false) :
    (if !s.queues[q].bound then some stNotReady
      else if (queueOwner s q).val ≠ 0 && jobHolds s (queueOwner s q) then some stBusy else none) = none := by
  refine (if_neg (by rw [hbound]; decide)).trans (if_neg ?_)
  rcases hjob with h | h <;> simp [h]

/-- Settles O20. -/
theorem bindUnbindAndFlush : Obligations.BindUnbindAndFlush := by
  refine ⟨fun s rq se q hedge hfar => ?_, fun s rq se q hg => ?_⟩
  · have heff : effectEdge (executing rq se s) = s.bell.edges + 1 := effectEdge_far hfar
    have hbell : bellAt (executing rq se s) (s.bell.edges + 1 - (executing rq se s).bell.edges) = s.bell.number + 1 :=
      bellAt_coming hedge
    have harb : afterArbiter 16 (executing rq se s) = executing rq se s := afterArbiter_of_far hfar
    refine ⟨fun hg href hub => ?_, fun hg hbound hbind htallies howner => ?_⟩
    · obtain ⟨hqueues, hstore⟩ := bindQueue_queues q (s.bell.edges + 1) none (executing rq se s)
      refine ⟨bindRing q (bindQueue q (s.bell.edges + 1) none (executing rq se s)),
        congrArg _ (invokeReq_answered hg href ?_), ?_, ?_, fun r hr => ?_⟩
      · simp only [executing_queues, hub, Option.getD_none, Nat.max_zero, heff, hbell, harb]
      · rw [(bindRing_queues q _).1, hqueues]
        refine (upd_same s.queues q _).trans ?_
        rw [boundFrom, max_none _ (show s.queues[q.val].unbindEdge = none from hub)]
        rfl
      · rw [(bindRing_queues q _).2, hstore]
        rfl
      · rw [(bindRing_queues q _).1, hqueues]
        exact upd_other s.queues q r _ hr
    · obtain ⟨hqueues, hstore⟩ := unbindRing_queues (s := executing rq se s) (q := q) htallies
      obtain ⟨hun, hunstore⟩ := unbindQueue_queues q (s.bell.edges + 1) (unbindRing q (executing rq se s))
      refine ⟨unbindWhole q (s.bell.edges + 1) (executing rq se s), congrArg _ (invokeReq_answered hg ?_ ?_),
        ?_, hunstore.trans hstore, fun r hr => ?_⟩
      · exact unbindRefusal_none hbound howner
      · simp only [executing_queues, hbind, Option.getD_none, Nat.max_zero, heff, hbell, harb]
      · rw [unbindWhole, hun, hqueues]
        refine (upd_same s.queues q _).trans ?_
        rw [unboundFrom, max_none _ (show s.queues[q.val].bindEdge = none from hbind)]
        rfl
      · rw [unbindWhole, hun, hqueues]
        exact upd_other s.queues q r _ hr
  · intro x hbound hjob htallies hheld htap hdepth hruns hlocked
    obtain ⟨edge, hqueues⟩ := flushItems_queues (s := executing rq se s) htap hheld hruns hlocked hdepth
    have hx : (flushItems q (executing rq se s)).queues[q.val] = flushed edge x := by rw [hqueues]; exact upd_same s.queues q _
    have hforce := forceTallies_none (s := executing rq se s) (q := q) (code := codeFlushed) (by decide) htallies
    refine ⟨flushItems q (executing rq se s), congrArg _ (invokeReq_answered hg ?_ ?_), ?_⟩
    · exact flushRefusal_none hbound hjob
    · rw [flushQueue, hforce]
      rfl
    · intro n y
      rw [show y = flushed edge x from hx, hqueues]
      exact ⟨rfl, rfl, rfl, rfl, rfl, rfl, rfl, rfl, rfl, rfl, fun r hr => upd_other s.queues q r _ hr⟩

end Sys2Proof.Machine

namespace Sys2Proof.Machine
open Sys2Proof.Safety

/-! What faults, recoveries and the actions of Holdings leave as it was. -/

/-- A lane but for the CREDIT that it sends. -/
def Lane.line (x : Lane) : Lane := { x with creditOut := 0 }

/-- From s to t no more happens than Holdings and queues can undergo: the village, the pins, the faults latched, the self-test,
telemetry, the quads, the gates and the progress of boot stay, and the lanes but for their CREDIT. -/
@[simp] abbrev OnlyContained (s t : State) : Prop :=
  t.village = s.village ∧ t.pins = s.pins ∧ t.dev = s.dev ∧ t.test = s.test ∧ t.tele = s.tele ∧ t.breaches = s.breaches ∧
    t.quads = s.quads ∧ t.gates = s.gates ∧ t.boot.cores = s.boot.cores ∧ t.boot.phase = s.boot.phase ∧
    t.boot.seeded = s.boot.seeded ∧ t.lanes.map Lane.line = s.lanes.map Lane.line

@[simp] theorem map_line_upd (v : Vector Lane 48) (l : Fin 48) (f : Lane → Lane) (h : ∀ x, (f x).line = x.line) :
    (upd v l f).map Lane.line = v.map Lane.line := map_upd_keeps _ v l f h

theorem OnlyContained.trans {s t u : State} (h : OnlyContained s t) (k : OnlyContained t u) : OnlyContained s u := by
  simp_all

@[simp] theorem ite_contained (c : Prop) [Decidable c] (a b : State) :
    (if c then a else b).village = (if c then a.village else b.village) ∧
    (if c then a else b).pins = (if c then a.pins else b.pins) ∧
    (if c then a else b).dev = (if c then a.dev else b.dev) ∧
    (if c then a else b).test = (if c then a.test else b.test) ∧
    (if c then a else b).tele = (if c then a.tele else b.tele) ∧
    (if c then a else b).breaches = (if c then a.breaches else b.breaches) ∧
    (if c then a else b).quads = (if c then a.quads else b.quads) ∧
    (if c then a else b).gates = (if c then a.gates else b.gates) ∧
    (if c then a else b).boot.cores = (if c then a.boot.cores else b.boot.cores) ∧
    (if c then a else b).boot.phase = (if c then a.boot.phase else b.boot.phase) ∧
    (if c then a else b).boot.seeded = (if c then a.boot.seeded else b.boot.seeded) ∧
    (if c then a else b).lanes.map Lane.line =
      (if c then a.lanes.map Lane.line else b.lanes.map Lane.line) := by
  split <;> simp

@[simp] theorem eachFin_contained (n : Nat) (f : Fin n → State → State) (s : State)
    (h : ∀ i t, OnlyContained t (f i t)) :
    OnlyContained s (eachFin n f s) := eachFin_rel OnlyContained (by simp) (fun _ _ _ => OnlyContained.trans) n f s h
@[simp] theorem eachOf_contained {α : Type} (l : List α) (f : α → State → State) (s : State)
    (h : ∀ i t, OnlyContained t (f i t)) :
    OnlyContained s (eachOf l f s) := eachOf_rel OnlyContained (by simp) (fun _ _ _ => OnlyContained.trans) l f s h

@[simp] theorem latch_contained (r : Rec) (s : State) : OnlyContained s (latch r s) := by
  unfold latch; simp
@[simp] theorem raiseVec_contained (f : Fin 33) (v : Nat) (s : State) : OnlyContained s (raiseVec f v s) := by
  unfold raiseVec; simp
@[simp] theorem addLossPending_contained (q : Fin 256) (n : Nat) (s : State) :
    OnlyContained s (addLossPending q n s) := by
  unfold addLossPending; split <;> simp
@[simp] theorem afterAppend_contained (q : Fin 256) (s : State) : OnlyContained s (afterAppend q s) := by
  unfold afterAppend; simp
@[simp] theorem gapCount_contained (q : Fin 256) (n : Nat) (s : State) : OnlyContained s (gapCount q n s) := by
  unfold gapCount; dsimp only; repeat' split
  all_goals simp [*]
@[simp] theorem countDrop_contained (q : Fin 256) (n : Nat) (s : State) : OnlyContained s (countDrop q n s) := by
  unfold countDrop; simp
@[simp] theorem showTap_contained (kind n : Nat) (e : TapEv) (s : State) : OnlyContained s (showTap kind n e s) := by
  unfold showTap; simp
@[simp] theorem tapRewind_contained (q : Fin 256) (s : State) : OnlyContained s (tapRewind q s) := by
  unfold tapRewind; simp
@[simp] theorem lossReached_contained (q : Fin 256) (n : Nat) (ended : Bool) (s : State) :
    OnlyContained s (lossReached q n ended s) := by
  unfold lossReached; simp
@[simp] theorem rewindOpen_contained (q : Fin 256) (s : State) : OnlyContained s (rewindOpen q s) := by
  unfold rewindOpen; simp
@[simp] theorem commitMarker_contained (q : Fin 256) (code arg : Nat) (s : State) :
    OnlyContained s (commitMarker q code arg s) := by
  unfold commitMarker; simp
@[simp] theorem resyncReached_contained (q : Fin 256) (gap : Nat) (recovery : Bool) (s : State) :
    OnlyContained s (resyncReached q gap recovery s) := by
  unfold resyncReached; simp
@[simp] theorem commitItem_contained (cb : Nat) (q : Fin 256) (it0 : Item) (s : State) :
    OnlyContained s (commitItem cb q it0 s) := by
  unfold commitItem; simp
@[simp] theorem commitStaged_contained (cb : Nat) (q : Fin 256) (l : List Staged) (n : Nat) (s : State) :
    OnlyContained s (commitStaged cb q l n s).1 := by
  induction l generalizing n s with
  | nil => simp [commitStaged]
  | cons x l ih => cases x <;> (try cases n) <;> simp [commitStaged, ih]
@[simp] theorem leaveStaging_contained (q : Fin 256) (n : Nat) (s : State) : OnlyContained s (leaveStaging q n s) := by
  have hcredit (v : Vector Lane 48) (l : Fin 48) (k : BitVec 16) :
      (upd v l fun x => { x with creditOut := x.creditOut + k }).map Lane.line = v.map Lane.line :=
    map_line_upd _ _ _ fun _ => rfl
  unfold leaveStaging; split <;> simp [hcredit]
@[simp] theorem commitN_contained (q : Fin 256) (n : Nat) (s : State) : OnlyContained s (commitN q n s) := by
  unfold commitN; simp
@[simp] theorem rewindPlace_contained (q : Fin 256) (s : State) : OnlyContained s (rewindPlace q s) := by
  unfold rewindPlace; simp
@[simp] theorem ringMessage_contained (q : Fin 256) (s : State) : OnlyContained s (ringMessage q s) := by
  unfold ringMessage; simp
@[simp] theorem writeBack_contained (q : Fin 256) (t : Tally) (code : Byte) (s : State) :
    OnlyContained s (writeBack q t code s) := by
  unfold writeBack; simp
@[simp] theorem sendForced_contained (q : Fin 256) (a0 : Nat) (s : State) : OnlyContained s (sendForced q a0 s) := by
  induction a0 generalizing s with
  | zero => simp [sendForced]
  | succ n ih =>
    unfold sendForced; repeat' split
    all_goals simp [ih]
@[simp] theorem forceTallies_contained (q : Fin 256) (code : Byte) (s : State) :
    OnlyContained s (forceTallies q code s) := by
  unfold forceTallies; simp
@[simp] theorem fatalTallies_contained (s : State) : OnlyContained s (fatalTallies s) := by
  unfold fatalTallies; simp
@[simp] theorem pf0Respond_contained (k : Fin 8) (msg : List Byte) (len : Nat) (s : State) :
    OnlyContained s (pf0Respond k msg len s) := by
  unfold pf0Respond; simp
@[simp] theorem ssp1Respond_contained (msg : List Byte) (len : Nat) (s : State) :
    OnlyContained s (ssp1Respond msg len s) := by
  unfold ssp1Respond; simp
@[simp] theorem noResponse_contained (p : Path) (s : State) : OnlyContained s (noResponse p s) := by
  unfold noResponse; split <;> simp
@[simp] theorem pf0Notice_contained (msg : List Byte) (len : Nat) (s : State) :
    OnlyContained s (pf0Notice msg len s) := by
  unfold pf0Notice; simp
@[simp] theorem ssp1Notice_contained (msg : List Byte) (s : State) : OnlyContained s (ssp1Notice msg s) := by
  unfold ssp1Notice; simp
@[simp] theorem sendNotice_contained (p : Path) (sess ctr : BitVec 32) (inner : List Byte) (s : State) :
    OnlyContained s (sendNotice p sess ctr inner s) := by
  unfold sendNotice; split <;> simp
@[simp] theorem closeSession_contained (se : Session) (reason : Byte) (s : State) :
    OnlyContained s (closeSession se reason s) := by
  unfold closeSession; simp
@[simp] theorem sendResponse_contained (p : Path) (sess ctr : BitVec 32) (inner : List Byte) (s : State) :
    OnlyContained s (sendResponse p sess ctr inner s) := by
  unfold sendResponse; split <;> simp
@[simp] theorem respond_contained (rq : Req) (op st ty : Byte) (bell : BellNo) (body : List Byte) (s : State) :
    OnlyContained s (respond rq op st ty bell body s) := by
  unfold respond; split <;> simp
@[simp] theorem invokeDone_contained (rq : Option Req) (st : Byte) (b : BellNo) (s : State) :
    OnlyContained s (invokeDone rq st b s) := by
  unfold invokeDone; split <;> simp
@[simp] theorem unforce_contained (h : Fin 32) (s : State) : OnlyContained s (unforce h s) := by
  unfold unforce; exact eachOf_contained _ _ _ fun _ _ => by simp
@[simp] theorem endSnapshot_contained (st : SnapState) (code : Byte) (s : State) :
    OnlyContained s (endSnapshot st code s) := by
  unfold endSnapshot; split <;> simp
@[simp] theorem endRestore_contained (st : SnapState) (code : Byte) (s : State) :
    OnlyContained s (endRestore st code s) := by
  unfold endRestore; split <;> simp
@[simp] theorem cutJobs_contained (h : Fin 32) (s : State) : OnlyContained s (cutJobs h s) := by
  unfold cutJobs; dsimp only; repeat' split
  all_goals simp [*]
@[simp] theorem mbxPut_contained (i : Fin 33) (v : BitVec 128) (s : State) : OnlyContained s (mbxPut i v s) := by
  unfold mbxPut; simp
@[simp] theorem mailbox_contained (e : Ev) (h : Fin 32) (data : Word) (s : State) :
    OnlyContained s (mailbox e h data s) := by
  unfold mailbox; simp
@[simp] theorem post_contained (e : Ev) (h : Fin 32) (data : Word) (s : State) : OnlyContained s (post e h data s) := by
  unfold post; simp
@[simp] theorem cancelled_contained (h : Fin 32) (t : Trans) (s : State) : OnlyContained s (cancelled h t s) := by
  unfold cancelled; split <;> simp
@[simp] theorem cancelTransitions_contained (h : Fin 32) (s : State) : OnlyContained s (cancelTransitions h s) := by
  unfold cancelTransitions; simp
@[simp] theorem busyAnswer_contained (rq : Option Req) (s : State) : OnlyContained s (busyAnswer rq s) := by
  unfold busyAnswer; simp
@[simp] theorem dropPending_contained (keepClears : Bool) (h : Fin 32) (s : State) :
    OnlyContained s (dropPending keepClears h s) := by
  unfold dropPending; simp
@[simp] theorem cutFreezes_contained (h : Fin 32) (s : State) : OnlyContained s (cutFreezes h s) := by
  unfold cutFreezes; simp
@[simp] theorem refreshHedges_contained (s : State) : OnlyContained s (refreshHedges s) := by
  unfold refreshHedges; simp
@[simp] theorem setState_contained (h : Fin 32) (st : HState) (s : State) : OnlyContained s (setState h st s) := by
  unfold setState; simp
@[simp] theorem openSector_contained (i : Nat) (s : State) : OnlyContained s (openSector i s) := by
  unfold openSector; simp
theorem placeRecord_contained (n : Nat) (s t : State) (a : Nat) (h : placeRecord n s = some (t, a)) :
    OnlyContained s t := by
  unfold placeRecord at h; repeat' split at h
  all_goals simp at h
  all_goals (obtain ⟨rfl, -⟩ := h; simp)
@[simp] theorem flashRun_contained (l : List FlashOp) (s : State) : OnlyContained s (flashRun l s) := by
  induction l generalizing s with
  | nil => simp [flashRun]
  | cons o l ih => cases o <;> simp [flashRun, ih]
@[simp] theorem flashStart_contained (s : State) : OnlyContained s (flashStart s) := by
  unfold flashStart; repeat' split
  all_goals simp
@[simp] theorem flashPush_contained (o : FlashOp) (s : State) : OnlyContained s (flashPush o s) := by
  unfold flashPush; simp
@[simp] theorem appendRecord_contained (tag ix : BitVec 16) (sub ty : BitVec 8) (value : List Byte) (s : State) :
    OnlyContained s (appendRecord tag ix sub ty value s) := by
  unfold appendRecord; dsimp only; split
  · simp
  · rename_i t a h; simp [placeRecord_contained _ _ _ _ h]
@[simp] theorem storeEpoch_contained (h : Fin 32) (s : State) : OnlyContained s (storeEpoch h s) := by
  unfold storeEpoch; simp
@[simp] theorem closeSessions_contained (p : Session → Bool) (reason : Byte) (s : State) :
    OnlyContained s (closeSessions p reason s) := by
  unfold closeSessions; simp
@[simp] theorem rampPlot_contained (p : Fin 64) (mv : Nat) (s : State) : OnlyContained s (rampPlot p mv s) := by
  unfold rampPlot; simp
@[simp] theorem startRegulator_contained (p : Fin 64) (s : State) : OnlyContained s (startRegulator p s) := by
  unfold startRegulator; simp
@[simp] theorem callForRestart_contained (p : Fin 64) (s : State) : OnlyContained s (callForRestart p s) := by
  unfold callForRestart; simp
@[simp] theorem clearPlot_contained (p : Fin 64) (s : State) : OnlyContained s (clearPlot p s) := by
  unfold clearPlot; simp
@[simp] theorem answerWaiting_contained (ep : Bool) (p : Fin 64) (s : State) :
    OnlyContained s (answerWaiting ep p s) := by
  unfold answerWaiting; simp
@[simp] theorem enterClearing_contained (h : Fin 32) (s : State) : OnlyContained s (enterClearing h s) := by
  unfold enterClearing; refine OnlyContained.trans ?_ (eachOf_contained _ _ _ fun _ _ => ?_) <;> simp
@[simp] theorem updateItemsHeld_contained (h : Fin 32) (s : State) : OnlyContained s (updateItemsHeld h s) := by
  unfold updateItemsHeld; simp
@[simp] theorem unbindQueue_contained (q : Fin 256) (edge : Nat) (s : State) :
    OnlyContained s (unbindQueue q edge s) := by
  unfold unbindQueue; simp
@[simp] theorem unbindRing_contained (q : Fin 256) (s : State) : OnlyContained s (unbindRing q s) := by
  unfold unbindRing; simp
@[simp] theorem unbindWhole_contained (q : Fin 256) (edge : Nat) (s : State) :
    OnlyContained s (unbindWhole q edge s) := by
  unfold unbindWhole; simp
@[simp] theorem unbindDeclared_contained (h : Fin 32) (s : State) : OnlyContained s (unbindDeclared h s) := by
  unfold unbindDeclared; simp
@[simp] theorem rampHolding_contained (h : Fin 32) (mv : Nat) (s : State) : OnlyContained s (rampHolding h mv s) := by
  unfold rampHolding; simp
@[simp] theorem backToEmpty_contained (h : Fin 32) (s : State) : OnlyContained s (backToEmpty h s) := by
  unfold backToEmpty; simp
@[simp] theorem failLoad_contained (code : Byte) (toClearing : Bool) (s : State) :
    OnlyContained s (failLoad code toClearing s) := by
  unfold failLoad; split
  · simp
  · dsimp only; repeat' split
    all_goals simp
@[simp] theorem fatalHolding_contained (h : Fin 32) (s : State) : OnlyContained s (fatalHolding h s) := by
  unfold fatalHolding; simp
@[simp] theorem fatalQuiesce_contained (h : Fin 32) (s : State) : OnlyContained s (fatalQuiesce h s) := by
  unfold fatalQuiesce; simp
@[simp] theorem queueRecovered_contained (q : Fin 256) (s : State) : OnlyContained s (queueRecovered q s) := by
  unfold queueRecovered; simp
@[simp] theorem suspendAudit_contained (on : Bool) (c : FatalCause) (s : State) :
    OnlyContained s (suspendAudit on c s) := by
  unfold suspendAudit; split <;> simp
@[simp] theorem emptyQueue_contained (q : Fin 256) (s : State) : OnlyContained s (emptyQueue q s) := by
  unfold emptyQueue; simp
@[simp] theorem flushItems_contained (q : Fin 256) (s : State) : OnlyContained s (flushItems q s) := by
  unfold flushItems; simp
@[simp] theorem flushQueue_contained (q : Fin 256) (s : State) : OnlyContained s (flushQueue q s) := by
  unfold flushQueue; simp
@[simp] theorem rebuildStore_contained (s : State) : OnlyContained s (rebuildStore s) := by
  unfold rebuildStore; simp
@[simp] theorem rebuildTallies_contained (s : State) : OnlyContained s (rebuildTallies s) := by
  unfold rebuildTallies; simp
@[simp] theorem rebuildCredits_contained (q : Fin 256) (s : State) : OnlyContained s (rebuildCredits q s) := by
  unfold rebuildCredits; simp
@[simp] theorem rebuild_contained (c : FatalCause) (s : State) : OnlyContained s (rebuild c s) := by
  cases c <;> simp [rebuild]
@[simp] theorem limitFlush_contained (s : State) : OnlyContained s (limitFlush s) := by
  unfold limitFlush; simp

@[simp] theorem faultTallies_contained (h : Fin 32) (s : State) : OnlyContained s (faultTallies h s) := by
  unfold faultTallies; simp
@[simp] theorem faultHolding_contained (h : Fin 32) (cause : FaultCause) (s : State) :
    OnlyContained s (faultHolding h cause s) := by
  unfold faultHolding; split
  · simp
  · split <;> simp
@[simp] theorem setUnfit_contained (p : Fin 64) (s : State) : OnlyContained s (setUnfit p s) := by
  unfold setUnfit; simp

/-- A DEVICE_FATAL fault leaves all that but the faults latched and the self-test. -/
@[simp] theorem deviceFatal_others (causes : List FatalCause) (s : State) :
    (deviceFatal causes s).village = s.village ∧ (deviceFatal causes s).pins = s.pins ∧
    (deviceFatal causes s).tele = s.tele ∧ (deviceFatal causes s).breaches = s.breaches ∧
    (deviceFatal causes s).quads = s.quads ∧ (deviceFatal causes s).gates = s.gates ∧
    (deviceFatal causes s).boot.cores = s.boot.cores ∧ (deviceFatal causes s).boot.phase = s.boot.phase ∧
    (deviceFatal causes s).boot.seeded = s.boot.seeded ∧
    (deviceFatal causes s).lanes.map Lane.line = s.lanes.map Lane.line := by
  unfold deviceFatal; split
  · simp
  · dsimp only; split <;> simp

end Sys2Proof.Machine

namespace Sys2Proof.Machine
open Sys2Proof.Safety

/-! The bell of an edge (R37 to R39, R83, R87). -/

/-- What a turn makes of the timebase. -/
def turned (s : State) (b : Bell) : Bell :=
  let first := s.bell.firstEdge || s.bell.restart.isSome
  { b with
    number := edgeNumber s, edges := b.edges + 1, edgeAt := edgeTick s, now := edgeTick s, firstEdge := false,
    restart := none, slot := 0, slotBegun := false, binLast := if first then none else b.binLast,
    binFrom := if first then edgeTick s else b.binFrom }

@[simp] theorem turn_bell (s : State) : (turn s).bell = turned s s.bell := by
  unfold turn; simp [turned]

/-- A period change that is due is in force. -/
def periodTaken (b : Bell) : Bell :=
  match (b.pendPeriod.filter (·.1 ≤ b.edges)).getLast? with
  | none => b
  | some v => { b with period := v.2, pendPeriod := b.pendPeriod.filter fun x => !(x.1 ≤ b.edges) }

@[simp] theorem periodEdge_bell (s : State) : (periodEdge s).bell = periodTaken s.bell := by
  unfold periodEdge periodTaken; dsimp only
  cases (s.bell.pendPeriod.filter (·.1 ≤ s.bell.edges)).getLast? with
  | none => rfl
  | some v => simp

/-- The period in force from an edge on. -/
def periodNext (b : Bell) : BitVec 16 := (((b.pendPeriod.filter (·.1 ≤ b.edges)).getLast?).map (·.2)).getD b.period

theorem periodTaken_eq (b : Bell) :
    periodTaken b = { b with period := periodNext b, pendPeriod := (periodTaken b).pendPeriod } := by
  unfold periodTaken periodNext; split
  next h => rw [h]; rfl
  next v h => rw [h]; rfl

/-- A count of failed audits is all that changes of the timebase. -/
def SameTime (s t : State) : Prop := t.bell = { s.bell with auditFails := t.bell.auditFails }

theorem SameTime.trans {s t u : State} (h : SameTime s t) (k : SameTime t u) : SameTime s u := by
  rw [SameTime] at h k ⊢
  rw [k, h]

/-- What one failed audit does before the fault that it is a cause of. -/
def auditNoted (x : Nat × FatalCause) (s : State) : State :=
  record evAuditFail 0 (BitVec.ofNat 48 x.1)
    (modBell (fun b => { b with auditFails := satAdd b.auditFails 1 }) (suspendAudit true x.2 s))

theorem failAudits_eq (l : List (Nat × FatalCause)) (s : State) :
    failAudits l s = if l = [] then s else deviceFatal (l.map (·.2)) (eachOf l auditNoted s) := rfl

theorem failAudits_time (l : List (Nat × FatalCause)) (s : State) : SameTime s (failAudits l s) := by
  rw [failAudits_eq]; split
  · rfl
  · refine .trans (t := eachOf l auditNoted s) ?_ (by simp [SameTime])
    exact eachOf_rel SameTime (fun _ => rfl) (fun _ _ _ => .trans) l _ s fun x t => by simp [SameTime, auditNoted]

/-! What faults and recoveries leave of the village. -/

@[simp] theorem failAudits_village (l : List (Nat × FatalCause)) (s : State) : (failAudits l s).village = s.village := by
  rw [failAudits_eq]; split
  · rfl
  · rw [(deviceFatal_others _ _).1]
    exact eachOf_rel (fun t u => u.village = t.village) (fun _ => rfl) (fun _ _ _ h k => k.trans h) l _ s
      fun x t => by simp [auditNoted]

@[simp] theorem recoveryEdge_village (l : List (Nat × FatalCause)) (s : State) : (recoveryEdge l s).village = s.village := by
  unfold recoveryEdge recovery rebuildAll; dsimp only; repeat' split
  all_goals simp

/-- The last steps of an edge count failed audits and leave the rest of the timebase and the village. -/
theorem edgeEnd_time (l : List (Nat × FatalCause)) (s : State) :
    SameTime s (limitFlush (failAudits l (recoveryEdge l s))) ∧
    (limitFlush (failAudits l (recoveryEdge l s))).village = s.village := by
  refine ⟨.trans (t := recoveryEdge l s) (by simp [SameTime]) (.trans (failAudits_time l _) (by simp [SameTime])), by simp⟩

/-- The edge up to the length of the bell that begins. -/
def edgeBegun (s : State) : State :=
  let s := pulse (turn s)
  let s := queuesEdge (cadenceEdge (captureEdge s))
  let s := eachFin 32 (fun u t => cvuEdge u t) s
  let s := holdingsEdge s
  let s := mapsEdge (eachFin 32 (fun h t => clearingEdge h t) s)
  let s := eachFin 256 (fun q t => bindEdge q t) s
  let s := eachFin 32 (fun h t => clearComplete h t) s
  derivedEdge (villageEdge (limvaEdge (loadEdge (periodEdge s))))

theorem edge_eq (s : State) : edge s =
    limitFlush (failAudits (auditFails s) (recoveryEdge (auditFails s) (lengthEdge (edgeBegun s)))) := rfl

theorem edgeBegun_bell (s : State) : (edgeBegun s).bell = periodTaken (turned s s.bell) := by
  simp [edgeBegun]

/-- Outside a slew and BELL_IN the bell that begins has the length of the period. -/
theorem lengthEdge_bell (s : State) : ∃ a, (lengthEdge s).bell =
    { s.bell with len := bellLength s s.bell.period.toNat, adj := a } ∧
    (lengthEdge s).village.slewing = s.village.slewing := by
  unfold lengthEdge; dsimp only
  split
  · exact ⟨_, rfl, rfl⟩
  · exact ⟨_, rfl, rfl⟩

theorem bellLength_period {s : State} (n : Nat) (hslew : s.village.slewing = false) (hsource : s.bell.source = false) :
    bellLength s n = n := by
  simp [bellLength, hslew, hsource]

/-- Settles O2: the bell of an edge is what its turn, its period and its length make of it. -/
theorem edgeBeginsTheNextBell : Obligations.EdgeBeginsTheNextBell := by
  intro s
  refine ⟨fun h => congrArg _ (if_neg (by rw [h]; decide)), fun h => ⟨edge s, congrArg _ (if_pos h), ?_⟩⟩
  obtain ⟨htime, hvillage⟩ := edgeEnd_time (auditFails s) (lengthEdge (edgeBegun s))
  obtain ⟨a, hlen, hslews⟩ := lengthEdge_bell (edgeBegun s)
  rw [← edge_eq] at htime hvillage
  have hbell : ∃ n l, (edge s).bell = { turned s s.bell with
      period := periodNext (turned s s.bell), pendPeriod := l
      len := bellLength (edgeBegun s) (edgeBegun s).bell.period.toNat, adj := a, auditFails := n } :=
    ⟨_, _, by rw [htime, hlen, edgeBegun_bell, periodTaken_eq]⟩
  obtain ⟨n, l, hbell⟩ := hbell
  have hperiod : (edgeBegun s).bell.period = periodNext (turned s s.bell) := by rw [edgeBegun_bell, periodTaken_eq]
  have hsame : (edgeBegun s).bell.source = s.bell.source := by rw [edgeBegun_bell, periodTaken_eq]; rfl
  simp only [hbell]
  refine ⟨rfl, rfl, rfl, rfl, rfl, ?_, rfl, ?_, fun hslew hsource => ?_⟩
  · cases hr : s.bell.restart <;> simp [turned, edgeTick, hr]
  · unfold periodNext turned
    dsimp only
    cases (s.bell.pendPeriod.filter fun x => x.1 ≤ s.bell.edges + 1).getLast? <;> rfl
  · rw [bellLength_period _ (hslews.symm.trans (hvillage ▸ hslew)) (hsame.trans hsource), hperiod]

end Sys2Proof.Machine

namespace Sys2Proof.Machine
open Sys2Proof.Safety

/-! Ring errors and DEVICE_FATAL faults (R278, R279, R919 to R921, R938). -/

theorem datTop_zero (n : Nat) : datTop 0 n = BitVec.ofNat 48 n := by rw [datTop, Nat.zero_mul, Nat.zero_add]

/-- What one DEVICE_FATAL fault latches, unless the timebase was lost. -/
theorem deviceFatal_dev {c : FatalCause} (hc : c ≠ .timebaseLost) (s : State) :
    (deviceFatal [c] s).dev = { s.dev with
      fatal := true, faults := s.dev.faults + 1
      code := if s.dev.faults = 0 then BitVec.ofNat 16 (causeCode c) else s.dev.code
      bell := if s.dev.faults = 0 then s.bell.number else s.dev.bell
      causes := s.dev.causes ++ [⟨c, !hasRebuild c⟩], quiesceAt := some (s.bell.edges + 1) } := by
  have hlost : [c].contains FatalCause.timebaseLost = false := by simpa using Ne.symm hc
  unfold deviceFatal
  simp only [List.map_cons, List.map_nil, hlost, Bool.false_eq_true, if_false]
  simp

/-- The item that has arrived last in staging gets BAD, or leaves it. -/
theorem badItem_staged {s : State} {q : Fin 256} {it : Item} {l : List Staged} (h : s.queues[q].staging = l ++ [.item it]) :
    badItem q false s = modQueue q (fun x => { x with staging := l ++ [.item (setBad it)] }) s := by
  refine modQueue_congr ?_
  rw [h, List.getLast?_concat, List.dropLast_concat]
  rfl

theorem routeDiscard_staged {s : State} {q : Fin 256} {it : Item} {l : List Staged} (h : s.queues[q].staging = l ++ [.item it]) :
    routeDiscard q s = modQueue q (fun x => { x with staging := l, prodFree := x.prodFree + 1 }) s := by
  refine modQueue_congr ?_
  rw [h, List.getLast?_concat, List.dropLast_concat]

/-- Settles O21. -/
theorem ringErrorsAndFatalFaults : Obligations.RingErrorsAndFatalFaults := by
  refine ⟨fun s stop q => ⟨?_, fun it l hstage => ⟨?_, ?_⟩⟩, fun s c hc => ?_⟩
  · change execCommonsParity stop q true s = _
    rw [execCommonsParity, datTop_zero]
    rfl
  · change execCommonsParity stop q false s = _
    rw [execCommonsParity, datTop_zero, badItem_staged hstage]
  · change execCommonsRoute stop q s = _
    rw [execCommonsRoute, datTop_zero, routeDiscard_staged hstage]
  · rw [deviceFatal_dev hc]
    exact ⟨rfl, rfl, rfl, ⟨_, rfl⟩, fun h => ⟨if_pos h, if_pos h⟩, fun h => ⟨if_neg h, if_neg h⟩⟩

end Sys2Proof.Machine

namespace Sys2Proof.Machine
open Sys2Proof.Safety

/-! What queues, rings, records, posts and sessions leave of the Holdings: all but their counts of events and errors. -/

/-- A Holding but for its event number and its count of DMA errors. -/
def Holding.face (x : Holding) : Holding := { x with seq := 0, dmaErrors := 0 }

@[simp] abbrev SameFaces (s t : State) : Prop := t.holdings.map Holding.face = s.holdings.map Holding.face

@[simp] theorem map_face_upd (v : Vector Holding 32) (h : Fin 32) (f : Holding → Holding) (hf : ∀ x, (f x).face = x.face) :
    (upd v h f).map Holding.face = v.map Holding.face := map_upd_keeps _ v h f hf

theorem SameFaces.get {s t : State} (h : SameFaces s t) (g : Fin 32) : t.holdings[g.val].face = s.holdings[g.val].face := by
  have := congrArg (fun v : Vector Holding 32 => v[g.val]) h
  simpa using this

@[simp] theorem ite_faces (c : Prop) [Decidable c] (a b : State) :
    (if c then a else b).holdings.map Holding.face =
      if c then a.holdings.map Holding.face else b.holdings.map Holding.face := by
  split <;> rfl

@[simp] theorem eachFin_faces (n : Nat) (f : Fin n → State → State) (s : State) (h : ∀ i t, SameFaces t (f i t)) :
    SameFaces s (eachFin n f s) := eachFin_rel SameFaces (fun _ => rfl) (fun _ _ _ h k => k.trans h) n f s h
@[simp] theorem eachOf_faces {α : Type} (l : List α) (f : α → State → State) (s : State)
    (h : ∀ i t, SameFaces t (f i t)) :
    SameFaces s (eachOf l f s) := eachOf_rel SameFaces (fun _ => rfl) (fun _ _ _ h k => k.trans h) l f s h

@[simp] theorem addLossPending_faces (q : Fin 256) (n : Nat) (s : State) : SameFaces s (addLossPending q n s) := by
  unfold addLossPending; split <;> simp
@[simp] theorem afterAppend_faces (q : Fin 256) (s : State) : SameFaces s (afterAppend q s) := by
  unfold afterAppend; simp
@[simp] theorem gapCount_faces (q : Fin 256) (n : Nat) (s : State) : SameFaces s (gapCount q n s) := by
  unfold gapCount; dsimp only; repeat' split
  all_goals simp [*]
@[simp] theorem latch_faces (r : Rec) (s : State) : SameFaces s (latch r s) := by
  unfold latch; rfl
@[simp] theorem countDrop_faces (q : Fin 256) (n : Nat) (s : State) : SameFaces s (countDrop q n s) := by
  unfold countDrop; simp
@[simp] theorem commitMarker_faces (q : Fin 256) (code arg : Nat) (s : State) :
    SameFaces s (commitMarker q code arg s) := by
  unfold commitMarker; simp
@[simp] theorem queueRuns_faces (q : Fin 256) (s : State) : SameFaces s (queueRuns q s) := by
  unfold queueRuns; simp
@[simp] theorem raiseVec_faces (f : Fin 33) (v : Nat) (s : State) : SameFaces s (raiseVec f v s) := by
  unfold raiseVec; simp
@[simp] theorem mbxPut_faces (i : Fin 33) (v : BitVec 128) (s : State) : SameFaces s (mbxPut i v s) := by
  unfold mbxPut; simp
@[simp] theorem mailbox_faces (e : Ev) (h : Fin 32) (data : Word) (s : State) : SameFaces s (mailbox e h data s) := by
  unfold mailbox; split
  · rfl
  · exact (eachFin_faces _ _ _ fun _ _ => by simp).trans (map_face_upd _ _ _ fun _ => rfl)
@[simp] theorem post_faces (e : Ev) (h : Fin 32) (data : Word) (s : State) : SameFaces s (post e h data s) := by
  unfold post; simp
@[simp] theorem leaveStaging_faces (q : Fin 256) (n : Nat) (s : State) : SameFaces s (leaveStaging q n s) := by
  unfold leaveStaging; split <;> simp
@[simp] theorem showTap_faces (kind n : Nat) (e : TapEv) (s : State) : SameFaces s (showTap kind n e s) := by
  unfold showTap; simp
@[simp] theorem tapRewind_faces (q : Fin 256) (s : State) : SameFaces s (tapRewind q s) := by
  unfold tapRewind; simp
@[simp] theorem emptyQueue_faces (q : Fin 256) (s : State) : SameFaces s (emptyQueue q s) := by
  unfold emptyQueue; simp
@[simp] theorem flushItems_faces (q : Fin 256) (s : State) : SameFaces s (flushItems q s) := by
  unfold flushItems; simp
@[simp] theorem lossReached_faces (q : Fin 256) (n : Nat) (ended : Bool) (s : State) :
    SameFaces s (lossReached q n ended s) := by
  unfold lossReached; simp
@[simp] theorem rewindOpen_faces (q : Fin 256) (s : State) : SameFaces s (rewindOpen q s) := by
  unfold rewindOpen; simp
@[simp] theorem resyncReached_faces (q : Fin 256) (gap : Nat) (recovery : Bool) (s : State) :
    SameFaces s (resyncReached q gap recovery s) := by
  unfold resyncReached; simp
@[simp] theorem commitItem_faces (cb : Nat) (q : Fin 256) (it0 : Item) (s : State) :
    SameFaces s (commitItem cb q it0 s) := by
  unfold commitItem; simp
@[simp] theorem commitStaged_faces (cb : Nat) (q : Fin 256) (l : List Staged) (n : Nat) (s : State) :
    SameFaces s (commitStaged cb q l n s).1 := by
  induction l generalizing n s with
  | nil => simp [commitStaged]
  | cons x l ih => cases x <;> (try cases n) <;> simp [commitStaged, ih]
@[simp] theorem commitN_faces (q : Fin 256) (n : Nat) (s : State) : SameFaces s (commitN q n s) := by
  unfold commitN; simp
@[simp] theorem rewindPlace_faces (q : Fin 256) (s : State) : SameFaces s (rewindPlace q s) := by
  unfold rewindPlace; simp
@[simp] theorem ringMessage_faces (q : Fin 256) (s : State) : SameFaces s (ringMessage q s) := by
  unfold ringMessage; simp
@[simp] theorem writeBack_faces (q : Fin 256) (t : Tally) (code : Byte) (s : State) :
    SameFaces s (writeBack q t code s) := by
  have hd : ∀ (h : Fin 32) (v : Vector Holding 32),
      (upd v h fun x => { x with dmaErrors := satAdd x.dmaErrors 1 }).map Holding.face = v.map Holding.face :=
    fun _ _ => map_face_upd _ _ _ fun _ => rfl
  unfold writeBack; simp [hd]
@[simp] theorem sendForced_faces (q : Fin 256) (a0 : Nat) (s : State) : SameFaces s (sendForced q a0 s) := by
  induction a0 generalizing s with
  | zero => rfl
  | succ n ih =>
    unfold sendForced; repeat' split
    all_goals simp [ih]
@[simp] theorem forceTallies_faces (q : Fin 256) (code : Byte) (s : State) : SameFaces s (forceTallies q code s) := by
  unfold forceTallies; simp
@[simp] theorem flushQueue_faces (q : Fin 256) (s : State) : SameFaces s (flushQueue q s) := by
  unfold flushQueue; simp
@[simp] theorem loseArrival_faces (q : Fin 256) (last : Bool) (s : State) : SameFaces s (loseArrival q last s) := by
  unfold loseArrival; simp
@[simp] theorem stageItem_faces (q : Fin 256) (it : Item) (s : State) : SameFaces s (stageItem q it s) := by
  unfold stageItem; simp
@[simp] theorem commitOut_faces (u : Fin 32) (its : List Item) (s : State) : SameFaces s (commitOut u its s) := by
  unfold commitOut; split <;> simp
@[simp] theorem cvuStop_faces (u : Fin 32) (s : State) : SameFaces s (cvuStop u s) := by
  unfold cvuStop; simp
@[simp] theorem openSector_faces (i : Nat) (s : State) : SameFaces s (openSector i s) := by
  unfold openSector; rfl
theorem placeRecord_faces (n : Nat) (s t : State) (a : Nat) (h : placeRecord n s = some (t, a)) : SameFaces s t := by
  unfold placeRecord at h; repeat' split at h
  all_goals simp at h
  all_goals (obtain ⟨rfl, -⟩ := h; simp)
@[simp] theorem flashRun_faces (l : List FlashOp) (s : State) : SameFaces s (flashRun l s) := by
  induction l generalizing s with
  | nil => simp [flashRun]
  | cons o l ih => cases o <;> simp [flashRun, ih]
@[simp] theorem flashStart_faces (s : State) : SameFaces s (flashStart s) := by
  unfold flashStart; repeat' split
  · rfl
  · exact eachOf_faces _ _ _ fun _ _ => rfl
  · simp
@[simp] theorem flashPush_faces (o : FlashOp) (s : State) : SameFaces s (flashPush o s) := by
  unfold flashPush; simp
@[simp] theorem appendRecord_faces (tag ix : BitVec 16) (sub ty : BitVec 8) (value : List Byte) (s : State) :
    SameFaces s (appendRecord tag ix sub ty value s) := by
  unfold appendRecord; dsimp only; split
  · simp
  · rename_i t a h; simp [placeRecord_faces _ _ _ _ h]
@[simp] theorem storeEpoch_faces (h : Fin 32) (s : State) : SameFaces s (storeEpoch h s) := by
  unfold storeEpoch; simp
@[simp] theorem pf0Notice_faces (msg : List Byte) (len : Nat) (s : State) : SameFaces s (pf0Notice msg len s) := by
  unfold pf0Notice; simp
@[simp] theorem ssp1Notice_faces (msg : List Byte) (s : State) : SameFaces s (ssp1Notice msg s) := by
  unfold ssp1Notice; simp
@[simp] theorem sendNotice_faces (p : Path) (sess ctr : BitVec 32) (inner : List Byte) (s : State) :
    SameFaces s (sendNotice p sess ctr inner s) := by
  unfold sendNotice; split <;> simp
@[simp] theorem closeSession_faces (se : Session) (reason : Byte) (s : State) :
    SameFaces s (closeSession se reason s) := by
  unfold closeSession; simp
@[simp] theorem closeSessions_faces (p : Session → Bool) (reason : Byte) (s : State) :
    SameFaces s (closeSessions p reason s) := by
  unfold closeSessions; simp
@[simp] theorem rampPlot_faces (p : Fin 64) (mv : Nat) (s : State) : SameFaces s (rampPlot p mv s) := by
  unfold rampPlot; rfl
@[simp] theorem startRegulator_faces (p : Fin 64) (s : State) : SameFaces s (startRegulator p s) := by
  unfold startRegulator; rfl
@[simp] theorem callForRestart_faces (p : Fin 64) (s : State) : SameFaces s (callForRestart p s) := by
  unfold callForRestart; simp
@[simp] theorem clearPlot_faces (p : Fin 64) (s : State) : SameFaces s (clearPlot p s) := by
  unfold clearPlot; simp
@[simp] theorem answerWaiting_faces (ep : Bool) (p : Fin 64) (s : State) : SameFaces s (answerWaiting ep p s) := by
  unfold answerWaiting; simp
@[simp] theorem refreshHedges_faces (s : State) : SameFaces s (refreshHedges s) := by
  unfold refreshHedges; rfl
@[simp] theorem rampAwaited_faces (h : Fin 32) (mv : Nat) (s : State) : SameFaces s (rampAwaited h mv s) := by
  unfold rampAwaited; simp

end Sys2Proof.Machine

namespace Sys2Proof.Machine
open Sys2Proof.Safety

/-! The actions of a Holding at their edges (R77, R288 to R292, R321, R346). -/

theorem edgesAway_ge_one (guard : Nat) (s : State) : 1 ≤ edgesAway guard s ∧ edgesAway guard s ≤ 2 := by
  unfold edgesAway
  repeat' split
  all_goals omega

theorem le_foldl_max (l : List Nat) (n : Nat) : n ≤ l.foldl max n ∧ ∀ m ∈ l, m ≤ l.foldl max n := by
  induction l generalizing n with
  | nil => simp
  | cons a l ih =>
    obtain ⟨hle, hmem⟩ := ih (max n a)
    refine ⟨(Nat.le_max_left n a).trans hle, fun m hm => ?_⟩
    rcases List.mem_cons.mp hm with rfl | hm
    · exact (Nat.le_max_right n m).trans hle
    · exact hmem m hm

theorem actionEdge_ge (s : State) (h : Fin 32) :
    s.bell.edges < actionEdge s h ∧ ∀ t ∈ s.holdings[h].pend, t.edge ≤ actionEdge s h := by
  obtain ⟨hle, hmem⟩ := le_foldl_max (s.holdings[h].pend.map (·.edge)) (effectEdge s)
  have hone := (edgesAway_ge_one 16 s).1
  exact ⟨Nat.lt_of_lt_of_le (Nat.lt_add_of_pos_right hone) hle, fun t ht => hmem _ (List.mem_map_of_mem ht)⟩

theorem actionEdge_first {s : State} {h : Fin 32} (hl : s.holdings[h].pend = []) : actionEdge s h = effectEdge s := by
  unfold actionEdge
  rw [hl]
  rfl

theorem afterArbiter_eq (guard : Nat) (s : State) :
    afterArbiter guard s = { s with fresh := (afterArbiter guard s).fresh } := by
  unfold afterArbiter
  split <;> rfl

theorem addTrans_eq (h : Fin 32) (k : TransKind) (s : State) :
    addTrans h k none s =
      ({ modHolding h (fun x => { x with
          pend := s.holdings[h].pend ++ [⟨k, actionEdge s h, bellAt s (actionEdge s h - s.bell.edges), none⟩] }) s with
        fresh := (afterArbiter 16 s).fresh }, bellAt s (actionEdge s h - s.bell.edges)) := by
  unfold addTrans
  rw [afterArbiter_eq]
  refine Prod.ext ?_ rfl
  exact congrArg (fun v => { s with holdings := v, fresh := (afterArbiter 16 s).fresh })
    (upd_congr (v := s.holdings) rfl)

/-! A change of state (R292). -/

theorem setState_faces (h : Fin 32) (st : HState) (s : State) :
    SameFaces (modHolding h (fun x => { x with st, stateBell := s.bell.number }) s) (setState h st s) := by
  unfold setState
  simp

theorem setState_face (h : Fin 32) (st : HState) (s : State) :
    (setState h st s).holdings[h.val].face = { s.holdings[h.val].face with st, stateBell := s.bell.number } := by
  rw [(setState_faces h st s).get h]
  simp [modHolding, Holding.face]

theorem setState_st (h : Fin 32) (st : HState) (s : State) : (setState h st s).holdings[h.val].st = st :=
  congrArg Holding.st (setState_face h st s)

theorem setState_stateBell (h : Fin 32) (st : HState) (s : State) :
    (setState h st s).holdings[h.val].stateBell = s.bell.number := congrArg Holding.stateBell (setState_face h st s)

theorem setState_freeze (h : Fin 32) (st : HState) (s : State) :
    (setState h st s).holdings[h.val].freeze = s.holdings[h.val].freeze := by
  have hface := congrArg Holding.freeze (setState_face h st s)
  exact hface

/-- A cut ends when its Holding runs again (R345). -/
def uncut (x : Holding) : Holding :=
  { x with freeze := if x.freeze = .cut then .none else x.freeze, cutEdge := none, started := true }

theorem becomeRunning_faces (h : Fin 32) (s : State) :
    SameFaces (setState h .running (modHolding h uncut s)) (becomeRunning h s) := by
  unfold becomeRunning uncut
  simp

theorem uncut_freeze (x : Holding) : (uncut x).freeze ≠ .cut := by
  unfold uncut
  dsimp only
  split
  · decide
  · assumption

theorem becomeRunning_running (h : Fin 32) (s : State) :
    (becomeRunning h s).holdings[h.val].st = .running ∧ (becomeRunning h s).holdings[h.val].stateBell = s.bell.number ∧
      (becomeRunning h s).holdings[h.val].freeze ≠ .cut := by
  have hface := (becomeRunning_faces h s).get h
  refine ⟨(congrArg Holding.st hface).trans (setState_st h .running _),
    (congrArg Holding.stateBell hface).trans (setState_stateBell h .running _), ?_⟩
  have hfreeze := congrArg Holding.freeze hface
  change (becomeRunning h s).holdings[h.val].freeze =
    (setState h .running (modHolding h uncut s)).holdings[h.val].freeze at hfreeze
  rw [hfreeze, setState_freeze, modHolding]
  simpa using uncut_freeze s.holdings[h.val]

theorem becomeQuiesced_running {h : Fin 32} {s : State} (hst : s.holdings[h.val].st = .running) :
    becomeQuiesced h s = setState h .quiesced s := by
  refine if_pos ?_
  change (s.holdings[h.val].st == .running) = true
  rw [hst]
  rfl

theorem becomeQuiesced_st (h : Fin 32) (s : State) : (becomeQuiesced h s).holdings[h.val].st ≠ .running := by
  by_cases hst : s.holdings[h.val].st = .running
  · rw [becomeQuiesced_running hst, setState_st]
    decide
  · rw [becomeQuiesced, if_neg (by simpa using hst)]
    exact hst

theorem forceStopped_forced (h : Fin 32) (s : State) :
    (forceStopped h s).holdings[h.val].freeze = .forced ∧ (forceStopped h s).holdings[h.val].st ≠ .running := by
  have hface := (record_onlyLedger evForcedStop h (datTop h.val 0)
    (modHolding h (fun x => { x with freeze := .forced }) (becomeQuiesced h s))).eq
  unfold forceStopped
  rw [hface]
  simpa [modHolding] using becomeQuiesced_st h s

/-- Settles O22: the edge of an action is the largest of the arbiter's and those of the actions that wait; at its edge each
action sets the state through `setState`, and what follows keeps every Holding but its event count. -/
theorem holdingActionsTakeEffect : Obligations.HoldingActionsTakeEffect := by
  unfold Obligations.HoldingActionsTakeEffect
  refine ⟨fun s h k => ?_, fun s h t hne => ⟨fun hk hst => ?_, fun hk hst => ?_, fun hk hst => ?_, fun hk => ?_⟩⟩
  · intro r l
    have hr : r = _ := addTrans_eq h k s
    obtain ⟨hlt, hmem⟩ := actionEdge_ge s h
    have hpend : r.1.holdings[h].pend = l ++ [⟨k, actionEdge s h, r.2, none⟩] := by
      rw [hr]
      simp [modHolding, l]
    refine ⟨actionEdge s h, hpend, hlt, hmem, ?_, fun hl hedge hfar => ?_, fun hl => ?_⟩
    · rw [hr]
      refine Prod.ext rfl ?_
      rfl
    · rw [actionEdge_first hl]
      refine ⟨effectEdge_far hfar, ?_⟩
      rw [hr]
      change (afterArbiter 16 s).fresh = s.fresh
      rw [afterArbiter_of_far hfar]
    · rw [actionEdge_first hl]
      exact Nat.add_le_add_left (edgesAway_ge_one 16 s).2 _
  · rw [show actAtEdge h t s = becomeRunning h s by rw [actAtEdge, hk]; exact if_pos (beq_iff_eq.mpr hst)]
    exact ⟨(becomeRunning_running h s).1, (becomeRunning_running h s).2.1⟩
  · rw [show actAtEdge h t s = becomeRunning h s by rw [actAtEdge, hk]; exact if_pos (beq_iff_eq.mpr hst)]
    exact ⟨(becomeRunning_running h s).1, (becomeRunning_running h s).2.2⟩
  · rw [show actAtEdge h t s = setState h .quiesced s by rw [actAtEdge, hk]; exact becomeQuiesced_running hst]
    exact ⟨setState_st h .quiesced s, setState_stateBell h .quiesced s⟩
  · rw [show actAtEdge h t s = forceStopped h s by rw [actAtEdge, hk]]
    exact forceStopped_forced h s

end Sys2Proof.Machine

namespace Sys2Proof.Machine
open Sys2Proof.Safety

/-! The answers to the actions of a Holding (R288, R289, R291, R313, R314, R321, R326, R334, R346). -/

theorem eachOf_fixed {α : Type} {l : List α} {f : α → State → State} {s : State} (h : ∀ a ∈ l, f a s = s) :
    eachOf l f s = s := by
  induction l with
  | nil => rfl
  | cons a l ih =>
    rw [eachOf_cons, h a List.mem_cons_self]
    exact ih fun b hb => h b (List.mem_cons_of_mem a hb)

theorem checkHedges_whole {s : State} (h : ∀ i : Fin 112, breached s.hedges[i] = false) : checkHedges s = s := by
  refine eachOf_fixed (l := List.finRange 112) fun i _ => ?_
  rw [checkHedge, h i]
  rfl

/-- What START asks for, each condition by itself. -/
theorem startRefusal_none {s : State} {h : Fin 32} (hst : (judged s h).st = .ready) (hing : (judged s h).sn ≠ .restoring)
    (hfailed : (judged s h).sn ≠ .restoreFailed) (hfatal : s.dev.fatal = false) (htest : s.test.accepted = false)
    (hshare : shareBusy s h = false) (hone : 1 ≤ vfCount s.holdings[h]) (hfour : vfCount s.holdings[h] ≤ 4)
    (hlocked : s.bell.locked = true) (hcal : ∀ p ∈ ownedPlots s h, s.plots[p].calibrated = true) :
    startRefusal s h = none := by
  have hvf : ¬(vfCount s.holdings[h] = 0 ∨ 4 < vfCount s.holdings[h]) := by omega
  have hany : (ownedPlots s h).any (fun p => !s.plots[p].calibrated) = false := by
    rw [List.any_eq_false]
    intro p hp
    rw [hcal p hp]
    decide
  have hsn : ((judged s h).sn == .restoring || (judged s h).sn == .restoreFailed) = false := by
    simp [hing, hfailed]
  unfold startRefusal
  dsimp only
  rw [hst, hfatal, htest, hshare, hlocked, if_neg hvf, hany, hsn]
  rfl

theorem judged_idle {s : State} {h : Fin 32} (hp : s.holdings[h].pend = []) :
    judged s h = ⟨s.holdings[h].st, s.holdings[h].freeze, s.holdings[h].snap⟩ := by
  unfold judged
  dsimp only
  rw [hp]
  rfl

theorem onceAction_now {s : State} {h : Fin 32} (hp : s.holdings[h].pend = []) (k : TransKind) (rq : Req)
    (now : Option Req → State → State) : onceAction h k rq now s = (now (some rq) s, none) := by
  unfold onceAction
  rw [hp]
  rfl

theorem dozeNow_none {s : State} {h : Fin 32} (rq : Option Req) (hfr : s.holdings[h].freeze = .none) :
    dozeNow h rq s = (addTrans h .freeze none (modHolding h (fun x => { x with dozeRq := rq }) s)).1 := by
  have hkeep : (modHolding h (fun x => { x with dozeRq := rq }) s).holdings[h].freeze = .none := by
    simpa [modHolding] using hfr
  unfold dozeNow
  dsimp only
  rw [hkeep]

theorem wakeNow_awake {s : State} {h : Fin 32} (rq : Option Req) (hd : s.holdings[h].dozing = false) :
    wakeNow h rq s = rampAwaited h s.holdings[h].voltage.toNat (modHolding h (fun x => { x with
      dozing := false, dozeRq := none, waking := true, wakeReady := none, wakeRq := rq }) s) := by
  unfold wakeNow
  dsimp only
  rw [hd]
  rfl

theorem resetNow_allowed {s : State} {h : Fin 32} (rq : Req)
    (hok : resetAllowed ⟨s.holdings[h].st, s.holdings[h].freeze, s.holdings[h].snap⟩ s.holdings[h] = true) :
    resetNow h (some rq) s = answered rq stOk (resetHolding h s).bell.number (resetHolding h s) := if_pos hok

theorem clearNow_allowed {s : State} {h : Fin 32} (rq : Req) (hok : clearAllowed s.holdings[h].st = true)
    (hload : s.holdings[h].st ≠ .loading) :
    clearNow h (some rq) s = answered rq stOk (enterClearing h s).bell.number (enterClearing h s) := by
  refine (if_pos hok).trans ?_
  rw [clearHolding, if_neg (by simpa using hload)]
  rfl

theorem resetHolding_ready (h : Fin 32) (s : State) : (resetHolding h s).holdings[h.val].st = .ready := by
  unfold resetHolding
  dsimp only
  generalize modHolding h _ (cutJobs h (cutFreezes h s)) = t
  refine (congrArg Holding.st (SameFaces.get (s := setState h .ready t) ?_ h)).trans (setState_st h .ready t)
  simp
  exact eachOf_faces _ _ _ fun _ _ => rfl

theorem enterClearing_clearing (h : Fin 32) (s : State) : (enterClearing h s).holdings[h.val].st = .clearing := by
  unfold enterClearing
  dsimp only
  generalize modHolding h _ (cutJobs h (dropPending false h (cutFreezes h s))) = t
  refine (congrArg Holding.st (SameFaces.get
    (s := modHolding h (fun x => { x with credEpoch := x.credEpoch + 1 }) (setState h .clearing t)) ?_ h)).trans ?_
  · simp
  · simpa [modHolding, Holding.face] using setState_st h .clearing t

/-- Settles O23: each action is judged by Table 06-3 against the state that the waiting actions leave, and its own effect
answers it. -/
theorem holdingActionsAnswer : Obligations.HoldingActionsAnswer := by
  unfold Obligations.HoldingActionsAnswer
  constructor
  · intro s rq se h j x e
    refine ⟨fun hg hst hing hfailed hfatal htest hshare hone hfour hlocked hcal hhedge => ?_, fun hg hst => ?_,
      fun hg hst hfr hsn hfatal htest hshare => ?_, fun hg hst hfr => ?_, fun hg hst hfr => ?_⟩
    · refine congrArg _ (invokeReq_answered hg
        (startRefusal_none (s := e) hst hing hfailed hfatal htest hshare hone hfour hlocked hcal) ?_)
      rw [checkHedges_whole (s := e) hhedge]
      exact if_pos (beq_iff_eq.mpr hst)
    · refine congrArg _ (invokeReq_answered hg (if_neg ?_) rfl)
      change ¬(j.st != .running) = true
      rw [hst]
      decide
    · refine congrArg _ (invokeReq_answered hg ?_ rfl)
      change (if j.st != .quiesced || j.fr == .forced || j.sn == .moved then some stBusy
        else if s.dev.fatal then some stRecovery
        else if s.test.accepted || shareBusy s h then some stBusy else none) = none
      simp [hst, hfr, hsn, hfatal, htest, hshare]
    · refine congrArg _ (invokeReq_answered hg (if_pos ?_) rfl)
      change ((j.st == .running || j.st == .quiesced) && j.fr == .none) = true
      simpa [hfr] using hst
    · refine congrArg _ (invokeReq_later hg (if_pos ?_) rfl)
      change ((j.st == .running || j.st == .quiesced) && j.fr == .none) = true
      simpa [hfr] using hst
  · intro s rq se h hp x e
    have hj : judged e h = ⟨x.st, x.freeze, x.snap⟩ := judged_idle (s := e) hp
    refine ⟨fun hg hst hfr hsn hdoze => ?_, fun hg hst hwaking hdozing hfatal htest => ?_, fun hg hst hsn => ⟨?_, fun _ =>
      resetHolding_ready h e⟩, fun hg hst => ⟨?_, fun _ => enterClearing_clearing h e⟩⟩
    · refine congrArg _ (invokeReq_later hg (if_pos ?_)
        ((onceAction_now (s := e) hp _ _ _).trans (congrArg (·, none) (dozeNow_none (s := e) _ hfr))))
      change dozeAllowed (judged e h) x = true
      rw [hj]
      simpa [dozeAllowed, hfr, hsn, hdoze] using hst
    · refine congrArg _ (invokeReq_later hg ?_
        ((onceAction_now (s := e) hp _ _ _).trans (congrArg (·, none) (wakeNow_awake (s := e) _ hdozing))))
      change (if !wakeAllowed (judged e h) x then some stBusy else if s.dev.fatal then some stRecovery
        else if s.test.accepted then some stBusy else none) = none
      rw [hj]
      simp [wakeAllowed, hst, hwaking, hfatal, htest]
    · have hok : resetAllowed ⟨x.st, x.freeze, x.snap⟩ x = true := by
        rcases hst with hst | hst | ⟨hst, hcause⟩ <;> simp [resetAllowed, *]
      refine congrArg _ (invokeReq_later hg (if_pos ?_)
        ((onceAction_now (s := e) hp _ _ _).trans (congrArg (·, none) (resetNow_allowed (s := e) rq hok))))
      change resetAllowed (judged e h) x = true
      rw [hj, hok]
    · have hok : clearAllowed x.st = true ∧ x.st ≠ .loading := by
        rcases hst with hst | hst | hst | hst | hst <;> rw [hst] <;> decide
      refine congrArg _ (invokeReq_later hg (if_pos ?_)
        ((onceAction_now (s := e) hp _ _ _).trans (congrArg (·, none) (clearNow_allowed (s := e) rq hok.1 hok.2))))
      change clearAllowed (judged e h).st = true
      rw [hj, hok.1]

end Sys2Proof.Machine

namespace Sys2Proof.Machine
open Sys2Proof.Safety

/-! A WRITE that the checks pass (Table 13-3), and the entries of a Holding (R283 to R286, R295 to R301, R309, R311). -/

section
variable {s : State} {rq : Req} {se : Session} {ix : BitVec 16} {sub : Nat} {valOk : Bool}
  {cond : State → Option Byte} {eff : State → State × BellNo}

theorem writeReq_written {t : State} {b : BellNo} (h : granted s rq se ix sub .w = true) (hv : valOk = true)
    (hc : cond (executing rq se s) = none) (he : eff (executing rq se s) = (t, b)) :
    writeReq rq ix sub true valOk cond eff s = written rq ix sub b t := by
  rw [hv, writeReq_granted cond eff h, hc, he]

theorem writeReq_refused {st : Byte} (h : granted s rq se ix sub .w = true) (hv : valOk = true)
    (hc : cond (executing rq se s) = some st) :
    writeReq rq ix sub true valOk cond eff s = refusedWith rq opWrite st ix sub (executing rq se s) := by
  rw [hv, writeReq_granted cond eff h, hc]

theorem writeReq_range (h : granted s rq se ix sub .w = true) (hv : valOk = false) :
    writeReq rq ix sub true valOk cond eff s = refusedWith rq opWrite stRange ix sub (executing rq se s) := by
  rw [hv]
  exact writeReq_checked _ _ (granted_parts h).1 (checkEntry_value_refused (granted_parts h).2)

end

/-- A new voltage ramps the islands except in EMPTY, CLEARING and a doze that holds (R311). -/
theorem applyVoltage_eq {h : Fin 32} {s : State} (hst : s.holdings[h].st ≠ .clearing) :
    applyVoltage h s = if s.holdings[h].st = .empty ∨ (s.holdings[h].st = .dozing ∧ s.holdings[h].waking = false) then s
      else rampHolding h s.holdings[h].voltage.toNat s := by
  unfold applyVoltage
  dsimp only
  cases hs : s.holdings[h].st with
  | clearing => exact absurd hs hst
  | dozing => cases hw : s.holdings[h].waking <;> simp
  | _ => simp

/-- Settles O25: each entry is a WRITE whose value check is its range and whose condition is its quota. -/
theorem holdingEntriesAreJudged : Obligations.HoldingEntriesAreJudged := by
  unfold Obligations.HoldingEntriesAreJudged
  refine ⟨fun s rq se h => ?_, fun s rq se h => ?_⟩
  · intro e x
    refine ⟨fun v hg hv hc => congrArg _ (writeReq_written hg hv hc rfl),
      fun k v hg hv hc => congrArg _ (writeReq_written hg hv hc rfl), fun v hg hv hc => ?_, fun v hg hmax hpage hc => ?_,
      fun v hg hstep hmin hmax hst => ?_⟩
    · refine congrArg _ (writeReq_written hg (decide_eq_true hv) (if_neg ?_) rfl)
      change ¬(x.rect ≠ 0 && decide (7680 < tallySum s h v.toNat)) = true
      rcases hc with hc | hc <;> simp [hc]
    · exact congrArg _ (writeReq_written hg (by simp [hmax, hpage]) (if_neg (Nat.not_lt.mpr hc)) rfl)
    · intro t
      have hx : t.holdings[h] = { x with voltage := v } := by simp [t, modHolding, x, e]
      refine congrArg _ (writeReq_written hg (by simp [voltageOk, hstep]; exact ⟨hmin, hmax⟩)
        (if_neg fun hb => hst (eq_of_beq hb)) (Prod.ext ?_ rfl))
      refine (applyVoltage_eq (s := t) (by rw [hx]; exact hst)).trans ?_
      rw [hx]
  · intro e x
    refine ⟨fun v hg hv => ?_, fun v hg hv hrect hc => ?_, fun v hg hmax hpage hc => ?_, fun v hg hv => ?_⟩
    · exact congrArg _ (writeReq_range hg (decide_eq_false (Nat.not_le.mpr hv)))
    · refine congrArg _ (writeReq_refused hg (decide_eq_true hv) (if_pos ?_))
      change (x.rect ≠ 0 && decide (7680 < tallySum s h v.toNat)) = true
      exact Bool.and_eq_true_iff.mpr ⟨decide_eq_true hrect, decide_eq_true hc⟩
    · exact congrArg _ (writeReq_refused hg (by simp [hmax, hpage]) (if_pos hc))
    · refine congrArg _ (writeReq_range hg ?_)
      change voltageOk x v.toNat = false
      rcases hv with hv | hv | hv
      · simp [voltageOk, hv]
      · simp [voltageOk, Nat.not_le.mpr hv]
      · simp [voltageOk, Nat.not_le.mpr hv]

end Sys2Proof.Machine

namespace Sys2Proof.Machine
open Sys2Proof.Safety

/-! Hedges and islands (R306, R310, R327 to R329, R116). -/

theorem checkHedge_breach {i : Fin 112} {s : State} (hb : breached s.hedges[i] = true) :
    checkHedge i s =
      let a := s.plots[(hedgePlots i).1].owner
      let b := s.plots[(hedgePlots i).2].owner
      let hs : List (Fin 32) := if a = b then [a] else [a, b]
      eachOf hs (fun h t => faultHolding h .hedgeBreach t) (eachOf hs (fun h t => record evHedgeBreach h (BitVec.ofNat 48 i.val) t)
        { modHedge i (fun x => { x with sealHolds := true, atRest := true }) s with breaches := satAdd s.breaches 1 }) := by
  rw [checkHedge, hb]
  rfl

theorem dozeDone_awake {h : Fin 32} {s : State} (hd : s.holdings[h].dozing = false) : dozeDone h s = s := by
  rw [dozeDone, hd]
  rfl

/-- What a regulator fault leaves of a Plot that no Holding owns (R160, R328). -/
def failedPlot (x : Plot) : Plot :=
  { x with
    overcur := true, unfit := true, regOn := false, ramping := false, settling := false, calibrated := false,
    calRunning := false, calDue := false, passWait := .none, voltMv := 0 }

theorem regulatorFault_unowned {p : Fin 64} {s : State} (ho : s.plots[p].owner = 0) :
    ∃ l, regulatorFault p true s = { modPlot p failedPlot s with ledger := l } := by
  unfold regulatorFault
  dsimp only
  rw [ho]
  simp only [Fin.val_zero, decide_true, Bool.true_or, if_true, faultHolding_zero]
  rw [(record_onlyLedger _ _ _ _).eq]
  simp [stopRegulator, modPlot_modPlot, modPlot_modLedger]
  exact ⟨_, rfl⟩

/-- Settles O26: a check of a Hedge acts on a breach only; a regulator fault of an unowned Plot faults nothing; the ends of a
ramp and of settling change the Plot alone. -/
theorem hedgesSealAndIslandsSettle : Obligations.HedgesSealAndIslandsSettle := by
  unfold Obligations.HedgesSealAndIslandsSettle
  refine ⟨fun s i hrun => ⟨fun hb => ?_, fun hb => ?_⟩, fun s p => ⟨fun hon ho => ?_, fun hramp hd => ?_,
    fun mv hset hlow hhigh => ?_⟩⟩
  · change Host.Outcome.next (if gleanerRuns s then checkHedge i s else s) = _
    rw [hrun, checkHedge, hb]
    rfl
  · intro a b t noted
    change Host.Outcome.next (if gleanerRuns s then checkHedge i s else s) = _
    rw [hrun, if_pos rfl, checkHedge_breach hb]
    dsimp only
    change Host.Outcome.next (eachOf (if a = b then [a] else [a, b]) _ (eachOf (if a = b then [a] else [a, b]) _ t)) = _
    split <;> rfl
  · obtain ⟨l, hl⟩ := regulatorFault_unowned (s := s) ho
    refine ⟨l, congrArg _ (Eq.trans (if_neg ?_) hl)⟩
    simp [show s.plots[p.val].regOn = true from hon]
  · refine congrArg _ ((if_neg ?_).trans (dozeDone_awake ?_)); rotate_left
    · exact hd
    simp [show s.plots[p.val].ramping = true from hramp]
  · refine congrArg _ (if_neg ?_)
    simp [show s.plots[p.val].settling = true from hset, show s.plots[p.val].target ≤ _ from hlow,
      show mv.toNat ≤ s.plots[p.val].target + 10 from hhigh]

end Sys2Proof.Machine

namespace Sys2Proof.Machine
open Sys2Proof.Safety

/-! The end of clearing, and the actions on the fabric (R157, R159, R218, R219, R1006). -/

/-- From s to t the banks and the Plots stay. -/
@[simp] abbrev SamePlots (s t : State) : Prop := t.banks = s.banks ∧ t.plots = s.plots

theorem SamePlots.trans {s t u : State} (h : SamePlots s t) (k : SamePlots t u) : SamePlots s u :=
  ⟨k.1.trans h.1, k.2.trans h.2⟩

@[simp] theorem eachOf_samePlots {α : Type} (l : List α) (f : α → State → State) (s : State)
    (h : ∀ i t, SamePlots t (f i t)) : SamePlots s (eachOf l f s) :=
  eachOf_rel SamePlots (fun _ => ⟨rfl, rfl⟩) (fun _ _ _ => SamePlots.trans) l f s h

@[simp] theorem post_samePlots (e : Ev) (h : Fin 32) (data : Word) (s : State) : SamePlots s (post e h data s) :=
  ⟨(post_traffic e h data s).1, (post_traffic e h data s).2.1⟩
@[simp] theorem leaveActive_samePlots (l : Fin 48) (s : State) : SamePlots s (leaveActive l s) := by
  unfold leaveActive; split <;> simp
@[simp] theorem dropReplay_samePlots (l : Fin 48) (s : State) : SamePlots s (dropReplay l s) := by
  unfold dropReplay; simp
@[simp] theorem limvaOff_samePlots (l : Fin 48) (s : State) : SamePlots s (limvaOff l s) := by
  unfold limvaOff; simp
@[simp] theorem laneOff_samePlots (l : Fin 48) (s : State) : SamePlots s (laneOff l s) := by
  unfold laneOff; split <;> simp
@[simp] theorem laneLeaves_samePlots (l : Fin 48) (s : State) : SamePlots s (laneLeaves l s) := by
  unfold laneLeaves; simp
@[simp] theorem unitLeaves_samePlots (u : Fin 32) (s : State) : SamePlots s (unitLeaves u s) := by
  unfold unitLeaves; simp
@[simp] theorem setMask_samePlots (h : Fin 32) (k : MaskKind) (v : Nat) (s : State) : SamePlots s (setMask h k v s) := by
  unfold setMask; cases k
  · exact (eachOf_samePlots _ _ _ fun _ _ => by simp).trans ⟨rfl, rfl⟩
  · exact (eachOf_samePlots _ _ _ fun _ _ => by simp).trans ⟨rfl, rfl⟩
  · exact (eachOf_samePlots _ _ _ fun _ _ => by simp).trans ⟨rfl, rfl⟩

/-- A Plot but for its owner. -/
def Plot.content (x : Plot) : Plot := { x with owner := 0, ownAt := 0 }

theorem setOwner_content (p : Fin 64) (h : Fin 32) (s : State) :
    (setOwner p h s).banks = s.banks ∧ (setOwner p h s).plots.map Plot.content = s.plots.map Plot.content := by
  unfold setOwner
  split
  · exact ⟨rfl, rfl⟩
  · exact ⟨rfl, map_upd_keeps _ _ _ _ fun _ => rfl⟩

/-- The end of a Holding's clearing leaves its banks, and its Plots but for their owner. -/
theorem clearComplete_content (h : Fin 32) (s : State) :
    (clearComplete h s).banks = s.banks ∧ (clearComplete h s).plots.map Plot.content = s.plots.map Plot.content := by
  unfold clearComplete
  extract_lets x s₁ s₂ s₃
  split
  · exact ⟨rfl, rfl⟩
  · have h₂ : SamePlots s s₂ := .trans (t := s₁) ⟨(setState_memory h .empty s).1, setState_plots h .empty s⟩
      ((setMask_samePlots h .lane 0 s₁).trans (setMask_samePlots h .cvu 0 _))
    have h₃ := eachOf_rel (fun s t => t.banks = s.banks ∧ t.plots.map Plot.content = s.plots.map Plot.content)
      (fun _ => ⟨rfl, rfl⟩) (fun _ _ _ h k => ⟨k.1.trans h.1, k.2.trans h.2⟩) (ownedPlots s₂ h) (setOwner · 0) s₂
      fun p t => setOwner_content p 0 t
    exact ⟨h₃.1.trans h₂.1, h₃.2.trans (congrArg _ h₂.2)⟩

/-! A loop over the Plots that changes each Plot by itself. -/

theorem eachOf_ownPlot {f : Fin 64 → State → State} {g : Fin 64 → Plot → Plot} {s : State}
    (h : ∀ q v, f q { s with plots := v } = { s with plots := upd v q (g q) }) (l : List (Fin 64)) (hl : l.Nodup)
    (v : Vector Plot 64) : ∃ w, eachOf l f { s with plots := v } = { s with plots := w } ∧
      ∀ p, w[p] = if p ∈ l then g p v[p] else v[p] := by
  induction l generalizing v with
  | nil => exact ⟨v, rfl, fun _ => rfl⟩
  | cons q l ih =>
    obtain ⟨hq, hl⟩ := List.nodup_cons.mp hl
    obtain ⟨w, hw, hget⟩ := ih hl (upd v q (g q))
    refine ⟨w, by rw [eachOf_cons, h, hw], fun p => (hget p).trans ?_⟩
    by_cases hp : p = q
    · subst hp; simp [hq]
    · simp [hp, upd_other _ _ _ _ hp]

theorem eachFin_ownPlot {f : Fin 64 → State → State} {g : Fin 64 → Plot → Plot} {s : State}
    (h : ∀ q v, f q { s with plots := v } = { s with plots := upd v q (g q) }) :
    ∃ w, eachFin 64 f s = { s with plots := w } ∧ ∀ p, w[p] = g p s.plots[p] := by
  obtain ⟨w, hw, hget⟩ := eachOf_ownPlot h (List.finRange 64) (List.nodup_finRange 64) s.plots
  exact ⟨w, hw, fun p => by rw [hget, if_pos (List.mem_finRange p)]⟩

/-- An action on every Plot, answered at once. -/
theorem invokeReq_ownPlot {s : State} {rq : Req} {se : Session} {ix : BitVec 16} {sub : Nat}
    {f : Fin 64 → State → State} {g : Fin 64 → Plot → Plot} (hg : granted s rq se ix sub .x = true)
    (h : ∀ q v, f q { executing rq se s with plots := v } = { executing rq se s with plots := upd v q (g q) }) :
    ∃ v, invokeReq rq ix sub true (fun _ _ => none) (fun _ s => (eachFin 64 f s, some (stOk, bellNow s))) s =
        answered rq stOk s.bell.number { executing rq se s with plots := v } ∧ ∀ p : Fin 64, v[p] = g p s.plots[p] := by
  obtain ⟨w, hw, hget⟩ := eachFin_ownPlot h
  exact ⟨w, invokeReq_answered hg rfl (by rw [hw]; rfl), hget⟩

/-! What the actions on the fabric make of one Plot. -/

/-- The Plot can be calibrated (R116, R120). -/
def calibratable (s : State) (x : Plot) : Bool :=
  gleanerRuns s && x.regOn && !x.ramping &&
    !(x.owner.val != 0 && s.holdings[x.owner].st == .dozing && !s.holdings[x.owner].waking)

/-- An island that is called for (R990, R1006). -/
def restarted (s : State) (x : Plot) : Plot :=
  if !suppliesForPlots s then x
  else if x.tripped && restartTemp < x.temp.toNat then { x with tripWait := true }
  else { x with
    regOn := true, overcur := false, undervolt := false, tripped := false, tripWait := false, target := 800,
    ramping := true, settling := false, calibrated := false }

/-- UNFIT is cleared, at once or by clearing the Plot again (R157). -/
def fitAgain (s : State) (x : Plot) : Plot :=
  if x.owner.val ≠ 0 then x
  else if x.regOn then if x.restart then { x with limit := false } else { x with unfit := false, limit := false }
  else restarted s { x with limit := false, clearing := true, restart := true }

theorem callForRestart_off {p : Fin 64} {s : State} (hoff : s.plots[p].regOn = false) :
    callForRestart p s = modPlot p (restarted s) s := by
  unfold callForRestart
  dsimp only
  rw [hoff, if_neg (by decide)]
  split
  next hs => exact (modPlot_id p _ s (by rw [restarted, if_pos hs])).symm
  next hs =>
    split
    next ht => exact modPlot_congr (by rw [restarted, if_neg hs, if_pos ht])
    next ht => exact modPlot_congr (by rw [restarted, if_neg hs, if_neg ht])

theorem clearUnfit_eq (p : Fin 64) (s : State) : clearUnfit p s = modPlot p (fitAgain s) s := by
  unfold clearUnfit
  dsimp only
  split
  next ho => exact (modPlot_id p _ s (by rw [fitAgain, if_pos ho])).symm
  next ho =>
    split
    next hon =>
      split
      next hr => exact modPlot_congr (by rw [fitAgain, if_neg ho, if_pos hon, if_pos hr])
      next hr => exact modPlot_congr (by rw [fitAgain, if_neg ho, if_pos hon, if_neg hr])
    next hon =>
      rw [callForRestart_off (by simpa [modPlot] using hon), modPlot_modPlot]
      exact modPlot_congr (by rw [fitAgain, if_neg ho, if_neg hon]; rfl)

theorem restarted_clearing (s : State) (x : Plot) :
    (restarted s x).clearing = x.clearing ∧ (restarted s x).limit = x.limit := by
  unfold restarted
  repeat' split
  all_goals exact ⟨rfl, rfl⟩

/-- The Plot that is cleared is blank, and no other bank changes. -/
theorem plotCleared_blank (p : Fin 64) (s : State) :
    (plotCleared p s).plots[p].content = (blankPlot s.plots[p]).content ∧
      (plotCleared p s).banks[p].cleared = true ∧ (∀ a, bankWord (plotCleared p s).banks[p] a = 0) ∧
      (plotCleared p s).banks[p].wbq = [] ∧ ∀ q, q ≠ p → (plotCleared p s).banks[q] = s.banks[q] := by
  unfold plotCleared
  extract_lets s₁ s₂
  obtain ⟨hbanks, hplots⟩ := clearComplete_content s₂.plots[p].owner s₂
  have hplot := congrArg (fun v : Vector Plot 64 => v[p]) hplots
  simp only [Fin.getElem_fin, Vector.getElem_map] at hplot
  rw [hbanks]
  refine ⟨hplot.trans ?_, ?_, fun a => ?_, ?_, fun q hq => ?_⟩
  · simp [s₂, s₁, modBank, modPlot]
  · simp [s₂, modBank]
  · simp [s₂, modBank, bankWord, bankBase, memGet]
  · simp [s₂, modBank]
  · exact upd_other s.banks p q _ hq

/-- Settles O27: the end of clearing leaves the Plot but for its owner as `blankPlot` makes it; each action on the fabric is a
loop that changes every Plot by itself. -/
theorem plotsAreClearedAndCalibrated : Obligations.PlotsAreClearedAndCalibrated := by
  unfold Obligations.PlotsAreClearedAndCalibrated
  refine ⟨fun s p hclear htrip hpin => ⟨?_, fun hretry => ?_⟩, fun s rq se => ⟨fun hg => ?_, fun hg => ?_, fun hg => ?_⟩⟩
  · have hgo : ¬(!s.plots[p].clearing || s.plots[p].tripWait || !s.pins.vgran) = true := by
      rw [hclear, htrip, hpin]; decide
    let u := modBank p (fun b => { b with clearFail := b.clearFail && !s.plots[p].clearRetry && s.plots[p].owner.val != 0 }) s
    obtain ⟨hplot, hcleared, hword, hwbq, hother⟩ := plotCleared_blank p u
    refine ⟨plotCleared p u, congrArg _ ((if_neg hgo).trans (if_pos rfl)), ?_⟩
    have hfield {α : Type} (g : Plot → α) (hgc : ∀ x : Plot, g x.content = g x) :
        g (plotCleared p u).plots[p] = g (blankPlot s.plots[p]) := by
      rw [← hgc, hplot, hgc]
      rfl
    refine ⟨hfield (·.config) fun _ => rfl, hfield (·.hold) fun _ => rfl, hfield (·.phase) fun _ => rfl,
      hfield (·.chans) fun _ => rfl, hfield (·.binMem) fun _ => rfl, hfield (·.clearing) fun _ => rfl, fun n => ?_,
      hcleared, hword, hwbq, fun q hq => (hother q hq).trans (upd_other s.banks p q _ hq)⟩
    have hquerns := hfield (·.querns) fun _ => rfl
    rw [hquerns]
    simp [blankPlot, Quern.reset]
  · have hgo : ¬(!s.plots[p].clearing || s.plots[p].tripWait || !s.pins.vgran) = true := by
      rw [hclear, htrip, hpin]; decide
    refine ⟨_, congrArg _ ((if_neg hgo).trans ((if_neg Bool.false_ne_true).trans ((if_neg ?_).trans
      (record_onlyLedger _ _ _ _).eq)))⟩
    simpa using hretry
  · refine (invokeReq_ownPlot (g := fun _ x => if calibratable s x then startPass x else x) hg fun q v => ?_).imp
      fun v hv => ⟨congrArg _ hv.1, hv.2⟩
    change (if calibratable s v[q] = true then modPlot q startPass { executing rq se s with plots := v } else
      { executing rq se s with plots := v }) = modPlot q _ { executing rq se s with plots := v }
    split
    next hc => exact modPlot_congr (if_pos hc).symm
    next hc => exact (modPlot_id q _ _ (if_neg hc)).symm
  · refine (invokeReq_ownPlot (g := fun _ => fitAgain s) hg fun q v => clearUnfit_eq q _).imp
      fun v hv => ⟨congrArg _ hv.1, fun p => ⟨fun ho => ?_, fun ho hon hr => ?_, fun ho hoff => ?_⟩⟩
    · exact (hv.2 p).trans (if_pos fun h0 => ho (Fin.ext h0))
    · refine (hv.2 p).trans ((if_neg (by rw [ho]; decide)).trans ((if_pos hon).trans (if_neg ?_)))
      rw [hr]
      decide
    · have hfit : fitAgain s s.plots[p] = restarted s { s.plots[p] with limit := false, clearing := true, restart := true } :=
        (if_neg (by rw [ho]; decide)).trans (if_neg (by rw [hoff]; decide))
      rw [hv.2, hfit]
      exact restarted_clearing s _
  · refine (invokeReq_ownPlot (g := fun p x => if x.owner = 0 ∧ s.banks[p].clearFail = true then
      { x with clearing := true, clearRetry := false } else x) hg fun q v => ?_).imp fun v hv => ⟨congrArg _ hv.1, hv.2⟩
    change (if (v[q].owner.val = 0 && s.banks[q].clearFail) = true then
        modPlot q (fun x => { x with clearing := true, clearRetry := false }) { executing rq se s with plots := v }
      else { executing rq se s with plots := v }) = modPlot q _ { executing rq se s with plots := v }
    have hiff : (decide (v[q].owner.val = 0) && s.banks[q].clearFail) = true ↔
        v[q].owner = 0 ∧ s.banks[q].clearFail = true := by
      rw [Bool.and_eq_true, decide_eq_true_eq, Fin.val_eq_zero_iff]
    rw [if_congr hiff rfl rfl]
    split
    next hc => exact modPlot_congr (if_pos hc).symm
    next hc => exact (modPlot_id q _ _ (if_neg hc)).symm

end Sys2Proof.Machine

namespace Sys2Proof.Machine
open Sys2Proof.Safety

/-! Freeze, snapshot and restore (R336 to R339, R349, R350, R362, R364). -/

theorem gateStands_attempt {s : State} {h : Fin 32} (ha : s.holdings[h].freeze = .attempt)
    (hcut : s.holdings[h].cutEdge = none) (hlate : s.holdings[h].freezeEdge + 4 ≤ s.bell.edges) :
    gateStands s h = false := by
  unfold gateStands
  dsimp only
  rw [ha, hcut]
  simpa using hlate

theorem freezeGivenUp_answered {s : State} {h : Fin 32} {rq : Req} (hd : s.holdings[h].dozeRq = none)
    (hf : s.holdings[h].freezeRq = some rq) :
    freezeGivenUp h s =
      let t := post evFreezeTimeout h (datTop h.val 0)
        (modHolding h (fun x => { x with freeze := .none, freezeRq := none, dozeRq := none }) s)
      answered rq stFreezeTimeout t.bell.number t := by
  unfold freezeGivenUp
  dsimp only
  rw [hd, hf]
  rfl

/-- Settles O28: the cut is taken for the coming edge when that edge is no later than f+4, and the gate falls at f+4. -/
theorem freezeEndsInCutOrTimeout : Obligations.FreezeEndsInCutOrTimeout := by
  unfold Obligations.FreezeEndsInCutOrTimeout
  refine fun s h ha => ⟨fun hcut hrest hedge hfar hin => ?_, fun hcut hlate hd rq hf => ?_⟩
  · have he : cutEdgeOf s = s.bell.edges + 1 := by simp [cutEdgeOf, hfar]
    change Host.Outcome.next (if (s.holdings[h].freeze == .attempt && s.holdings[h].cutEdge.isNone && holdingAtRest s h &&
      decide (cutEdgeOf s ≤ s.holdings[h].freezeEdge + 4)) = true then
        modHolding h (fun x => { x with cutEdge := some (cutEdgeOf s) }) s else s) = _
    rw [he, ha, hcut, hrest, decide_eq_true hin]
    rfl
  · refine congrArg _ (Eq.trans (if_pos ?_) (freezeGivenUp_answered hd hf))
    rw [gateStands_attempt ha hcut hlate, ha]
    rfl

/-- The first condition of a snapshot (R349). -/
def snapshotReady (j : Judged) : Bool := !(j.st != .quiesced || !(j.fr == .cut || j.fr == .forced) || j.sn == .moved)

theorem snapshotReady_iff (j : Judged) :
    snapshotReady j = true ↔ j.st = .quiesced ∧ (j.fr = .cut ∨ j.fr = .forced) ∧ j.sn ≠ .moved := by
  simp [snapshotReady, and_assoc]

theorem snapshotRefusal_busy {s : State} {h : Fin 32} (keyOk : Bool) (hr : snapshotReady (judged s h) = false) :
    snapshotRefusal s h keyOk = some stBusy := if_pos (by rwa [snapshotReady, Bool.not_eq_false'] at hr)

theorem snapshotRefusal_queue {s : State} {h : Fin 32} (keyOk : Bool) (hr : snapshotReady (judged s h) = true)
    (hf : s.dev.fatal = false) (hq : serviceQueue s s.snap.outQueue (reeveCode 7) false = false) :
    snapshotRefusal s h keyOk = some stNotReady := by
  have hrec : snapshotRecovery s = false := by rw [snapshotRecovery, hf]; rfl
  refine (if_neg ?_).trans ((if_neg ?_).trans (if_pos ?_))
  · rw [snapshotReady, Bool.not_eq_true'] at hr
    exact Bool.eq_false_iff.mp hr
  · rw [hrec]; decide
  · rw [hq]; rfl

/-- Settles O29: a request that no condition refuses leaves its job; the first failed condition names the status. -/
theorem snapshotAndRestoreAreJudged : Obligations.SnapshotAndRestoreAreJudged := by
  unfold Obligations.SnapshotAndRestoreAreJudged
  refine ⟨fun s rq se h => ?_, fun s rq se h keyOk hg => ?_⟩
  · intro e job
    exact ⟨fun hg hc => congrArg _ (invokeReq_later hg hc rfl), fun hg hc => congrArg _ (invokeReq_later hg hc rfl)⟩
  · intro e j ready
    refine ⟨fun hr => ?_, fun hr hf hq => ?_⟩
    · exact congrArg _ (invokeReq_refused hg (snapshotRefusal_busy (s := e) keyOk
        (Bool.eq_false_iff.mpr fun h1 => hr ((snapshotReady_iff j).mp h1))))
    · exact congrArg _ (invokeReq_refused hg (snapshotRefusal_queue (s := e) keyOk ((snapshotReady_iff j).mpr hr) hf hq))

end Sys2Proof.Machine

namespace Sys2Proof.Machine
open Sys2Proof.Safety

/-! The streams of snapshots and restores (R357, R361, R365, R366, R379). -/

theorem countFound_snap (p : Fin 64) (f : Found) (s : State) :
    (countFound p f s).snap = s.snap ∧ (countFound p f s).bell = s.bell := by
  unfold countFound countHolding
  dsimp only
  repeat' split
  all_goals simp

theorem countSnapshotReads_snap (h : Fin 32) (s : State) :
    (countSnapshotReads h s).snap = s.snap ∧ (countSnapshotReads h s).bell = s.bell := by
  let R := fun s t : State => t.snap = s.snap ∧ t.bell = s.bell
  have hrefl : ∀ s, R s s := fun _ => ⟨rfl, rfl⟩
  have htrans : ∀ s t u, R s t → R t u → R s u := fun _ _ _ h k => ⟨k.1.trans h.1, k.2.trans h.2⟩
  exact eachOf_rel R hrefl htrans _ _ _ fun p _ => eachOf_rel R hrefl htrans _ _ _ fun e t => countFound_snap p _ t

theorem snapHeader_length (s : State) (j : SnapJob) (n : Nat) : (snapHeader s j n).length = 256 := bytesAt_length _ _ _

theorem snapPlain_pos (s : State) (j : SnapJob) : 0 < (snapPlain s j).length := by
  unfold snapPlain
  dsimp only
  rw [padTo, bytesAt_length]
  simp only [List.length_append]
  have hpos (x : Section) : 0 < (sectionHeader x).length := by
    simp [sectionHeader]
  have := hpos ⟨0, 0, 0, 0, ((snapSections s j).map sectionHeader).flatten⟩
  omega

theorem recordCount_pos {n : Nat} (h : 0 < n) : 0 < recordCount n := by
  unfold recordCount recordLen
  omega

/-- The first step of the stream, with room for the header's 43 items. -/
theorem snapshotStep_header {s : State} {j : SnapJob} (hn : j.next = 0)
    (hroom : packetRoom s.queues[Fin.ofNat 256 s.snap.outQueue.toNat] 43 = true) :
    ∃ b : List Byte, b.length = 256 ∧ snapshotStep j s =
      commitPacket (Fin.ofNat 256 s.snap.outQueue.toNat) (packetOf b) { countSnapshotReads j.h s with
        snap := { s.snap with job := some { j with next := 1, lastProgress := s.bell.edges } } } := by
  obtain ⟨hsnap, hbell⟩ := countSnapshotReads_snap j.h s
  refine ⟨snapHeader s j (snapPlain s j).length, snapHeader_length _ _ _, ?_⟩
  have hlen : (packetOf (snapHeader s j (snapPlain s j).length)).length = 43 := by
    simp [packetOf, snapHeader_length]
  have hmore : ¬0 = recordCount (snapPlain s j).length := (recordCount_pos (snapPlain_pos s j)).ne
  unfold snapshotStep
  dsimp only
  rw [hn, if_pos rfl, hlen, hroom, if_neg hmore, if_pos rfl, hsnap, hbell]
  rfl

/-- A stalled restore ends by how much of its stream it has taken. -/
theorem restoreFails_some {s : State} {j : RestoreJob} (code : Byte) (hj : s.snap.restore = some j) :
    restoreFails code s = endRestore (if j.taken = 0 then .failed else .restoreFailed) code
      (record evRestoreFail j.h (datS j.h.val code 0) s) := by
  unfold restoreFails
  rw [hj]

theorem headerRefusal_foreign {s : State} {h : Fin 32} {x : SnapHdr}
    (hx : x.magic ≠ 0x5647534E ∨ x.format ≠ 1 ∨ x.family ≠ 0x56 ∨ x.deviceCode ≠ 0x4896) :
    headerRefusal s h x = some stMismatch := by
  refine if_pos ?_
  simpa [or_assoc] using hx

/-- The front packet is taken whole and judged as the next part (R365). -/
theorem execRestoreRecord_part {s : State} {j : RestoreJob} {l : List Item} {part : SnapPart}
    (hj : s.snap.restore = some j) (hbegun : j.begun = true) (hq : serviceQueue s s.snap.inQueue (reeveCode 6) true = true)
    (hfront : frontPacket s.queues[Fin.ofNat 256 s.snap.inQueue.toNat] = some l) (hpart : partMatches part l = true) :
    execRestoreRecord part s = .next (restorePart { j with lastProgress := s.bell.edges } part
      (takePacket (Fin.ofNat 256 s.snap.inQueue.toNat) l.length
        { s with snap := { s.snap with restore := some { j with lastProgress := s.bell.edges } } })) := by
  unfold execRestoreRecord
  rw [hj]
  dsimp only
  rw [hfront]
  exact congrArg _ (if_pos (by rw [hbegun, hq, hpart]; rfl))

theorem restorePart_header {j : RestoreJob} {x : SnapHdr} {s : State} (hh : j.hdr = none) :
    restorePart j (.header x) s = ((headerRefusal s j.h x).elim
      { s with snap := { s.snap with restore := some { j with hdr := some x } } } fun e => endRestore .failed e s) := by
  unfold restorePart
  rw [hh]
  dsimp only
  cases headerRefusal s j.h x <;> rfl

theorem restorePart_unverified {j : RestoreJob} {x : SnapHdr} {plain : List Byte} {s : State} (hh : j.hdr = some x)
    (ht : j.taken = 0) : restorePart j (.record false plain) s = endRestore .failed stSnapAuth s := by
  unfold restorePart
  rw [hh]
  exact if_pos ht

/-- Settles O30: each clause is one branch of the stream's step, of its time limit and of the judgement of a part. -/
theorem snapshotStreamsRunAndEnd : Obligations.SnapshotStreamsRunAndEnd := by
  unfold Obligations.SnapshotStreamsRunAndEnd
  refine ⟨⟨fun s j hj hbegun hn hq => ?_, fun s j hj hbegun hlate => ?_, fun s j hj hbegun hlate => ?_⟩,
    fun s j l hj hbegun hq => ?_⟩
  · intro q hroom
    obtain ⟨b, hb, hstep⟩ := snapshotStep_header hn hroom
    refine ⟨_, b, ?_, hb, hstep⟩
    refine congrArg Host.Outcome.next ?_
    rw [hj]
    exact if_pos (by rw [hbegun]; exact hq)
  · refine congrArg Host.Outcome.next ?_
    rw [if_neg (by decide), hj]
    exact if_pos (by rw [hbegun]; exact decide_eq_true hlate)
  · refine congrArg Host.Outcome.next ?_
    rw [if_pos rfl, hj]
    exact (if_pos (by rw [hbegun]; exact decide_eq_true hlate)).trans (restoreFails_some _ hj)
  · intro q k t hfront hlen
    have hmatch : ∀ x plain, partMatches (.header x) l = true ∧ partMatches (.record false plain) l = true := by
      obtain ⟨a, b, m, rfl⟩ : ∃ a b m, l = a :: b :: m := by
        match l, hlen with
        | a :: b :: m, _ => exact ⟨a, b, m, rfl⟩
      exact fun _ _ => ⟨rfl, rfl⟩
    refine ⟨fun x hh => ⟨?_, headerRefusal_foreign⟩, fun x plain hh ht => ?_⟩
    · refine (execRestoreRecord_part hj hbegun hq hfront (hmatch x []).1).trans
        (congrArg _ ((restorePart_header (j := k) hh).trans ?_))
      change (headerRefusal t j.h x).elim _ _ = _
      cases headerRefusal t j.h x <;> rfl
    · exact (execRestoreRecord_part hj hbegun hq hfront (hmatch x plain).2).trans
        (congrArg _ (restorePart_unverified (j := k) hh ht))

end Sys2Proof.Machine

namespace Sys2Proof.Machine
open Sys2Proof.Safety

/-! What leaves the rings and the state of the host's link. -/

/-- From s to t the rings, the rate of the link and whether it was reset stay. -/
@[simp] abbrev SameWires (s t : State) : Prop :=
  t.rings = s.rings ∧ t.host.rate = s.host.rate ∧ t.host.resetSince = s.host.resetSince

theorem SameWires.trans {s t u : State} (h : SameWires s t) (k : SameWires t u) : SameWires s u :=
  ⟨k.1.trans h.1, k.2.1.trans h.2.1, k.2.2.trans h.2.2⟩

@[simp] theorem ite_wires (c : Prop) [Decidable c] (a b : State) :
    (if c then a else b).rings = (if c then a.rings else b.rings) ∧
    (if c then a else b).host.rate = (if c then a.host.rate else b.host.rate) ∧
    (if c then a else b).host.resetSince = (if c then a.host.resetSince else b.host.resetSince) := by
  split <;> simp

@[simp] theorem eachOf_wires {α : Type} (l : List α) (f : α → State → State) (s : State)
    (h : ∀ i t, SameWires t (f i t)) :
    SameWires s (eachOf l f s) := eachOf_rel SameWires (by simp) (fun _ _ _ => SameWires.trans) l f s h

@[simp] theorem pf0Respond_wires (k : Fin 8) (msg : List Byte) (len : Nat) (s : State) :
    SameWires s (pf0Respond k msg len s) := by
  unfold pf0Respond; simp
@[simp] theorem ssp1Respond_wires (msg : List Byte) (len : Nat) (s : State) :
    SameWires s (ssp1Respond msg len s) := by
  unfold ssp1Respond; simp
@[simp] theorem noResponse_wires (p : Path) (s : State) : SameWires s (noResponse p s) := by
  unfold noResponse; split <;> simp
@[simp] theorem pf0Notice_wires (msg : List Byte) (len : Nat) (s : State) :
    SameWires s (pf0Notice msg len s) := by
  unfold pf0Notice; simp
@[simp] theorem ssp1Notice_wires (msg : List Byte) (s : State) : SameWires s (ssp1Notice msg s) := by
  unfold ssp1Notice; simp
@[simp] theorem sendNotice_wires (p : Path) (sess ctr : BitVec 32) (inner : List Byte) (s : State) :
    SameWires s (sendNotice p sess ctr inner s) := by
  unfold sendNotice; split <;> simp
@[simp] theorem closeSession_wires (se : Session) (reason : Byte) (s : State) :
    SameWires s (closeSession se reason s) := by
  unfold closeSession; simp
@[simp] theorem sendResponse_wires (p : Path) (sess ctr : BitVec 32) (inner : List Byte) (s : State) :
    SameWires s (sendResponse p sess ctr inner s) := by
  unfold sendResponse; split <;> simp
@[simp] theorem respond_wires (rq : Req) (op st ty : Byte) (bell : BellNo) (body : List Byte) (s : State) :
    SameWires s (respond rq op st ty bell body s) := by
  unfold respond; split <;> simp
@[simp] theorem invokeDone_wires (rq : Option Req) (st : Byte) (b : BellNo) (s : State) :
    SameWires s (invokeDone rq st b s) := by
  unfold invokeDone; split <;> simp
@[simp] theorem unforce_wires (h : Fin 32) (s : State) : SameWires s (unforce h s) := by
  unfold unforce; exact eachOf_wires _ _ _ fun _ _ => by simp
@[simp] theorem endSnapshot_wires (st : SnapState) (code : Byte) (s : State) :
    SameWires s (endSnapshot st code s) := by
  unfold endSnapshot; split <;> simp
@[simp] theorem endRestore_wires (st : SnapState) (code : Byte) (s : State) :
    SameWires s (endRestore st code s) := by
  unfold endRestore; split <;> simp
@[simp] theorem cutJobs_wires (h : Fin 32) (s : State) : SameWires s (cutJobs h s) := by
  unfold cutJobs; dsimp only; repeat' split
  all_goals simp [*]
@[simp] theorem cancelled_wires (h : Fin 32) (t : Trans) (s : State) : SameWires s (cancelled h t s) := by
  unfold cancelled; split <;> simp
@[simp] theorem cancelTransitions_wires (h : Fin 32) (s : State) : SameWires s (cancelTransitions h s) := by
  unfold cancelTransitions; simp
@[simp] theorem busyAnswer_wires (rq : Option Req) (s : State) : SameWires s (busyAnswer rq s) := by
  unfold busyAnswer; simp
@[simp] theorem dropPending_wires (keepClears : Bool) (h : Fin 32) (s : State) :
    SameWires s (dropPending keepClears h s) := by
  unfold dropPending; simp
@[simp] theorem cutFreezes_wires (h : Fin 32) (s : State) : SameWires s (cutFreezes h s) := by
  unfold cutFreezes; simp
@[simp] theorem refreshHedges_wires (s : State) : SameWires s (refreshHedges s) := by
  unfold refreshHedges; simp
@[simp] theorem setState_wires (h : Fin 32) (st : HState) (s : State) : SameWires s (setState h st s) := by
  unfold setState; simp
@[simp] theorem openSector_wires (i : Nat) (s : State) : SameWires s (openSector i s) := by
  unfold openSector; simp
theorem placeRecord_wires (n : Nat) (s t : State) (a : Nat) (h : placeRecord n s = some (t, a)) :
    SameWires s t := by
  unfold placeRecord at h; repeat' split at h
  all_goals simp at h
  all_goals (obtain ⟨rfl, -⟩ := h; simp)
@[simp] theorem flashRun_wires (l : List FlashOp) (s : State) : SameWires s (flashRun l s) := by
  induction l generalizing s with
  | nil => simp [flashRun]
  | cons o l ih => cases o <;> simp [flashRun, ih]
@[simp] theorem flashStart_wires (s : State) : SameWires s (flashStart s) := by
  unfold flashStart; repeat' split
  all_goals simp
@[simp] theorem flashPush_wires (o : FlashOp) (s : State) : SameWires s (flashPush o s) := by
  unfold flashPush; simp
@[simp] theorem appendRecord_wires (tag ix : BitVec 16) (sub ty : BitVec 8) (value : List Byte) (s : State) :
    SameWires s (appendRecord tag ix sub ty value s) := by
  unfold appendRecord; dsimp only; split
  · simp
  · rename_i t a h; simp [placeRecord_wires _ _ _ _ h]
@[simp] theorem storeEpoch_wires (h : Fin 32) (s : State) : SameWires s (storeEpoch h s) := by
  unfold storeEpoch; simp
@[simp] theorem closeSessions_wires (p : Session → Bool) (reason : Byte) (s : State) :
    SameWires s (closeSessions p reason s) := by
  unfold closeSessions; simp
@[simp] theorem rampPlot_wires (p : Fin 64) (mv : Nat) (s : State) : SameWires s (rampPlot p mv s) := by
  unfold rampPlot; simp
@[simp] theorem startRegulator_wires (p : Fin 64) (s : State) : SameWires s (startRegulator p s) := by
  unfold startRegulator; simp
@[simp] theorem callForRestart_wires (p : Fin 64) (s : State) : SameWires s (callForRestart p s) := by
  unfold callForRestart; simp
@[simp] theorem clearPlot_wires (p : Fin 64) (s : State) : SameWires s (clearPlot p s) := by
  unfold clearPlot; simp
@[simp] theorem answerWaiting_wires (ep : Bool) (p : Fin 64) (s : State) :
    SameWires s (answerWaiting ep p s) := by
  unfold answerWaiting; simp
@[simp] theorem enterClearing_wires (h : Fin 32) (s : State) : SameWires s (enterClearing h s) := by
  unfold enterClearing; refine SameWires.trans ?_ (eachOf_wires _ _ _ fun _ _ => ?_) <;> simp
@[simp] theorem updateItemsHeld_wires (h : Fin 32) (s : State) : SameWires s (updateItemsHeld h s) := by
  unfold updateItemsHeld; simp
@[simp] theorem unbindQueue_wires (q : Fin 256) (edge : Nat) (s : State) :
    SameWires s (unbindQueue q edge s) := by
  unfold unbindQueue; simp
@[simp] theorem rampHolding_wires (h : Fin 32) (mv : Nat) (s : State) : SameWires s (rampHolding h mv s) := by
  unfold rampHolding; simp

end Sys2Proof.Machine

namespace Sys2Proof.Machine
open Sys2Proof.Safety

/-! The link and its loss (R435, R445 to R447, R451). -/

/-- The link is down, without a reset, and no ring holds a tally. -/
def LinkDown (s : State) : Prop :=
  s.host.rate = 0 ∧ s.host.resetSince = false ∧ ∀ q : Fin 256, s.rings[q].tallies = []

theorem LinkDown.wires {s t : State} (h : LinkDown s) (k : SameWires s t) : LinkDown t := by
  obtain ⟨hrings, hrate, hreset⟩ := k
  exact ⟨hrate.trans h.1, hreset.trans h.2.1, fun q => by rw [hrings]; exact h.2.2 q⟩

theorem LinkDown.withTest {s : State} (h : LinkDown s) (x : SelfTest) : LinkDown { s with test := x } := h

theorem eachOf_linkDown {α : Type} {l : List α} {f : α → State → State} {s : State} (h : LinkDown s)
    (hf : ∀ a t, LinkDown t → LinkDown (f a t)) : LinkDown (eachOf l f s) :=
  eachOf_rel (fun s t => LinkDown s → LinkDown t) (fun _ h => h) (fun _ _ _ h k hs => k (h hs)) l f s (fun a t => hf a t) h

/-- A ring without tallies has none to force. -/
theorem forceTallies_idle {q : Fin 256} {s : State} (code : Byte) (h : s.rings[q].tallies = []) :
    forceTallies q code s = s := by
  have hopen : leftOpen s.rings[q] = false := by
    unfold leftOpen
    rw [h]
    simp
  have hmap : ∀ (r : Ring) (g : Tally → Tally), r.tallies = [] → { r with tallies := r.tallies.map g } = r := by
    intro r g hr
    cases r
    cases hr
    rfl
  unfold forceTallies
  rw [hopen, Bool.and_false, if_neg Bool.false_ne_true]
  dsimp only
  rw [modRing, upd_id _ _ _ (hmap _ _ h), sendForced, h]

theorem unbindRing_linkDown {s : State} (q : Fin 256) (h : LinkDown s) : LinkDown (unbindRing q s) := by
  unfold unbindRing
  rw [forceTallies_idle codeUnbound (h.2.2 q)]
  dsimp only
  split
  · refine ⟨h.1, h.2.1, fun g => ?_⟩
    have hmap := map_upd_keeps Ring.tallies s.rings q (fun r : Ring => { r with
      st := .disabled, enable := false, cache := [], asked := 0, due := false }) fun _ => rfl
    have hg := congrArg (fun v : Vector (List Tally) 256 => v[g]) hmap
    simp only [Fin.getElem_fin, Vector.getElem_map] at hg
    exact hg.trans (h.2.2 g)
  · exact h

theorem unbindDeclared_linkDown {s : State} (g : Fin 32) (h : LinkDown s) : LinkDown (unbindDeclared g s) :=
  eachOf_linkDown h fun q t ht => by
    split
    · exact (unbindRing_linkDown q ht).wires (unbindQueue_wires _ _ _)
    · exact ht

theorem failLoad_linkDown {s : State} (code : Byte) (c : Bool) (h : LinkDown s) : LinkDown (failLoad code c s) := by
  unfold failLoad
  split
  · exact h
  · extract_lets s₁ s₂ s₃ s₄ s₅
    have h₅ : LinkDown s₅ := h.wires (by simp [s₅, s₄, s₃, s₂, s₁])
    clear_value s₅
    split
    · exact h₅.wires (by simp)
    split
    · exact h₅.wires (by simp)
    · unfold backToEmpty
      extract_lets s₆
      have h₆ : LinkDown s₆ := h₅.wires (eachOf_wires _ _ _ fun _ _ => ⟨rfl, rfl, rfl⟩)
      exact (unbindDeclared_linkDown _ (h₆.wires ((rampHolding_wires _ _ _).trans (unforce_wires _ _)))).wires
        (setState_wires _ _ _)

theorem fatalHolding_linkDown {s : State} (g : Fin 32) (h : LinkDown s) : LinkDown (fatalHolding g s) := by
  unfold fatalHolding
  split
  · exact h
  · dsimp only
    have h₁ : LinkDown (cutJobs g (cancelTransitions g s)) := h.wires (by simp)
    split
    · exact failLoad_linkDown _ _ h₁
    · exact h₁

/-- A DEVICE_FATAL fault other than the loss of the timebase, while the link is down. -/
theorem deviceFatal_linkDown {c : FatalCause} (hc : c ≠ .timebaseLost) {s : State} (h : LinkDown s) :
    LinkDown (deviceFatal [c] s) := by
  have hlost : [c].contains FatalCause.timebaseLost = false := by simpa using hc.symm
  have hrest : ∀ v, LinkDown v → LinkDown (eachFin 32 fatalHolding (fatalTallies v)) := fun v hv => by
    rw [fatalTallies, if_pos (Fin.val_eq_zero_iff.mpr hv.1)]
    exact eachOf_linkDown hv fun g t => fatalHolding_linkDown g
  unfold deviceFatal
  dsimp only
  rw [hlost, if_neg Bool.false_ne_true]
  exact (hrest _ (h.wires (by simp))).withTest _

theorem abandonTallies_reset (q : Fin 256) (event : Bool) (s : State) :
    (abandonTallies q event s).host.resetSince = s.host.resetSince ∧ (abandonTallies q event s).dev = s.dev := by
  unfold abandonTallies
  simp

theorem abandonAll_linkDown {s : State} (hrate : s.host.rate = 0) (hreset : s.host.resetSince = false) :
    LinkDown (abandonAll s) ∧ (abandonAll s).dev = s.dev := by
  obtain ⟨hr, hd⟩ := eachFin_rel (fun s t => t.host.resetSince = s.host.resetSince ∧ t.dev = s.dev) (fun _ => ⟨rfl, rfl⟩)
    (fun _ _ _ h k => ⟨k.1.trans h.1, k.2.trans h.2⟩) 256 (fun q t => abandonTallies q true t) s
    fun q t => abandonTallies_reset q true t
  obtain ⟨-, -, -, ⟨hlink, -⟩, -⟩ := eachFin_dma 256 (fun q t => abandonTallies q true t) s
    fun q t => abandonTallies_dma q true t
  have hrings := eachFin_rings (fun q t => abandonTallies q true t) Ring.abandonAll s fun q t => abandonTallies_rings q true t
  unfold abandonAll
  refine ⟨⟨hlink.trans hrate, hr.trans hreset, fun q => ?_⟩, hd⟩
  rw [hrings]
  simp

theorem linkLost_up {s : State} (hup : ¬s.host.rate.val = 0) :
    linkLost s = deviceFatal [.linkLost] (abandonAll (record evPcieLinkLost 0 0
      { s with host := { s.host with rate := 0, width := 0, resetSince := false } })) := if_neg hup

/-- The record of a unit that fits no slot (R435). -/
theorem reportUnfit_eq (s : State) : reportUnfit s =
    if s.bell.period.toNat / 16 < unitTicks s then record evDmaUnitUnfit 0 (BitVec.ofNat 48 (unitTicks s)) s else s := by
  unfold reportUnfit unitUnfit
  simp only [decide_eq_true_eq]

theorem linkWidth_iff (w : Nat) : linkWidth w = true ↔ w ∈ [1, 2, 4, 8, 16] := by
  simp [linkWidth, or_assoc]

/-- Settles O31: a link-up changes rate and width; a loss abandons every tally and is one fault; each error has its row. -/
theorem linkEventsAndErrorsAct : Obligations.LinkEventsAndErrorsAct := by
  unfold Obligations.LinkEventsAndErrorsAct
  refine ⟨⟨fun s rate width hdown hrate hwidth hvsd hvsdt => ?_, fun s hup => ?_⟩, fun s f hup => ?_⟩
  · intro t
    have hperiod : t.bell.period = s.bell.period := by simp [t]
    refine congrArg Host.Outcome.next ((if_neg ?_).trans ((reportUnfit_eq t).trans (by rw [hperiod])))
    have h0 : (s.host.rate.val ≠ 0) = False := eq_false (not_not.mpr (Fin.val_eq_zero_iff.mpr hdown))
    have hn : (rate.val = 0) = False := eq_false fun h => hrate (Fin.val_eq_zero_iff.mp h)
    simp only [h0, hn, (linkWidth_iff _).mpr hwidth, hvsd, hvsdt]
    decide
  · let u := record evPcieLinkLost 0 0 { s with host := { s.host with rate := 0, width := 0, resetSince := false } }
    have hu : u.host.rate = 0 ∧ u.host.resetSince = false ∧ u.dev = s.dev := by simp [u]
    obtain ⟨hdown, hdev⟩ := abandonAll_linkDown hu.1 hu.2.1
    obtain ⟨hrate, hreset, hidle⟩ := deviceFatal_linkDown (c := .linkLost) (by decide) hdown
    have hfatal := deviceFatal_dev (c := .linkLost) (by decide) (abandonAll u)
    have hgo : ¬s.host.rate.val = 0 := fun h0 => hup (Fin.ext h0)
    refine ⟨deviceFatal [.linkLost] (abandonAll u), congrArg Host.Outcome.next (linkLost_up hgo), hrate, hreset, ?_, ?_, hidle⟩
    · rw [hfatal]
    · rw [hfatal, hdev, hu.2.2]
  · have hgo : ¬s.host.rate.val = 0 := fun h0 => hup (Fin.ext h0)
    refine ⟨fun e he => ?_, fun e he => ?_, fun e he => ?_⟩
    all_goals
      fin_cases he <;> exact congrArg Host.Outcome.next (if_neg hgo)

end Sys2Proof.Machine

namespace Sys2Proof.Machine
open Sys2Proof.Safety

/-! The states of a ring (R396, R397, R399, Table 08-5). -/

theorem ofNat_fieldOf (v : BitVec 32) (lo len : Nat) : BitVec.ofNat len (fieldOf v lo len) = v.extractLsb' lo len := by
  apply BitVec.eq_of_toNat_eq
  simp [fieldOf, Nat.shiftRight_eq_div_pow]

theorem modRing_congr {q : Fin 256} {f g : Ring → Ring} {s : State} (h : f s.rings[q] = g s.rings[q]) :
    modRing q f s = modRing q g s := congrArg (fun v => { s with rings := v }) (upd_congr h)

section
variable {q : Fin 256} {v : BitVec 32} {s : State}

theorem ringCtrl_disabled (hst : s.rings[q].st = .disabled) (hv : v.getLsbD 31 = true) :
    ringCtrl q v s = modRing q (fun r => { r with
      st := .active, enable := true, head := 0, tail := 0, readIx := 0, asked := 0, cache := [],
      holdoff := v.extractLsb' 8 8, vector := v.extractLsb' 0 6,
      sizeLog2 := if 6 ≤ fieldOf v 16 4 then v.extractLsb' 16 4 else r.sizeLog2 }) s := by
  refine modRing_congr ?_
  simp only [hst, hv, ofNat_fieldOf, beq_self_eq_true, Bool.true_and, decide_eq_true_eq]

theorem ringCtrl_draining (hst : s.rings[q].st = .draining) (hv : v.getLsbD 31 = true) :
    ringCtrl q v s = modRing q (fun r => { r with
      st := .active, enable := true, holdoff := v.extractLsb' 8 8, vector := v.extractLsb' 0 6 }) s := by
  refine modRing_congr ?_
  simp only [hst, hv, ofNat_fieldOf]
  rfl

theorem ringCtrl_active (hst : s.rings[q].st = .active) (hv : v.getLsbD 31 = false) :
    ringCtrl q v s = modRing q (fun r => { r with
      st := .draining, enable := false, holdoff := v.extractLsb' 8 8, vector := v.extractLsb' 0 6 }) s := by
  refine modRing_congr ?_
  simp only [hst, hv, ofNat_fieldOf]
  rfl

end

theorem ringTail_kept {q : Fin 256} {v : BitVec 16} {s : State}
    (h : ¬(s.rings[q].st == .active && decide (2 ^ s.rings[q].sizeLog2.toNat < (v - s.rings[q].head).toNat)) = true) :
    ringTail q v s = modRing q (fun r => { r with tail := v }) s := if_neg h

theorem execRingEnable_on {f : Fin 33} {q : Fin 256} {v : BitVec 32} {s : State} (hr : ringOf s f q = true)
    (hv : v.getLsbD 31 = true) : execRingEnable f q v s = .next (ringCtrl q v s) :=
  congrArg _ (if_pos (by rw [hr, hv]; rfl))

theorem execRingDisable_on {f : Fin 33} {q : Fin 256} {v : BitVec 32} {s : State} (hr : ringOf s f q = true)
    (hv : v.getLsbD 31 = false) : execRingDisable f q v s = .next (ringCtrl q v s) :=
  congrArg _ (if_pos (by rw [hr, hv]; rfl))

/-- Settles O32: one clause for each row of Table 08-5. -/
theorem ringsFollowTheirStateMachine : Obligations.RingsFollowTheirStateMachine := by
  unfold Obligations.RingsFollowTheirStateMachine
  intro s f q hr r
  have hidle : r.tallies = [] → r.tallies.isEmpty = true := fun h => by rw [h]; rfl
  refine ⟨fun v hv hst => ?_, fun v hv hst => ?_, fun v hv hst => ?_, fun hst ht => ?_, fun v hv => ?_,
    fun v hst hv => ?_, fun hst ht => ?_, ?_⟩
  · exact (execRingEnable_on hr hv).trans (congrArg _ (ringCtrl_disabled hst hv))
  · exact (execRingEnable_on hr hv).trans (congrArg _ (ringCtrl_draining hst hv))
  · exact (execRingDisable_on hr hv).trans (congrArg _ (ringCtrl_active hst hv))
  · exact congrArg Host.Outcome.next (if_pos (by rw [hst, hidle ht]; rfl))
  · refine congrArg Host.Outcome.next ((if_pos hr).trans (ringTail_kept ?_))
    rw [decide_eq_false (Nat.not_lt.mpr hv), Bool.and_false]
    decide
  · exact congrArg Host.Outcome.next ((if_pos hr).trans (if_pos (by rw [hst, decide_eq_true hv]; rfl)))
  · exact congrArg Host.Outcome.next ((if_pos hr).trans (if_pos (by rw [hst, hidle ht]; rfl)))
  · exact congrArg Host.Outcome.next (if_neg (by rw [hr]; decide))

/-! The PF0 mailbox and the registers that a read clears (R424 to R426, R429, R432). -/

theorem submit_good {s : State} {k : Fin 8} {n : Nat} (hn : n ≠ 0) (hmax : n ≤ 2048)
    (hfree : s.host.busy.getLsbD k.val = false) :
    submit k n s = { s with host := { s.host with
      busy := s.host.busy ||| (1#8 <<< k.val),
      requests := s.host.requests ++ [(k, (padTo 2048 s.host.reqSlots[k]).take n)] } } := by
  refine if_neg ?_
  rw [hfree, decide_eq_false (by omega)]
  decide

/-- Settles O34. -/
theorem mailboxTakesAndFreesSlots : Obligations.MailboxTakesAndFreesSlots := by
  unfold Obligations.MailboxTakesAndFreesSlots
  intro s k n hr
  have hzero : n ≠ 0 → n.toNat ≠ 0 := fun h h0 => h (BitVec.eq_of_toNat_eq h0)
  refine ⟨fun hn hmax hfree => ?_, fun hbad => ⟨s.host.slotBusy || s.host.busy.getLsbD k.val, ?_⟩, fun hn hmax hbusy => ?_,
    fun m => ?_, ?_, fun f hf hrf => ?_⟩
  · exact congrArg Host.Outcome.next ((if_pos hr).trans (submit_good (hzero hn) hmax hfree))
  · have hb : (n.toNat = 0 ∨ 2048 < n.toNat) := hbad.imp_left fun h => by rw [h]; rfl
    refine congrArg Host.Outcome.next ((if_pos hr).trans ((if_pos ?_).trans ?_))
    · rw [decide_eq_true hb]; rfl
    · simp only [hb, decide_true, Bool.or_true]
  · have hb : ¬(n.toNat = 0 ∨ 2048 < n.toNat) := by have := hzero hn; omega
    refine congrArg Host.Outcome.next ((if_pos hr).trans ((if_pos ?_).trans ?_))
    · rw [hbusy, Bool.or_true]
    · simp only [hbusy, decide_eq_false hb, Bool.or_true, Bool.or_false]
  · exact congrArg Host.Outcome.next (if_pos hr)
  · exact congrArg Host.Outcome.next (if_neg (by rw [hr]; decide))
  · have hf0 : ¬f.val = 0 := fun h => hf (Fin.ext h)
    exact congrArg Host.Outcome.next (if_neg (by rw [hrf, decide_eq_false hf0]; decide))

end Sys2Proof.Machine

namespace Sys2Proof.Machine
open Sys2Proof.Safety

/-! Registers and messages (R389 to R391, R395, R420 to R423, Tables 08-2 and 08-4). -/

theorem execBar_four {f : Fin 33} {off : BitVec 24} {v : BitVec 64} {s : State} (h : off.toNat % 4 = 0) :
    execBarRegisterWrite f off 4 v s = .next (regWrite f off.toNat (v.extractLsb' 0 32) s) :=
  congrArg _ (if_pos (by rw [h]; rfl))

theorem execBar_eight {f : Fin 33} {off : BitVec 24} {v : BitVec 64} {s : State} (h : off.toNat % 8 = 0) :
    execBarRegisterWrite f off 8 v s =
      .next (regWrite f (off.toNat + 4) (v.extractLsb' 32 32) (regWrite f off.toNat (v.extractLsb' 0 32) s)) :=
  by
  refine congrArg Host.Outcome.next ((if_neg ?_).trans (if_pos ?_))
  · simp
  · rw [h]; rfl

theorem execBar_discarded {f : Fin 33} {off : BitVec 24} {w : Nat} {v : BitVec 64} {s : State}
    (h4 : ¬(w = 4 ∧ off.toNat % 4 = 0)) (h8 : w ≠ 8) : execBarRegisterWrite f off w v s = .next s := by
  refine congrArg Host.Outcome.next ((if_neg ?_).trans (if_neg ?_))
  · simpa using h4
  · simp [h8]

theorem regWrite_pf0 {off : Nat} {v : BitVec 32} {s : State} (h : hostReaches s 0 = true) :
    regWrite 0 off v s = pf0Write off v s := (if_neg (by rw [h]; decide)).trans (if_pos rfl)

/-- Register k of the ring of queue q. -/
theorem pf0Write_ring {q : Fin 256} {k : Nat} {v : BitVec 32} {s : State} (hk : k < 32) (hr : ringOf s 0 q = true) :
    pf0Write (0x200000 + 32 * q.val + k) v s = ringRegWrite q k v s := by
  have hq : Fin.ofNat 256 ((0x200000 + 32 * q.val + k - 0x200000) / 32) = q :=
    Fin.ext (by simp only [Fin.val_ofNat]; omega)
  have hmod : (0x200000 + 32 * q.val + k) % 32 = k := by omega
  unfold pf0Write
  dsimp only
  rw [if_neg (by omega), if_neg (by omega), if_neg (by omega), if_neg (by omega), if_neg (by omega), if_neg (by omega),
    if_pos (by omega), hq, hmod, hr]
  rfl

theorem pf0Write_unlisted {off : Nat} {v : BitVec 32} {s : State} (hlow : 0x30000 ≤ off) (hhigh : off < 0x100000) :
    pf0Write off v s = s := by
  unfold pf0Write
  dsimp only
  rw [if_neg (by omega), if_neg (by omega), if_neg (by omega), if_neg (by omega), if_neg (by omega), if_neg (by omega),
    if_neg (by omega)]

theorem off_toNat {n : Nat} (h : n < 2 ^ 24) : (BitVec.ofNat 24 n).toNat = n := by
  rw [BitVec.toNat_ofNat, Nat.mod_eq_of_lt h]

/-- A write of four bytes to register k of a ring that is PF0's. -/
theorem execBar_ring {q : Fin 256} {off k : Nat} {v : BitVec 64} {s : State} (ho : off = 0x200000 + 32 * q.val + k)
    (hk : k < 32) (hword : k % 4 = 0) (hr : hostReaches s 0 = true) (hq : ringOf s 0 q = true) :
    execBarRegisterWrite 0 (BitVec.ofNat 24 off) 4 v s = .next (ringRegWrite q k (v.extractLsb' 0 32) s) := by
  have hoff : (BitVec.ofNat 24 off).toNat = off := off_toNat (by omega)
  rw [execBar_four (by rw [hoff]; omega), regWrite_pf0 hr, hoff, ho, pf0Write_ring hk hq]

/-- The two halves of RING_BASE, bits 63 to 12 of the address. -/
theorem ringRegWrite_baseLow {q : Fin 256} {v : BitVec 32} {s : State} (hst : s.rings[q].st = .disabled) :
    ringRegWrite q 0 v s = modRing q (fun r => { r with base := r.base.extractLsb' 20 32 ++ v.extractLsb' 12 20 }) s := by
  unfold ringRegWrite
  dsimp only
  rw [if_pos rfl, if_pos (by rw [hst]; rfl)]

theorem ringRegWrite_baseHigh {q : Fin 256} {v : BitVec 32} {s : State} (hst : s.rings[q].st = .disabled) :
    ringRegWrite q 4 v s = modRing q (fun r => { r with base := v ++ r.base.extractLsb' 0 20 }) s := by
  unfold ringRegWrite
  dsimp only
  rw [if_neg (by decide), if_pos rfl, if_pos (by rw [hst]; rfl)]

theorem halves_eq (v : BitVec 64) (b : BitVec 52) :
    v.extractLsb' 32 32 ++ (b.extractLsb' 20 32 ++ (v.extractLsb' 0 32).extractLsb' 12 20).extractLsb' 0 20 =
      v.extractLsb' 12 52 := by
  apply BitVec.eq_of_getLsbD_eq
  intro i hi
  simp only [BitVec.getLsbD_append, BitVec.getLsbD_extractLsb']
  by_cases h : i < 20
  · simp [h, hi, show 12 + i < 32 by omega]
  · simp [h, hi, show i - 20 < 32 by omega, show 32 + (i - 20) = 12 + i by omega]

/-- RING_BASE is written while the ring is DISABLED, its two halves one after the other. -/
theorem execBar_ringBase {q : Fin 256} {v : BitVec 64} {s : State} (hr : hostReaches s 0 = true)
    (hq : ringOf s 0 q = true) (hst : s.rings[q].st = .disabled) :
    execBarRegisterWrite 0 (BitVec.ofNat 24 (0x200000 + 32 * q.val)) 8 v s =
      .next (modRing q (fun r => { r with base := v.extractLsb' 12 52 }) s) := by
  let t := modRing q (fun r => { r with base := r.base.extractLsb' 20 32 ++ (v.extractLsb' 0 32).extractLsb' 12 20 }) s
  have hst' : t.rings[q].st = .disabled := by simpa [t, modRing] using hst
  have hoff : (BitVec.ofNat 24 (0x200000 + 32 * q.val)).toNat = 0x200000 + 32 * q.val := off_toNat (by omega)
  have hlow := pf0Write_ring (k := 0) (v := v.extractLsb' 0 32) (by decide) hq
  rw [Nat.add_zero] at hlow
  rw [execBar_eight (by rw [hoff]; omega), hoff, regWrite_pf0 hr, hlow, ringRegWrite_baseLow hst,
    regWrite_pf0 (s := t) hr, pf0Write_ring (s := t) (k := 4) (by decide) hq, ringRegWrite_baseHigh hst',
    modRing_modRing]
  exact congrArg Host.Outcome.next (modRing_congr (by dsimp only; rw [halves_eq]))

theorem low_setWidth {v : BitVec 64} {n : Nat} (h : n ≤ 32) : (v.extractLsb' 0 32).setWidth n = v.extractLsb' 0 n := by
  apply BitVec.eq_of_getLsbD_eq
  intro i hi
  simp [hi, show i < 32 by omega]

theorem low_bit31 (v : BitVec 64) : (v.extractLsb' 0 32).getLsbD 31 = v.getLsbD 31 := by simp

theorem raiseVec_eq (f : Fin 33) (v : Nat) (s : State) : raiseVec f v s =
    if s.fns[f].msixEnable then
      if s.fns[f].masked.getLsbD v then modFn f (fun n => { n with pba := n.pba ||| (1#64 <<< v) }) s
      else emit (.msix f v) s
    else s := by
  unfold raiseVec
  dsimp only
  cases s.fns[f].msixEnable <;> rfl

theorem ringMessage_eq (q : Fin 256) (s : State) : ringMessage q s =
    let r := s.rings[q]
    let t := modRing q (fun r => { r with hoCount := r.holdoff.toNat, due := false }) s
    if ringVector r.fn r.vector.toNat && s.fns[r.fn].msixEnable then
      if s.fns[r.fn].masked.getLsbD r.vector.toNat then
        modFn r.fn (fun n => { n with pba := n.pba ||| (1#64 <<< r.vector.toNat) }) t
      else emit (.msix r.fn r.vector.toNat) t
    else t := by
  unfold ringMessage
  dsimp only
  rw [raiseVec_eq]
  cases ringVector s.rings[q].fn s.rings[q].vector.toNat
  · rfl
  · cases hm : s.fns[s.rings[q].fn].msixEnable
    · exact (if_pos rfl).trans (if_neg (by simpa [modRing] using hm))
    · exact (if_pos rfl).trans (if_pos (by simpa [modRing] using hm))

theorem vectors_eq (f : Fin 33) : vectors f = if f = 0 then 64 else 8 := if_congr Fin.val_eq_zero_iff rfl rfl

/-- Settles O33: an offset decodes to one register, and every message passes its mask. -/
theorem registersAndMessagesAct : Obligations.RegistersAndMessagesAct := by
  unfold Obligations.RegistersAndMessagesAct
  refine ⟨fun s q v hr => ⟨?_, ?_, ?_, fun hq => ⟨fun hv => ?_, fun hv => ?_, ?_, fun hst => execBar_ringBase hr hq hst⟩,
    fun off w hw => execBar_discarded (by omega) (by omega), fun off hoff => execBar_discarded (by omega) (by decide),
    fun off hlow hhigh => ?_⟩, fun s => ⟨fun q hdue hcount => ?_, fun f v hr hv => ?_⟩⟩
  · have hslot : fieldOf (v.extractLsb' 0 32) 0 3 = v.toNat % 8 := by
      simp only [fieldOf, BitVec.extractLsb'_toNat]; omega
    have hlen : fieldOf (v.extractLsb' 0 32) 16 16 = (v.extractLsb' 16 16).toNat := by
      simp only [fieldOf, BitVec.extractLsb'_toNat]; omega
    refine ((execBar_four rfl).trans (congrArg _ (regWrite_pf0 hr))).trans (congrArg Host.Outcome.next ?_)
    rw [if_pos hr, ← hlen, ← hslot]
    rfl
  · refine ((execBar_four rfl).trans (congrArg _ (regWrite_pf0 hr))).trans (congrArg Host.Outcome.next ?_)
    rw [if_pos hr, ← low_setWidth (n := 8) (by decide)]
    rfl
  · refine ((execBar_four rfl).trans (congrArg _ (regWrite_pf0 hr))).trans (congrArg Host.Outcome.next ?_)
    rw [← low_setWidth (n := 16) (by decide)]
    rfl
  · exact (execBar_ring (k := 8) (by omega) (by decide) rfl hr hq).trans (execRingEnable_on hq (by rwa [low_bit31])).symm
  · exact (execBar_ring (k := 8) (by omega) (by decide) rfl hr hq).trans (execRingDisable_on hq (by rwa [low_bit31])).symm
  · refine (execBar_ring (k := 12) (by omega) (by decide) rfl hr hq).trans (congrArg Host.Outcome.next ?_)
    rw [if_pos hq, ← low_setWidth (n := 16) (by decide)]
    rfl
  · by_cases h4 : off.toNat % 4 = 0
    · exact (execBar_four h4).trans (congrArg _ ((regWrite_pf0 hr).trans (pf0Write_unlisted hlow hhigh)))
    · exact execBar_discarded (by omega) (by decide)
  · intro r t
    exact congrArg Host.Outcome.next ((if_pos (by rw [hdue, hcount]; rfl)).trans (ringMessage_eq q s))
  · exact congrArg Host.Outcome.next (if_pos (by rw [hr, vectors_eq, decide_eq_true hv]; rfl))

end Sys2Proof.Machine

namespace Sys2Proof.Machine
open Sys2Proof.Safety

/-! Commits and rewinds keep the owner of every queue. -/

/-- What says to whom a queue belongs (R1005). -/
def Queue.title (x : Queue) : Bool × BitVec 8 := (x.bound, x.owner)

@[simp] abbrev SameOwners (s t : State) : Prop := t.queues.map Queue.title = s.queues.map Queue.title

@[simp] theorem map_title_upd (v : Vector Queue 256) (q : Fin 256) (f : Queue → Queue)
    (h : ∀ x, (f x).bound = x.bound ∧ (f x).owner = x.owner) : (upd v q f).map Queue.title = v.map Queue.title :=
  map_upd_keeps _ v q f fun x => by simp [Queue.title, h x]

theorem SameOwners.owner {s t : State} (h : SameOwners s t) (q : Fin 256) : queueOwner t q = queueOwner s q := by
  have hq := congrArg (fun v : Vector (Bool × BitVec 8) 256 => v[q.val]) h
  simp only [Vector.getElem_map] at hq
  exact queueOwner_congr (congrArg Prod.fst hq) (congrArg Prod.snd hq)

@[simp] theorem eachOf_owners {α : Type} (l : List α) (f : α → State → State) (s : State)
    (h : ∀ i t, SameOwners t (f i t)) : SameOwners s (eachOf l f s) :=
  eachOf_rel SameOwners (fun _ => rfl) (fun _ _ _ h k => k.trans h) l f s h

@[simp] theorem latch_owners (r : Rec) (s : State) : SameOwners s (latch r s) := by
  unfold latch; simp
@[simp] theorem record_owners (e : Ev) (owner : Fin 32) (data : Word) (s : State) :
    SameOwners s (record e owner data s) := by
  unfold record; dsimp only; repeat' split
  all_goals simp
@[simp] theorem limitWrite_owners (code : BitVec 12) (subj n : Nat) (s : State) :
    SameOwners s (limitWrite code subj n s) := by
  unfold limitWrite; repeat' split
  all_goals simp
@[simp] theorem limited_owners (e : Ev) (subj n : Nat) (s : State) : SameOwners s (limited e subj n s) := by
  unfold limited; dsimp only; repeat' split
  all_goals simp
@[simp] theorem showTap_owners (kind n : Nat) (e : TapEv) (s : State) : SameOwners s (showTap kind n e s) := by
  unfold showTap; split <;> simp
@[simp] theorem tapRewind_owners (q : Fin 256) (s : State) : SameOwners s (tapRewind q s) := by
  unfold tapRewind; split <;> simp
@[simp] theorem addLossPending_owners (q : Fin 256) (n : Nat) (s : State) : SameOwners s (addLossPending q n s) := by
  unfold addLossPending; split <;> simp
@[simp] theorem countDrop_owners (q : Fin 256) (n : Nat) (s : State) : SameOwners s (countDrop q n s) := by
  unfold countDrop; split <;> simp
@[simp] theorem afterAppend_owners (q : Fin 256) (s : State) : SameOwners s (afterAppend q s) := by
  unfold afterAppend; repeat' split
  all_goals simp
@[simp] theorem gapCount_owners (q : Fin 256) (n : Nat) (s : State) : SameOwners s (gapCount q n s) := by
  unfold gapCount; dsimp only; repeat' split
  all_goals simp
@[simp] theorem commitItem_owners (cb : Nat) (q : Fin 256) (it : Item) (s : State) :
    SameOwners s (commitItem cb q it s) := by
  unfold commitItem; dsimp only; repeat' split
  all_goals simp
@[simp] theorem rewindOpen_owners (q : Fin 256) (s : State) : SameOwners s (rewindOpen q s) := by
  unfold rewindOpen; dsimp only; repeat' split
  all_goals simp
@[simp] theorem lossReached_owners (q : Fin 256) (n : Nat) (ended : Bool) (s : State) :
    SameOwners s (lossReached q n ended s) := by
  unfold lossReached; simp
@[simp] theorem commitMarker_owners (q : Fin 256) (code arg : Nat) (s : State) :
    SameOwners s (commitMarker q code arg s) := by
  unfold commitMarker; split <;> simp
@[simp] theorem resyncReached_owners (q : Fin 256) (gap : Nat) (recovery : Bool) (s : State) :
    SameOwners s (resyncReached q gap recovery s) := by
  unfold resyncReached; dsimp only; split <;> simp
@[simp] theorem commitStaged_owners (cb : Nat) (q : Fin 256) (l : List Staged) (n : Nat) (s : State) :
    SameOwners s (commitStaged cb q l n s).1 := by
  induction l generalizing n s with
  | nil => simp [commitStaged]
  | cons x l ih =>
    cases x with
    | item it => cases n <;> simp [commitStaged, ih]
    | lost k e => simp [commitStaged, ih]
    | rewind => simp [commitStaged, ih]
    | mark g r => simp [commitStaged, ih]
@[simp] theorem leaveStaging_owners (q : Fin 256) (n : Nat) (s : State) : SameOwners s (leaveStaging q n s) := by
  unfold leaveStaging; split <;> simp
@[simp] theorem commitN_owners (q : Fin 256) (n : Nat) (s : State) : SameOwners s (commitN q n s) := by
  unfold commitN; simp
@[simp] theorem rewindPlace_owners (q : Fin 256) (s : State) : SameOwners s (rewindPlace q s) := by
  unfold rewindPlace; split <;> simp

end Sys2Proof.Machine

namespace Sys2Proof.Machine
open Sys2Proof.Safety

/-! The units of the host DMA engine and the completions of its reads (R400 to R417, R442). -/

theorem execHostDmaUnit_ready {q : Fin 256} {k : DmaKind} {s t : State} (hu : unitReady s q k = true)
    (hs : dmaSlot s q = true) (ht : ringTurn s q = true) (hrun : runUnit q k s = t) :
    execHostDmaUnit q k true s = .next (spend q t) := by
  rw [← hrun]
  refine congrArg Host.Outcome.next ((if_neg ?_).trans (if_pos rfl))
  rw [hu, hs, ht]
  decide

theorem execHostDmaUnit_stalled {q : Fin 256} {k : DmaKind} {s : State} (hu : unitReady s q k = true)
    (hs : dmaSlot s q = true) (ht : ringTurn s q = true) :
    execHostDmaUnit q k false s =
      .next (spend q { s with host := { s.host with fcStalls := satAdd s.host.fcStalls 1 } }) := by
  refine congrArg Host.Outcome.next ((if_neg ?_).trans (if_neg (by decide)))
  rw [hu, hs, ht]
  decide

theorem any_of_find? {α : Type} {p : α → Bool} {l : List α} {a : α} (h : l.find? p = some a) : l.any p = true :=
  List.any_eq_true.mpr ⟨a, List.mem_of_find?_eq_some h, List.find?_some h⟩

theorem dataRead_some {q : Fin 256} {s : State} {t : Tally} (ht : s.rings[q].tallies.find? wantsData = some t) :
    dataRead q s = modTallies q wantsData (fun u => { u with asked := u.asked + readSize s q (t.len - t.asked) })
      (emit (.tlpRead s.rings[q].fn (t.addr + BitVec.ofNat 64 t.asked) (readSize s q (t.len - t.asked))) s) := by
  unfold dataRead
  rw [ht]

/-- One item that a descriptor without PACK takes with room for more. -/
theorem runLength_one {space : Nat} (it : Item) (l : List Item) (h : 2 ≤ space) :
    runLength false 1 space (it :: l) = (1, itLast it) := by
  unfold runLength
  rw [if_neg (by omega)]
  cases itLast it <;> rfl

theorem dataWrite_one {q : Fin 256} {s : State} {t : Tally} {c : QCell} {l : List QCell}
    (ht : s.rings[q].tallies.find? openTally = some t) (hpack : t.pack = false) (hx : s.queues[q].items = c :: l)
    (hone : sendable s.queues[q] = 1) (hunit : 16 ≤ unitBytes s) (hroom : t.sent + 16 ≤ t.len) :
    dataWrite q s = modTallies q openTally (fun u => { u with
      sent := u.sent + 8, code := if itLast c.it then some codeOk else none, lastSent := itLast c.it })
      (takeItem q (emit (.tlpWrite s.rings[q].fn (t.addr + BitVec.ofNat 64 t.sent) (leBytes 8 c.it.toNat)) s)) := by
  have hn : min (unitBytes s / 8) (sendable s.queues[q]) = 1 := by omega
  have hvis : 1 ≤ s.queues[q].vis := by
    have := Nat.min_le_left s.queues[q].vis s.queues[q].buf
    unfold sendable at hone
    omega
  obtain ⟨v, hv⟩ := Nat.exists_eq_add_of_le' hvis
  have hrel : (s.queues[q].items.take s.queues[q].vis).map (·.it) = c.it :: (l.take v).map (·.it) := by
    rw [hx, hv]
    rfl
  unfold dataWrite
  rw [ht]
  dsimp only
  rw [hrel, hpack, hn, runLength_one c.it _ (by omega)]
  simp [eachOf]

/-- The write-back of a tally without IRQ on a ring of the system. -/
theorem writeBack_plain {q : Fin 256} {s : State} {t : Tally} {l : List Tally} {code : Byte}
    (htally : s.rings[q].tallies = t :: l) (hirq : t.irq = false) (hholder : s.rings[q].holder = 0) :
    writeBack q t code s =
      let r := s.rings[q]
      let u := emit (.tlpWrite r.fn (BitVec.ofNat 64 (descAddr r r.head.toNat + 16)) (writeBackBytes r t code s.bell.number)) s
      let u := modRing q (fun r => { r with head := r.head + 1, tallies := l, resumed := false }) u
      { u with host := { u.host with talliesFree := s.host.talliesFree + 1 } } := by
  have hown : (decide (code ≠ codeOk) && decide (s.rings[q].holder.val ≠ 0)) = false := by
    rw [decide_eq_false (not_not.mpr (Fin.val_eq_zero_iff.mpr hholder)), Bool.and_false]
  have hdrop : s.rings[q].tallies.drop 1 = l := by rw [htally]; rfl
  unfold writeBack
  dsimp only
  rw [hown, if_neg Bool.false_ne_true, hirq, if_pos (by decide)]
  refine congrArg (fun u : State => { u with host := { u.host with talliesFree := s.host.talliesFree + 1 } })
    (modRing_congr ?_)
  simp only [emit_rings, hdrop]

theorem runUnit_writeBack {q : Fin 256} {s : State} {t : Tally} {l : List Tally} {code : Byte}
    (htally : s.rings[q].tallies = t :: l) (hcode : t.code = some code) : runUnit q .writeBack s = writeBack q t code s := by
  have hne : s.rings[q].tallies.isEmpty = false := by rw [htally]; rfl
  unfold runUnit
  dsimp only
  rw [hne, if_neg Bool.false_ne_true, htally]
  dsimp only
  rw [hcode]

/-- Settles O35: a ready unit spends its slot's time, and each kind acts on the ring's tally. -/
theorem dmaUnitsMoveTheRing : Obligations.DmaUnitsMoveTheRing := by
  unfold Obligations.DmaUnitsMoveTheRing
  intro s q hs ht r x
  refine ⟨fun hu => execHostDmaUnit_ready hu hs ht rfl, fun t hu hfind => execHostDmaUnit_ready hu hs ht ?_,
    fun t c l hu hfind hpack hx hone hunit hroom => execHostDmaUnit_ready hu hs ht ?_,
    fun t l code hu htally hcode hirq hholder => execHostDmaUnit_ready hu hs ht
      ((runUnit_writeBack htally hcode).trans (writeBack_plain htally hirq hholder)),
    fun k hu => execHostDmaUnit_stalled hu hs ht⟩
  · exact (congrArg (dataRead q) (if_pos (any_of_find? hfind))).trans (dataRead_some hfind)
  · exact (congrArg (dataWrite q) (if_pos (any_of_find? hfind))).trans (dataWrite_one hfind hpack hx hone hunit hroom)

/-! Completions (R401, R402, R410, R442). -/

theorem padded_eq {l : List (List Byte)} (h : ∀ d ∈ l, d.length = 32) :
    (List.range l.length).map (fun i => padTo 32 ((l[i]?).getD [])) = l := by
  refine List.ext_getElem (by simp) fun i hi hl => ?_
  have hd : l[i].length = 32 := h _ (List.getElem_mem hl)
  rw [List.getElem_map, List.getElem_range, List.getElem?_eq_getElem hl, Option.getD_some, padTo, bytesAt]
  refine List.ext_getElem (by simp [hd]) fun j hj hlen => ?_
  simp [List.getElem?_eq_getElem hlen]

theorem stageItem_free {q : Fin 256} {it : Item} {s : State} (hdisc : s.queues[q].discarding = false)
    (hlos : s.queues[q].arrLosing = false) (hfree : s.queues[q].prodFree ≠ 0) :
    stageItem q it s = modQueue q (fun x => { x with staging := x.staging ++ [.item it], prodFree := x.prodFree - 1 }) s := by
  unfold stageItem
  dsimp only
  rw [hdisc, hlos, if_neg Bool.false_ne_true, if_neg Bool.false_ne_true, if_pos hfree]

/-- One word reaches the only tally of its ring, which waits for it. -/
theorem dataArrives_one {q : Fin 256} {s : State} {t : Tally} {w : BitVec 64} (ht : s.rings[q].tallies = [t])
    (hwait : waitsData t = true) (hsent : t.sent + 8 ≤ t.asked) (hdisc : s.queues[q].discarding = false)
    (hlos : s.queues[q].arrLosing = false) (hfree : s.queues[q].prodFree ≠ 0) :
    dataArrives q false [w] s =
      let it : Item := w.extractLsb' 0 52
      modRing q (fun r => { r with tallies := [{ t with
          sent := t.sent + 8, whole := if itLast it then t.sent + 8 else t.whole, lastSent := itLast it,
          code := if t.sent + 8 = t.len then some codeOk else none }] })
        (modQueue q (fun x => { x with staging := x.staging ++ [.item it], prodFree := x.prodFree - 1 }) s) := by
  have hopen : t.code = none := by
    unfold waitsData at hwait
    simpa using (Bool.and_eq_true_iff.mp hwait).1
  obtain ⟨n, hn⟩ := Nat.exists_eq_add_of_le' (show 1 ≤ (t.asked - t.sent) / 8 by omega)
  have hfind : s.rings[q].tallies.find? waitsData = some t := by rw [ht, List.find?_cons_of_pos hwait]
  unfold dataArrives
  rw [hfind]
  dsimp only
  rw [hn, List.take_succ_cons, List.take_nil, eachOf_cons, if_neg Bool.false_ne_true]
  unfold takeWord
  dsimp only
  rw [if_neg Bool.false_ne_true, stageItem_free hdisc hlos hfree, modTallies]
  change modRing q _ (modRing q _ _) = _
  rw [modRing_modRing]
  refine modRing_congr ?_
  simp only [modQueue_rings, ht, modTally, hwait, if_true, finishRead, openTally, hopen, Option.isNone_none,
    Option.isSome_none, Bool.false_eq_true, if_false]

theorem readFails_eq (q : Fin 256) (aer : Nat) (s : State) :
    readFails q aer s = record evDmaHostError (queueOwner s q) (datTop q.val s.rings[q].fn.val) (emit (.aer s.rings[q].fn aer)
      (modTallies q waitsData (fun t => { t with code := some codeHostError }) (rewindPlace q s))) :=
  congrArg (fun h => record evDmaHostError h _ _) ((rewindPlace_owners q s).owner q)

/-- Settles O36. -/
theorem completionsReachTheirRing : Obligations.CompletionsReachTheirRing := by
  unfold Obligations.CompletionsReachTheirRing
  intro s q r failed
  refine ⟨fun l hn hne hl => ?_, fun l hn hst => ?_, fun t w ht hwait hsent hdisc hlos hfree => ?_, fun l hany => ?_⟩
  · have h0 : r.asked ≠ 0 := by rw [hn]; simpa using hne
    refine congrArg Host.Outcome.next ((if_neg h0).trans ((if_neg (by decide)).trans (modRing_congr ?_)))
    change { r with cache := _, readIx := r.readIx + BitVec.ofNat 16 r.asked, asked := 0 } = _
    rw [hn, padded_eq hl]
  · refine congrArg Host.Outcome.next ((if_neg hn).trans ((if_pos (by decide)).trans (if_pos ?_)))
    rw [emit_rings, hst]
    rfl
  · intro it
    have hany : ¬(!r.tallies.any waitsData) = true := by rw [ht, List.any_cons, hwait]; decide
    exact congrArg Host.Outcome.next ((if_neg hany).trans (dataArrives_one ht hwait hsent hdisc hlos hfree))
  · have hgo : ¬(!r.tallies.any waitsData) = true := by rw [hany]; decide
    exact ⟨congrArg Host.Outcome.next ((if_neg hgo).trans (readFails_eq q _ s)),
      congrArg Host.Outcome.next ((if_neg hgo).trans (readFails_eq q _ s)),
      congrArg Host.Outcome.next ((if_pos hany).trans (readFails_eq q _ s))⟩

end Sys2Proof.Machine

namespace Sys2Proof.Machine
open Sys2Proof.Safety

/-! The states of a lane (R453, R454, R461, R463, R466, R476, R495, R498, Table 09-2). -/

@[simp] theorem raiseVec_lanes (f : Fin 33) (v : Nat) (s : State) : (raiseVec f v s).lanes = s.lanes := by
  unfold raiseVec; dsimp only; split
  · rfl
  · split <;> rfl
@[simp] theorem mbxPut_lanes (i : Fin 33) (v : BitVec 128) (s : State) : (mbxPut i v s).lanes = s.lanes := by
  unfold mbxPut; dsimp only; split <;> simp
@[simp] theorem mailbox_lanes (e : Ev) (h : Fin 32) (data : Word) (s : State) : (mailbox e h data s).lanes = s.lanes := by
  unfold mailbox; split
  · rfl
  · exact eachFin_rel (fun s t => t.lanes = s.lanes) (fun _ => rfl) (fun _ _ _ h k => k.trans h) _ _ _
      fun i t => by split <;> simp
@[simp] theorem post_lanes (e : Ev) (h : Fin 32) (data : Word) (s : State) : (post e h data s).lanes = s.lanes := by
  unfold post; simp

/-- From s to t no lane but l changes, no quad and nothing of the self-test. -/
def OnlyLane (l : Fin 48) (s t : State) : Prop :=
  t.quads = s.quads ∧ t.test = s.test ∧ ∀ k : Fin 48, k ≠ l → t.lanes[k] = s.lanes[k]

theorem OnlyLane.refl (l : Fin 48) (s : State) : OnlyLane l s s := ⟨rfl, rfl, fun _ _ => rfl⟩

theorem OnlyLane.trans {l : Fin 48} {s t u : State} (h : OnlyLane l s t) (k : OnlyLane l t u) : OnlyLane l s u :=
  ⟨k.1.trans h.1, k.2.1.trans h.2.1, fun g hg => (k.2.2 g hg).trans (h.2.2 g hg)⟩

theorem modLane_onlyLane (l : Fin 48) (f : Lane → Lane) (s : State) : OnlyLane l s (modLane l f s) :=
  ⟨rfl, rfl, fun k hk => upd_other s.lanes l k f hk⟩

theorem post_onlyLane (l : Fin 48) (e : Ev) (h : Fin 32) (data : Word) (s : State) : OnlyLane l s (post e h data s) :=
  ⟨by simp, by simp, fun k _ => by simp⟩

@[simp] theorem modLane_lane (l : Fin 48) (f : Lane → Lane) (s : State) :
    (modLane l f s).lanes[l.val] = f s.lanes[l.val] := upd_same s.lanes l f

theorem modLane_congr {l : Fin 48} {f g : Lane → Lane} {s : State} (h : f s.lanes[l] = g s.lanes[l]) :
    modLane l f s = modLane l g s := congrArg (fun v => { s with lanes := v }) (upd_congr h)

/-! What becomes of the lane itself. -/

/-- A lane that leaves ACTIVE keeps its replay buffer (R489). -/
def Lane.inactive (e : Nat) (x : Lane) : Lane :=
  if x.limva = .active then { x with
    limva := .down, leftActive := some e, wasActive := true, replayFrom := none, replayCount := 0, nak := false,
    resync := none }
  else x

theorem leaveActive_lane (l : Fin 48) (s : State) :
    OnlyLane l s (leaveActive l s) ∧ (leaveActive l s).lanes[l.val] = s.lanes[l.val].inactive s.bell.edges := by
  unfold leaveActive Lane.inactive
  by_cases h : s.lanes[l.val].limva = .active
  · rw [if_neg (by simpa using h), if_pos h]
    exact ⟨(modLane_onlyLane _ _ _).trans (post_onlyLane _ _ _ _ _), by simp⟩
  · rw [if_pos (by simpa using h), if_neg h]
    exact ⟨.refl _ _, rfl⟩

theorem inactive_kept (e : Nat) (x : Lane) :
    (x.inactive e).limva ≠ .active ∧ (x.inactive e).downCount = x.downCount ∧ (x.inactive e).rxDiscarded = x.rxDiscarded ∧
      coded (x.inactive e) = coded x ∧ (x.inactive e).limvaMode = x.limvaMode ∧ (x.inactive e).loopback = x.loopback ∧
      (x.inactive e).enable = x.enable ∧ (x.inactive e).st = x.st := by
  unfold Lane.inactive
  split
  · exact ⟨by simp, rfl, rfl, rfl, rfl, rfl, rfl, rfl⟩
  · exact ⟨by assumption, rfl, rfl, rfl, rfl, rfl, rfl, rfl⟩

/-- An UP lane that goes to TRAINING (R466). -/
def Lane.retrained (cut : Bool) (x : Lane) : Lane :=
  { x with
    st := .training, blockLocked := false, part := [], shWindow := [], downCount := satAdd x.downCount 1
    rxDiscarded := if cut && coded x && !x.limvaMode then satAdd x.rxDiscarded 4 else x.rxDiscarded }

theorem laneLost_lane (l : Fin 48) (cut : Bool) (s : State) : OnlyLane l s (laneLost l cut s) ∧
    (laneLost l cut s).lanes[l.val] =
      Lane.retrained (cut || s.lanes[l.val].part != []) (s.lanes[l.val].inactive s.bell.edges) := by
  obtain ⟨honly, hlane⟩ := leaveActive_lane l s
  refine ⟨honly.trans ((modLane_onlyLane _ _ _).trans (post_onlyLane _ _ _ _ _)), ?_⟩
  unfold laneLost
  simp [hlane, Lane.retrained]

theorem limvaOff_lane (l : Fin 48) (s : State) : OnlyLane l s (limvaOff l s) ∧
    (limvaOff l s).lanes[l.val].enable = s.lanes[l.val].enable ∧ (limvaOff l s).lanes[l.val].st = s.lanes[l.val].st := by
  obtain ⟨honly, hlane⟩ := leaveActive_lane l s
  obtain ⟨-, -, -, -, -, -, henable, hst⟩ := inactive_kept s.bell.edges s.lanes[l.val]
  refine ⟨honly.trans ((modLane_onlyLane _ _ _).trans (modLane_onlyLane _ _ _)), ?_⟩
  unfold limvaOff dropReplay
  simp [hlane, henable, hst]

theorem laneOff_lane (l : Fin 48) (s : State) : OnlyLane l s (laneOff l s) ∧ (laneOff l s).lanes[l.val].st = .off ∧
    (laneOff l s).lanes[l.val].enable = s.lanes[l.val].enable := by
  obtain ⟨honly, henable, hst⟩ := limvaOff_lane l s
  unfold laneOff
  by_cases h : s.lanes[l.val].st = .off
  · rw [if_pos (by simpa using h)]
    exact ⟨honly, hst.trans h, henable⟩
  · rw [if_neg (by simpa using h)]
    exact ⟨honly.trans (modLane_onlyLane _ _ _), by simp, by simpa using henable⟩

theorem laneEval_lane (l : Fin 48) (s : State) : OnlyLane l s (laneEval l s) := by
  unfold laneEval
  dsimp only
  split
  · split
    · exact modLane_onlyLane _ _ _
    · exact .refl _ _
  · exact (laneOff_lane l s).1

/-- The lane trains: what it needs for that holds. -/
theorem laneEval_trains {l : Fin 48} {s : State} (he : s.lanes[l.val].enable = true) (hp : pllLocked s l = true)
    (ht : s.test.accepted = false) (hst : s.lanes[l.val].st = .off) :
    laneEval l s = modLane l (fun x => { x with st := .training, shWindow := [], part := [] }) s := by
  unfold laneEval
  dsimp only
  rw [if_pos (by simp [he, hp, ht]), if_pos (by simp [hst])]

/-! Lanes that a PLL takes along (R454, R498). -/

/-- The lane may train on PLL A of its quad. -/
def MayTrain (l : Fin 48) (s : State) : Prop :=
  s.lanes[l.val].enable = true ∧ s.lanes[l.val].pllB = false ∧ s.quads[quadOf l].aLocked = true ∧ s.test.accepted = false

theorem MayTrain.locked {l : Fin 48} {s : State} (h : MayTrain l s) : pllLocked s l = true :=
  (if_neg (by rw [Fin.getElem_fin, h.2.1]; decide)).trans h.2.2.1

theorem laneEval_mayTrain {l : Fin 48} {s : State} (k : Fin 48) (h : MayTrain l s)
    (hst : s.lanes[l.val].st = .off ∨ s.lanes[l.val].st = .training) :
    MayTrain l (laneEval k s) ∧ ((laneEval k s).lanes[l.val].st = .training ∨
      k ≠ l ∧ (laneEval k s).lanes[l.val].st = s.lanes[l.val].st) := by
  obtain ⟨henable, hpll, hquad, htest⟩ := h
  obtain ⟨hquads, htests, hothers⟩ := laneEval_lane k s
  by_cases hk : k = l
  · subst hk
    rcases hst with hst | hst
    · rw [laneEval_trains henable (MayTrain.locked ⟨henable, hpll, hquad, htest⟩) htest hst]
      exact ⟨⟨by simpa, by simpa, hquad, htest⟩, .inl (by simp)⟩
    · have hkeep : laneEval k s = s := by
        unfold laneEval
        dsimp only
        rw [if_pos (by simp [henable, MayTrain.locked ⟨henable, hpll, hquad, htest⟩, htest]), if_neg (by simp [hst])]
      rw [hkeep]
      exact ⟨⟨henable, hpll, hquad, htest⟩, .inl hst⟩
  · have hl : (laneEval k s).lanes[l.val] = s.lanes[l.val] := hothers l (Ne.symm hk)
    refine ⟨⟨by rw [hl, henable], by rw [hl, hpll], by rw [hquads, hquad], by rw [htests, htest]⟩, ?_⟩
    rw [hl]
    exact .inr ⟨hk, rfl⟩

theorem eachOf_laneEval_trains {l : Fin 48} (ls : List (Fin 48)) {s : State} (h : MayTrain l s)
    (hst : s.lanes[l.val].st = .training ∨ l ∈ ls ∧ s.lanes[l.val].st = .off) :
    (eachOf ls laneEval s).lanes[l.val].st = .training := by
  induction ls generalizing s with
  | nil => exact hst.resolve_right fun h => nomatch h.1
  | cons k ls ih =>
    obtain ⟨hmay, hnext⟩ := laneEval_mayTrain k h (hst.symm.imp_left And.right)
    rw [eachOf_cons]
    refine ih hmay ?_
    rcases hnext with hnext | ⟨hk, hnext⟩
    · exact .inl hnext
    · rw [hnext]
      exact hst.imp_right fun ⟨hl, hoff⟩ => ⟨(List.mem_cons.mp hl).resolve_left (Ne.symm hk), hoff⟩

theorem eachOf_laneOff_off {l : Fin 48} (ls : List (Fin 48)) {s : State} (hst : l ∈ ls ∨ s.lanes[l.val].st = .off) :
    (eachOf ls laneOff s).lanes[l.val].st = .off := by
  induction ls generalizing s with
  | nil => exact hst.resolve_left fun h => nomatch h
  | cons k ls ih =>
    obtain ⟨⟨-, -, hothers⟩, hoff, -⟩ := laneOff_lane k s
    rw [eachOf_cons]
    refine ih ?_
    by_cases hk : k = l
    · exact .inr (hk ▸ hoff)
    · have hl : (laneOff k s).lanes[l.val] = s.lanes[l.val] := hothers l (Ne.symm hk)
      rw [hl]
      exact hst.imp_left fun h => (List.mem_cons.mp h).resolve_left (Ne.symm hk)

theorem mem_pllLanes {s : State} {n : Fin 12} {b : Bool} {l : Fin 48} :
    l ∈ pllLanes s n b ↔ quadOf l = n ∧ s.lanes[l.val].pllB = b := by
  simp [pllLanes]

theorem eachOf_quads {α : Type} {ls : List α} {f : α → State → State} {s : State}
    (h : ∀ a t, (f a t).quads = t.quads) : (eachOf ls f s).quads = s.quads :=
  eachOf_rel (fun s t => t.quads = s.quads) (fun _ => rfl) (fun _ _ _ h k => k.trans h) ls f s h

/-- The loss of a PLL turns its lanes OFF; the faults that follow leave quads and lanes. -/
theorem pllLost_quads (n : Fin 12) (b : Bool) (s : State) :
    (pllLost n b s).quads = upd s.quads n (fun x => if b then { x with bLocked := false } else { x with aLocked := false }) := by
  unfold pllLost
  dsimp only
  rw [eachOf_quads fun h t => by simp, eachOf_quads fun l t => (laneOff_lane l t).1.1]
  simp

theorem pllLost_off {n : Fin 12} {b : Bool} {s : State} {l : Fin 48} (hq : quadOf l = n) (hb : s.lanes[l.val].pllB = b) :
    (pllLost n b s).lanes[l.val].st = .off := by
  unfold pllLost
  extract_lets s₁ s₂ ls hs s₃
  have hlanes : s₂.lanes = s.lanes := by simp [s₂, s₁]
  have hoff : s₃.lanes[l.val].st = .off :=
    eachOf_laneOff_off ls (.inl (mem_pllLanes.mpr ⟨hq, by rw [hlanes]; exact hb⟩))
  have hline := (eachOf_contained hs (fun h t => faultHolding h .lane t) s₃ fun h t => faultHolding_contained h .lane t)
  obtain ⟨-, -, -, -, -, -, -, -, -, -, -, hline⟩ := hline
  have hl := congrArg (fun v : Vector Lane 48 => v[l.val].st) hline
  simp only [Vector.getElem_map] at hl
  exact hl.trans hoff

/-! The PRBS checker (R473, Table 09-3). -/

/-- The bit that the checker expects next, and its register after a bit that fits or is counted. -/
def prbsWant (x : Lane) : Bool :=
  xor ((x.prbsReg[(prbsTaps x.prbsChk.toNat).1 - 1]?).getD false) ((x.prbsReg[(prbsTaps x.prbsChk.toNat).2 - 1]?).getD false)

def prbsNext (x : Lane) : List Bool := prbsWant x :: x.prbsReg.take ((prbsTaps x.prbsChk.toNat).1 - 1)

theorem plainPattern {v : Byte} (h1 : 1 ≤ v.toNat) (h5 : v.toNat ≤ 5) : v.getLsbD 7 = false ∧ (v.toNat % 8 != 0) = true := by
  refine ⟨?_, by rw [Nat.mod_eq_of_lt (by omega)]; exact bne_iff_ne.mpr (by omega)⟩
  rw [BitVec.getLsbD, Nat.testBit_eq_false_of_lt]
  omega

/-- A full register takes the bit as one that fits. -/
theorem prbsBit_locks {x : Lane} (hpat : x.prbsChk.getLsbD 7 = false)
    (hfull : (prbsTaps x.prbsChk.toNat).1 ≤ x.prbsReg.length) (hun : x.prbsLocked = false) (hmatch : x.prbsMatch = 63) :
    prbsBit x (prbsWant x) = { x with prbsReg := prbsNext x, prbsMatch := 0, prbsLocked := true, prbsWindow := [] } := by
  unfold prbsBit
  dsimp only
  rw [hpat, Bool.xor_false, if_neg (Nat.not_lt.mpr hfull), hun, hmatch]
  change (if false = true then _ else if (prbsWant x != prbsWant x) = true then _ else _) = _
  rw [bne_self_eq_false]
  rfl

theorem prbsBit_loses {x : Lane} (hpat : x.prbsChk.getLsbD 7 = false)
    (hfull : (prbsTaps x.prbsChk.toNat).1 ≤ x.prbsReg.length) (hlock : x.prbsLocked = true)
    (hbad : ((x.prbsWindow.take 63).filter id).length = 31) :
    prbsBit x (!prbsWant x) = { x with
      prbsLocked := false, prbsReg := [], prbsMatch := 0, prbsWindow := [], prbsBits := satAdd x.prbsBits 1,
      prbsErrors := satAdd x.prbsErrors 1 } := by
  have hne : (!prbsWant x) != prbsWant x := by cases prbsWant x <;> rfl
  have hwin : (((true :: x.prbsWindow).take 64).filter id).length = 32 := by
    rw [List.take_succ_cons, List.filter_cons_of_pos rfl, List.length_cons, hbad]
  unfold prbsBit
  dsimp only
  rw [hpat, Bool.xor_false, if_neg (Nat.not_lt.mpr hfull), if_pos hlock]
  change (if 32 ≤ (((((!prbsWant x) != prbsWant x) :: x.prbsWindow).take 64).filter id).length then
    { x with
      prbsLocked := false, prbsReg := [], prbsMatch := 0, prbsWindow := [], prbsBits := satAdd x.prbsBits 1,
      prbsErrors := satAdd x.prbsErrors (b2n ((!prbsWant x) != prbsWant x)) } else _) = _
  rw [hne, if_pos (le_of_eq hwin.symm)]
  rfl

/-- A lane in a plain pattern whose state is not OFF takes the one bit. -/
theorem prbsFeed_bit {l : Fin 48} {b : Bool} {s : State} {x : Lane} (h1 : 1 ≤ s.lanes[l].prbsChk.toNat)
    (h5 : s.lanes[l].prbsChk.toNat ≤ 5) (hst : s.lanes[l].st ≠ .off) (hx : prbsBit s.lanes[l] b = x) :
    (if s.lanes[l].st == .off then s else prbsFeed l [b] s) = modLane l (fun _ => x) s := by
  rw [if_neg (by simpa using hst)]
  exact modLane_congr ((if_pos (plainPattern h1 h5).2).trans hx)

/-! The entries of a lane (R461, R472, R474, R476, R495). -/

theorem coded_up {s : State} {l : Fin 48} (hst : s.lanes[l].st = .training) (hl : s.lanes[l].limvaMode = false) :
    laneUp l s = post evLaneUp (laneHolding s l) (laneDat l)
      (modLane l (fun x => { x with st := .up, blockLocked := x.b66, shWindow := [], part := [] }) s) := by
  have hcoded : modLane l (fun x => { x with st := .up, blockLocked := coded x, shWindow := [], part := [] }) s =
      modLane l (fun x => { x with st := .up, blockLocked := x.b66, shWindow := [], part := [] }) s :=
    modLane_congr (by rw [coded, hl, Bool.or_false])
  have hplain : ∀ t : State, t.lanes[l].limvaMode = false → limvaInit l (limvaUnfit l t) = t := fun t ht => by
    have hunfit : limvaUnfit l t = t := if_neg (by rw [ht]; exact Bool.false_ne_true)
    rw [hunfit]
    exact if_neg (by rw [ht]; exact Bool.false_ne_true)
  unfold laneUp
  rw [if_neg (by rw [hst]; decide), hcoded]
  exact hplain _ (by simpa using hl)

/-- An UP lane whose loop-back changes to NEAR_PMA or FAR trains again (R476). -/
theorem loopback_retrains {l : Fin 48} {v : Byte} (s : State) :
    (laneLost l false (modLane l (fun x => { x with loopback := v }) s)).lanes[l].loopback = v ∧
      (laneLost l false (modLane l (fun x => { x with loopback := v }) s)).lanes[l].st = .training := by
  have hlane := (laneLost_lane l false (modLane l (fun x => { x with loopback := v }) s)).2
  obtain ⟨-, -, -, -, -, hloop, -, -⟩ := inactive_kept s.bell.edges { s.lanes[l.val] with loopback := v }
  rw [modLane_lane] at hlane
  exact ⟨(congrArg Lane.loopback hlane).trans hloop, congrArg Lane.st hlane⟩

theorem retrains_iff (v : Byte) (hv : v.toNat ≤ 4) : retrains v = true ↔ 3 ≤ v.toNat := by
  rw [retrains, Bool.or_eq_true, beq_iff_eq, beq_iff_eq, ← BitVec.toNat_inj, ← BitVec.toNat_inj]
  simp only [BitVec.ofNat_eq_ofNat, BitVec.toNat_ofNat]
  omega

theorem retrains_low (v : Byte) (hv : v.toNat < 3) : retrains v = false := by
  rw [← Bool.not_eq_true, retrains_iff v (by omega)]
  omega

/-- What an UP lane that fails becomes (R466). -/
theorem laneLost_counts (l : Fin 48) (cut : Bool) (s : State) :
    let t := laneLost l cut s
    t.lanes[l].st = .training ∧ t.lanes[l].blockLocked = false ∧ t.lanes[l].limva ≠ .active ∧
      t.lanes[l].downCount = satAdd s.lanes[l].downCount 1 ∧
      t.lanes[l].rxDiscarded = (if (cut = true ∨ s.lanes[l].part ≠ []) ∧ s.lanes[l].b66 = true ∧ s.lanes[l].limvaMode = false
        then satAdd s.lanes[l].rxDiscarded 4 else s.lanes[l].rxDiscarded) := by
  have hlane := (laneLost_lane l cut s).2
  obtain ⟨hlimva, hdown, hdisc, hcoded, hmode, -, -, -⟩ := inactive_kept s.bell.edges s.lanes[l]
  refine ⟨congrArg Lane.st hlane, congrArg Lane.blockLocked hlane, ?_, (congrArg Lane.downCount hlane).trans ?_,
    (congrArg Lane.rxDiscarded hlane).trans ?_⟩
  · exact (congrArg Lane.limva hlane).trans_ne hlimva
  · exact congrArg (satAdd · 1) hdown
  · refine (if_congr (Iff.of_eq ?_) (congrArg (satAdd · 4) hdisc) hdisc)
    refine (congrArg₂ (fun a b => ((cut || s.lanes[l].part != []) && a && !b) = true) hcoded hmode).trans ?_
    cases hb : s.lanes[l].b66 <;> cases hm : s.lanes[l].limvaMode <;> simp [coded, hb, hm] at *

/-- ENABLE with a locked PLL begins training; FALSE turns the lane OFF (R461). -/
theorem enabled_trains {l : Fin 48} {s : State} (hp : pllLocked s l = true) (ht : s.test.accepted = false)
    (hst : s.lanes[l].st = .off) : laneEval l (modLane l (fun x => { x with enable := true }) s) =
      modLane l (fun x => { x with enable := true, st := .training, shWindow := [], part := [] }) s := by
  have hpll : pllLocked (modLane l (fun x => { x with enable := true }) s) l = pllLocked s l := by
    unfold pllLocked
    rw [Fin.getElem_fin, modLane_lane]
    rfl
  rw [laneEval_trains (by rw [modLane_lane]) (hpll.trans hp) ht (by rw [modLane_lane]; exact hst), modLane_modLane]

theorem disabled_off {l : Fin 48} {s t : State} (ht : t = laneEval l (modLane l (fun x => { x with enable := false }) s)) :
    t.lanes[l].enable = false ∧ t.lanes[l].st = .off ∧ ∀ k, k ≠ l → t.lanes[k] = s.lanes[k] := by
  obtain ⟨honly, hoff, henable⟩ := laneOff_lane l (modLane l (fun x => { x with enable := false }) s)
  have hnot : (modLane l (fun x => { x with enable := false }) s).lanes[l.val].enable = false :=
    congrArg Lane.enable (modLane_lane l _ s)
  have heq : t = laneOff l (modLane l (fun x => { x with enable := false }) s) := by
    rw [ht]
    unfold laneEval
    exact if_neg (by rw [Fin.getElem_fin, hnot]; exact Bool.false_ne_true)
  rw [heq]
  exact ⟨henable.trans hnot, hoff, ((modLane_onlyLane l _ s).trans honly).2.2⟩

theorem limvaInit_idle {l : Fin 48} {s : State} (hst : s.lanes[l.val].st ≠ .up) : limvaInit l s = s :=
  if_neg (by simp [hst])

/-- The mode of a lane that is not UP changes and nothing more. -/
theorem modeOn_eq {l : Fin 48} {s : State} (hst : s.lanes[l].st ≠ .up) :
    (let t := modLane l (fun x => { x with limvaMode := (1 : Byte) != 0, part := [] }) s
    (if (1 : Byte) = 0 then limvaOff l t else limvaInit l t, bellNow t)) =
      (modLane l (fun x => { x with limvaMode := true, part := [] }) s, s.bell.number) := by
  have hon : ¬(1 : Byte) = 0 := by decide
  dsimp only
  rw [if_neg hon, limvaInit_idle (by rw [modLane_lane]; exact hst)]
  rfl

theorem clearsChecker {v : Byte} (h : v.toNat % 8 ≠ 0) : (v.toNat % 8 != 0) = true := bne_iff_ne.mpr h

/-- Settles O38: each clause is one row of Table 09-2 or one entry, read off the lane that it changes. -/
theorem lanesFollowTheirStates : Obligations.LanesFollowTheirStates := by
  unfold Obligations.LanesFollowTheirStates
  refine ⟨fun s l => ?_, fun s l => ?_⟩
  · intro x
    refine ⟨fun rq se hg => ⟨fun hp ht hst => ?_, ?_⟩, fun hst hlimva => congrArg Host.Outcome.next (coded_up hst hlimva),
      fun hst => congrArg Host.Outcome.next (if_pos (beq_iff_eq.mpr hst)), fun cut hst => ?_,
      fun n hlock => ?_, fun n hlock => ?_, fun rq se v hg hv => ⟨fun hlow hold => ?_, fun hhigh hne hst => ?_⟩,
      fun rq se hg => ⟨fun hbound v hv => ?_, fun hfree htap hst => ?_⟩⟩
    · exact congrArg Host.Outcome.next (writeReq_written hg rfl rfl
        (Prod.ext (enabled_trains (s := executing rq se s) hp ht hst) rfl))
    · obtain ⟨henable, hoff, hothers⟩ := disabled_off (l := l) (s := executing rq se s) rfl
      exact ⟨_, congrArg Host.Outcome.next (writeReq_written hg rfl rfl rfl), henable, hoff, hothers⟩
    · obtain ⟨honly, -⟩ := laneLost_lane l cut s
      obtain ⟨hst', hlocked, hlimva, hdown, hdisc⟩ := laneLost_counts l cut s
      exact ⟨_, congrArg Host.Outcome.next (if_pos (beq_iff_eq.mpr hst)), hst', hlocked, hlimva, hdown, hdisc, honly.2.2⟩
    · refine ⟨_, congrArg Host.Outcome.next (if_pos hlock), ?_, fun hq hb he ht hst => ?_⟩
      · rw [eachOf_quads fun k t => (laneEval_lane k t).1]
        exact congrArg Quad.aLocked (upd_same s.quads n _)
      · exact eachOf_laneEval_trains _ ⟨he, hb, by subst hq; exact congrArg Quad.aLocked (upd_same s.quads _ _), ht⟩
          (.inr ⟨mem_pllLanes.mpr ⟨hq, hb⟩, hst⟩)
    · refine ⟨_, congrArg Host.Outcome.next (if_pos hlock), ?_, ?_, fun hq hb => pllLost_off hq hb⟩
      · rw [pllLost_quads]
        exact congrArg Quad.aLocked (upd_same s.quads n _)
      · rw [pllLost_quads]
        have hquad := congrArg Quad.bLocked (upd_same s.quads n fun x => { x with aLocked := false })
        exact hquad
    · exact congrArg Host.Outcome.next (writeReq_written hg (by simpa using hv) rfl (Prod.ext ((if_neg (by
        change ¬(x.loopback != v && (retrains v || retrains x.loopback) && x.st == .up) = true
        rw [retrains_low v hlow, retrains_low _ hold]
        simp)).trans (modLane_modLane _ _ _ _)) rfl))
    · exact ⟨_, congrArg Host.Outcome.next (writeReq_written hg (by simpa using hv) rfl (Prod.ext (if_pos (by
        change (x.loopback != v && (retrains v || retrains x.loopback) && x.st == .up) = true
        rw [(retrains_iff v hv).mpr hhigh, hst]
        simp [Ne.symm hne])) rfl)), loopback_retrains _⟩
    · exact congrArg Host.Outcome.next (writeReq_refused hg (by simpa using hv) (if_pos (by
        change (laneBoundEnd s l || (v != 0 && laneTapped s l)) = true
        rw [hbound]
        rfl)))
    · refine congrArg Host.Outcome.next (writeReq_written hg rfl ?_ (modeOn_eq (s := executing rq se s) hst))
      exact if_neg (by
        change ¬(laneBoundEnd s l || ((1 : Byte) != 0 && laneTapped s l)) = true
        rw [hfree, htap]
        decide)
  · intro x n m want reg
    refine ⟨fun rq se v hv => ⟨fun hg => ?_, fun hg hz => ?_⟩, fun hst h1 h5 hfull =>
      ⟨fun hun hmatch => ?_, fun hlock hbad => ?_⟩⟩
    · exact congrArg Host.Outcome.next (writeReq_written hg (decide_eq_true hv) rfl rfl)
    · refine congrArg Host.Outcome.next (writeReq_written hg (decide_eq_true hv) rfl (Prod.ext ?_ rfl))
      exact modLane_congr (by rw [clearsChecker hz]; rfl)
    · exact congrArg Host.Outcome.next (prbsFeed_bit h1 h5 hst (prbsBit_locks (plainPattern h1 h5).1 hfull hun hmatch))
    · exact congrArg Host.Outcome.next (prbsFeed_bit h1 h5 hst (prbsBit_loses (plainPattern h1 h5).1 hfull hlock hbad))

end Sys2Proof.Machine

namespace Sys2Proof.Machine
open Sys2Proof.Safety

/-! Bits and bytes of a number (R464). -/

theorem ofBits_append (a b : List Bool) : ofBits (a ++ b) = ofBits a + 2 ^ a.length * ofBits b := by
  induction a with
  | nil => simp [ofBits]
  | cons x a ih =>
    have hcons : ∀ l, ofBits (x :: l) = b2n x + 2 * ofBits l := fun _ => rfl
    rw [List.cons_append, hcons, hcons, ih, List.length_cons, pow_succ]
    ring

theorem wordBits_succ (n v : Nat) : wordBits (n + 1) v = natBit v 0 :: wordBits n (v / 2) := by
  rw [wordBits, List.range_succ_eq_map, List.map_cons, List.map_map]
  refine congrArg _ (List.map_congr_left fun i _ => ?_)
  simp [natBit, pow_succ', Nat.div_div_eq_div_mul]

theorem wordBits_length (n v : Nat) : (wordBits n v).length = n := by simp [wordBits]

theorem ofBits_wordBits (n v : Nat) : ofBits (wordBits n v) = v % 2 ^ n := by
  induction n generalizing v with
  | zero => simp [ofBits, wordBits, Nat.mod_one]
  | succ n ih =>
    have hlow : b2n (natBit v 0) = v % 2 := by
      rcases Nat.mod_two_eq_zero_or_one v with h | h <;> simp [natBit, b2n, h]
    rw [wordBits_succ]
    change b2n (natBit v 0) + 2 * ofBits (wordBits n (v / 2)) = _
    rw [ih, hlow, pow_succ', Nat.mod_mul]

theorem ofLe_append (a b : List Byte) : ofLe (a ++ b) = ofLe a + 256 ^ a.length * ofLe b := by
  induction a with
  | nil => simp [ofLe]
  | cons x a ih =>
    have hcons : ∀ l, ofLe (x :: l) = x.toNat + 256 * ofLe l := fun _ => rfl
    rw [List.cons_append, hcons, hcons, ih, List.length_cons, pow_succ]
    ring

/-! The descrambler keeps the scrambler's register and undoes its bits (R457, R462). -/

theorem scrambleBit_back (r : BitVec 58) (b : Bool) (sent got : List Bool) :
    scrambleBit false (r, got) (xor b (xor (r.getLsbD 38) (r.getLsbD 57))) =
      ((scrambleBit true (r, sent) b).1, b :: got) := by
  unfold scrambleBit
  simp

/-- Bits that the scrambler sends, in order. -/
def scrambled (r : BitVec 58) : List Bool → List Bool
  | [] => []
  | b :: bs => xor b (xor (r.getLsbD 38) (r.getLsbD 57)) :: scrambled (scrambleBit true (r, []) b).1 bs

theorem scramble_eq (r : BitVec 58) (bs sent : List Bool) :
    (bs.foldl (scrambleBit true) (r, sent)).2 = (scrambled r bs).reverse ++ sent := by
  induction bs generalizing r sent with
  | nil => rfl
  | cons b bs ih =>
    rw [List.foldl_cons, scrambled, List.reverse_cons, List.append_assoc]
    exact ih _ _

theorem scramble_register (r : BitVec 58) (bs sent sent' : List Bool) :
    (bs.foldl (scrambleBit true) (r, sent)).1 = (bs.foldl (scrambleBit true) (r, sent')).1 := by
  induction bs generalizing r sent sent' with
  | nil => rfl
  | cons b bs ih => exact ih _ _ _

theorem descramble_scrambled (r : BitVec 58) (bs got : List Bool) :
    (scrambled r bs).foldl (scrambleBit false) (r, got) =
      ((bs.foldl (scrambleBit true) (r, [])).1, bs.reverse ++ got) := by
  induction bs generalizing r got with
  | nil => rfl
  | cons b bs ih =>
    rw [scrambled, List.foldl_cons, scrambleBit_back r b [] got, ih, List.foldl_cons, List.reverse_cons, List.append_assoc]
    exact Prod.ext (scramble_register _ _ _ _) rfl

theorem scrambled_length (r : BitVec 58) (bs : List Bool) : (scrambled r bs).length = bs.length := by
  induction bs generalizing r with
  | nil => rfl
  | cons b bs ih => simp [scrambled, ih]

theorem wordBits_ofBits (bs : List Bool) : wordBits bs.length (ofBits bs) = bs := by
  induction bs with
  | nil => rfl
  | cons b bs ih =>
    change wordBits (bs.length + 1) (b2n b + 2 * ofBits bs) = _
    rw [wordBits_succ]
    have hdiv : (b2n b + 2 * ofBits bs) / 2 = ofBits bs := by cases b <;> simp [b2n]; omega
    have hbit : natBit (b2n b + 2 * ofBits bs) 0 = b := by cases b <;> simp [natBit, b2n]
    rw [hdiv, hbit, ih]

theorem ofBits_lt (bs : List Bool) : ofBits bs < 2 ^ bs.length := by
  rw [← wordBits_ofBits bs, ofBits_wordBits, wordBits_length]
  exact Nat.mod_lt _ (by positivity)

theorem descrambles (r : BitVec 58) (p : BitVec 64) :
    scrambleWith false r (scrambleWith true r p).2 = ((scrambleWith true r p).1, p) := by
  have hlen : (scrambled r (wordBits 64 p.toNat)).length = 64 := by rw [scrambled_length, wordBits_length]
  have hlt := ofBits_lt (scrambled r (wordBits 64 p.toNat))
  have hbits := wordBits_ofBits (scrambled r (wordBits 64 p.toNat))
  rw [hlen] at hlt hbits
  unfold scrambleWith
  dsimp only
  rw [scramble_eq, List.append_nil, List.reverse_reverse, BitVec.toNat_ofNat, Nat.mod_eq_of_lt hlt, hbits,
    descramble_scrambled, List.append_nil]
  dsimp only
  rw [List.reverse_reverse, ofBits_wordBits, Nat.mod_eq_of_lt p.isLt, BitVec.ofNat_toNat, BitVec.setWidth_eq]

/-! The gearbox (R464, R465, R467). -/

theorem groupBlocks_payload (a b c d : Word) :
    ofBits [wordBits 48 a.toNat, wordBits 48 b.toNat, wordBits 48 c.toNat, wordBits 48 d.toNat].flatten =
      a.toNat + 2 ^ 48 * (b.toNat + 2 ^ 48 * (c.toNat + 2 ^ 48 * d.toNat)) := by
  simp only [List.flatten_cons, List.flatten_nil, List.append_nil, ofBits_append, ofBits_wordBits, wordBits_length,
    Nat.mod_eq_of_lt a.isLt, Nat.mod_eq_of_lt b.isLt, Nat.mod_eq_of_lt c.isLt, Nat.mod_eq_of_lt d.isLt]

theorem blocks_joined {p : Nat} (h : p < 2 ^ 192) :
    ofLe [leBytes 8 (BitVec.ofNat 64 (p / 2 ^ (64 * 0))).toNat, leBytes 8 (BitVec.ofNat 64 (p / 2 ^ (64 * 1))).toNat,
      leBytes 8 (BitVec.ofNat 64 (p / 2 ^ (64 * 2))).toNat].flatten = p := by
  simp only [List.flatten_cons, List.flatten_nil, List.append_nil, ofLe_append, ofLe_leBytes, leBytes_length,
    BitVec.toNat_ofNat]
  norm_num
  omega

theorem word_of_part {a : Word} {p k : Nat} (h : p / 2 ^ k % 2 ^ 48 = a.toNat) : BitVec.ofNat 48 (p / 2 ^ k) = a :=
  BitVec.eq_of_toNat_eq (by rw [BitVec.toNat_ofNat, h])

/-- The sync header that carries an item's MARK and BAD (R464). -/
def itemSh (it : Item) : BitVec 2 := if itMark it then 0b10#2 else if itBad it then 0b00#2 else 0b01#2

theorem itemSh_mark (it : Item) : (itemSh it == 0b10#2) = itMark it := by
  unfold itemSh
  cases itMark it <;> cases itBad it <;> rfl

theorem itemSh_bad (it : Item) : (!validSh (itemSh it)) = (itBad it && !itMark it) := by
  unfold itemSh
  cases itMark it <;> cases itBad it <;> rfl

/-- What comes back of an item: its place gives FIRST and LAST. -/
def backItem (first : Bool) (i : Item) : Item := mkItem first false (itMark i) (itBad i && !itMark i) (itData i)

theorem groupItems_three {b0 b1 b2 : Block} {p : Nat}
    (hp : ofLe [leBytes 8 b0.payload.toNat, leBytes 8 b1.payload.toNat, leBytes 8 b2.payload.toNat].flatten = p) :
    groupItems [b0, b1, b2] = [
      mkItem true false (b0.sh == 0b10#2) (!validSh b0.sh) (BitVec.ofNat 48 (p / 2 ^ (48 * 0))),
      mkItem false false (b1.sh == 0b10#2) (!validSh b1.sh) (BitVec.ofNat 48 (p / 2 ^ (48 * 1))),
      mkItem false false (b2.sh == 0b10#2) (!validSh b2.sh) (BitVec.ofNat 48 (p / 2 ^ (48 * 2))),
      mkItem false true false false (BitVec.ofNat 48 (p / 2 ^ (48 * 3)))] := by
  rw [← hp]
  rfl

theorem gearbox_returns (a b c d : Item) :
    groupItems (groupBlocks [a, b, c, d]) =
      [backItem true a, backItem false b, backItem false c, mkItem false true false false (itData d)] := by
  have hp := groupBlocks_payload (itData a) (itData b) (itData c) (itData d)
  have ha := (itData a).isLt
  have hb := (itData b).isLt
  have hc := (itData c).isLt
  have hd := (itData d).isLt
  generalize hq : ofBits [wordBits 48 (itData a).toNat, wordBits 48 (itData b).toNat, wordBits 48 (itData c).toNat,
    wordBits 48 (itData d).toNat].flatten = p at hp
  have hblocks : groupBlocks [a, b, c, d] = [
      { sh := itemSh a, payload := BitVec.ofNat 64 (p / 2 ^ (64 * 0)) },
      { sh := itemSh b, payload := BitVec.ofNat 64 (p / 2 ^ (64 * 1)) },
      { sh := itemSh c, payload := BitVec.ofNat 64 (p / 2 ^ (64 * 2)) }] := by
    rw [← hq]; rfl
  have hitems : groupItems (groupBlocks [a, b, c, d]) = [
      mkItem true false (itemSh a == 0b10#2) (!validSh (itemSh a)) (BitVec.ofNat 48 (p / 2 ^ (48 * 0))),
      mkItem false false (itemSh b == 0b10#2) (!validSh (itemSh b)) (BitVec.ofNat 48 (p / 2 ^ (48 * 1))),
      mkItem false false (itemSh c == 0b10#2) (!validSh (itemSh c)) (BitVec.ofNat 48 (p / 2 ^ (48 * 2))),
      mkItem false true false false (BitVec.ofNat 48 (p / 2 ^ (48 * 3)))] := by
    rw [hblocks]
    exact groupItems_three (blocks_joined (by omega))
  rw [hitems, itemSh_mark, itemSh_mark, itemSh_mark, itemSh_bad, itemSh_bad, itemSh_bad,
    word_of_part (a := itData a) (by norm_num; omega), word_of_part (a := itData b) (by norm_num; omega),
    word_of_part (a := itData c) (by norm_num; omega), word_of_part (a := itData d) (by norm_num; omega)]
  rfl

/-! Groups and words received and sent (R462 to R464, R467, R469, R470). -/

/-- Valid headers keep the lock and are counted in its window. -/
theorem headers_keepLock {x : Lane} {a b c : BitVec 2} (hl : x.blockLocked = true) (hw : x.shWindow = [])
    (ha : validSh a = true) (hb : validSh b = true) (hc : validSh c = true) :
    [a, b, c].foldl headerStep x = { x with shWindow := [false, false, false] } := by
  have hstep : ∀ (y : Lane) (sh : BitVec 2) (w : List Bool), y.blockLocked = true → validSh sh = true →
      y.shWindow = w → w.length < 63 → invalids w = 0 → headerStep y sh = { y with shWindow := false :: w } := by
    intro y sh w hy hsh hwin hlen hinv
    have htake : (false :: w).take 64 = false :: w := List.take_of_length_le (by rw [List.length_cons]; omega)
    have hnone : invalids (false :: w) = 0 := hinv
    unfold headerStep
    rw [if_pos hy, hsh, Bool.not_true, hwin, htake]
    dsimp only
    rw [hnone]
    cases y
    cases hy
    rfl
  rw [List.foldl_cons, List.foldl_cons, List.foldl_cons, List.foldl_nil, hstep x a [] hl ha hw (by decide) rfl,
    hstep { x with shWindow := [false] } b [false] hl hb rfl (by decide) rfl,
      hstep { x with shWindow := [false, false] } c [false, false] hl hc rfl (by decide) rfl]

theorem receiveGroup_items {l : Fin 48} {b0 b1 b2 : Block} {s : State} (hst : s.lanes[l].st = .up)
    (hcheck : s.lanes[l].prbsChk = 0) (hmode : s.lanes[l].limvaMode = false) (hb66 : s.lanes[l].b66 = true)
    (hlock : s.lanes[l].blockLocked = true) (h0 : validSh b0.sh = true) (h1 : validSh b1.sh = true)
    (h2 : validSh b2.sh = true) (hwin : s.lanes[l].shWindow = []) :
    receiveGroup l [b0, b1, b2] s = eachOf (groupItems (descramble s.lanes[l].rxScr [b0, b1, b2]).2) (gearboxItem l)
      (modLane l (fun x => { x with
        rxScr := (descramble s.lanes[l].rxScr [b0, b1, b2]).1, shWindow := [false, false, false] }) s) := by
  have hplain : ¬checking s.lanes[l] = true := by rw [checking, hcheck]; decide
  have hcoded : ¬(!coded s.lanes[l]) = true := by rw [coded, hb66, Bool.true_or]; decide
  have hlane : modLane l (fun x => { ([b0, b1, b2].map (·.sh)).foldl headerStep x with
      rxScr := (descramble s.lanes[l].rxScr [b0, b1, b2]).1 }) s = modLane l (fun x => { x with
        rxScr := (descramble s.lanes[l].rxScr [b0, b1, b2]).1, shWindow := [false, false, false] }) s :=
    modLane_congr (by
      rw [List.map_cons, List.map_cons, List.map_cons, List.map_nil, headers_keepLock hlock hwin h0 h1 h2])
  unfold receiveGroup
  dsimp only
  rw [if_neg (by rw [hst]; decide), if_neg hplain, if_neg hcoded, hlane, if_neg (by rw [hlock]; decide),
    if_neg (by rw [Fin.getElem_fin, modLane_lane]; exact (by rw [hlock]; decide : ¬(!s.lanes[l].blockLocked) = true)),
    if_neg (by rw [hmode]; decide)]

/-- What an UP lane without a pattern or a loop-back does at its boundary. -/
theorem txGroup_sends {l : Fin 48} {s : State} (hst : s.lanes[l].st = .up) (hloop : s.lanes[l].loopback = 0)
    (hgen : s.lanes[l].prbsGen = 0) (hmode : s.lanes[l].limvaMode = false) :
    (let x := s.lanes[l]
    if !txAccepts x then s
    else if x.loopback == 1 then txFabric l s
    else if x.st == .off || x.limvaMode then s
    else if x.b66 then txCoded l s
    else txRawWord l s) = if s.lanes[l].b66 = true then txCoded l s else txRawWord l s := by
  dsimp only
  rw [if_neg (by rw [txAccepts, hgen, hloop]; decide), if_neg (by rw [hloop]; decide), if_neg (by rw [hst, hmode]; decide)]

theorem txBlock_out {l : Fin 48} {s : State} (b : Block) (hpol : s.lanes[l].polarity = 0) :
    txBlock l b s = emit (.laneBlock l b.sh b.payload) s := by
  unfold txBlock
  rw [hpol]
  rfl

theorem sendBlock_out {l : Fin 48} {s : State} (b : Block) (hpol : s.lanes[l].polarity = 0)
    (hloop : s.lanes[l].loopback = 0) : sendBlock l b s =
      emit (.laneBlock l b.sh (scrambleWith true s.lanes[l].txScr b.payload).2)
        (modLane l (fun x => { x with txScr := (scrambleWith true s.lanes[l].txScr b.payload).1 }) s) := by
  unfold sendBlock
  generalize scrambleWith true s.lanes[l].txScr b.payload = y
  have hlane : (modLane l (fun x => { x with txScr := y.1 }) s).lanes[l] = { s.lanes[l] with txScr := y.1 } :=
    modLane_lane l _ s
  dsimp only
  rw [txBlock_out _ (by rw [hlane]; exact hpol)]
  refine if_neg ?_
  change ¬((modLane l (fun x => { x with txScr := y.1 }) s).lanes[l].loopback == 2 ||
    (modLane l (fun x => { x with txScr := y.1 }) s).lanes[l].loopback == 3) = true
  rw [hlane]
  dsimp only
  rw [hloop]
  decide

theorem sendRaw_out {l : Fin 48} {s : State} (w : Word) (hpol : s.lanes[l].polarity = 0)
    (hloop : s.lanes[l].loopback = 0) : sendRaw l w s = emit (.laneRaw l w) s := by
  have hplain : txRaw l w s = emit (.laneRaw l w) s := by
    unfold txRaw
    rw [hpol]
    rfl
  unfold sendRaw
  rw [hplain]
  refine if_neg ?_
  change ¬(s.lanes[l].loopback == 2 || s.lanes[l].loopback == 3) = true
  rw [hloop]
  decide

theorem readyGroup_offered {x : Queue} {its : List Item} (h : readyGroup x = some its) :
    ∃ it, offered x = some it ∧ (it.getLsbD 51 && decide (packetLen x = 4)) = true := by
  unfold readyGroup at h
  split at h
  · rename_i it hoff
    split at h
    · rename_i hcan
      exact ⟨it, hoff, (Bool.and_eq_true_iff.mp hcan).1⟩
    · cases h
  · cases h

/-- Settles O39: the descrambler follows the scrambler bit by bit, and a group's four words are the number its blocks hold. -/
theorem lanesCodeAndMoveItems : Obligations.LanesCodeAndMoveItems := by
  unfold Obligations.LanesCodeAndMoveItems
  refine ⟨⟨descrambles, gearbox_returns⟩, fun s l => ?_⟩
  intro x
  refine ⟨fun hst hloop hpol hchk hmode => ⟨fun b0 b1 b2 hb66 hlock h0 h1 h2 hwin => ?_, fun w hraw => ?_⟩,
    fun hst hloop hpol hgen hmode => ⟨fun q its hb66 hq hready => ?_, fun hq hb66 => ?_, fun hq hraw => ?_⟩⟩
  · refine congrArg Host.Outcome.next ((if_pos ?_).trans ?_)
    · rw [hst, pinsReach, hloop]; rfl
    · have hplain : [b0, b1, b2].map (invertBlock (x.polarity.getLsbD 1)) = [b0, b1, b2] := by rw [hpol]; rfl
      have hnear : farEcho l [b0, b1, b2] s = s := if_neg (by rw [hloop]; decide)
      rw [hplain, hnear]
      exact receiveGroup_items hst hchk hmode hb66 hlock h0 h1 h2 hwin
  · have hcoded : coded x = false := by rw [coded, hraw, hmode]; rfl
    refine congrArg Host.Outcome.next ((if_pos ?_).trans ?_)
    · rw [hst, pinsReach, hloop, hcoded]; rfl
    · rw [hpol, hloop]
      change receiveRaw l w s = _
      unfold receiveRaw
      refine (if_neg ?_).trans (if_neg ?_)
      · change ¬(x.st != .up || coded x) = true
        rw [hst, hcoded]; decide
      · change ¬(x.prbsChk.toNat % 8 != 0) = true
        rw [hchk]; decide
  · obtain ⟨it, hoff, hcan⟩ := readyGroup_offered hready
    have hkeep : discardOdd l q 64 s = s := by
      unfold discardOdd
      rw [hoff]
      exact if_pos hcan
    refine congrArg Host.Outcome.next ((txGroup_sends hst hloop hgen hmode).trans ((if_pos hb66).trans ?_))
    unfold txCoded
    rw [hq]
    dsimp only
    rw [hkeep, hready]
  · refine congrArg Host.Outcome.next ((txGroup_sends hst hloop hgen hmode).trans ((if_pos hb66).trans ?_))
    unfold txCoded
    rw [hq]
    exact sendBlock_out _ hpol hloop
  · refine congrArg Host.Outcome.next ((txGroup_sends hst hloop hgen hmode).trans ((if_neg (by rw [hraw]; decide)).trans ?_))
    unfold txRawWord
    rw [hq]
    exact sendRaw_out _ hpol hloop

end Sys2Proof.Machine

namespace Sys2Proof.Machine
open Sys2Proof.Safety

/-! Limva frames (R479, R485 to R489, Tables 09-5 to 09-7). -/

/-- What a frame with a good trailer tells leaves the expected SEQ, the state and the history of the link. -/
theorem heard_keeps (f : Frame) (s : State) (x : Lane) :
    (heard f s x).expect = x.expect ∧ (heard f s x).wasActive = x.wasActive := by
  have hack : ∀ (a : BitVec 12) (y : Lane), (ackFrames a y).expect = y.expect ∧ (ackFrames a y).wasActive = y.wasActive := by
    intro a y
    unfold ackFrames
    dsimp only
    split <;> exact ⟨rfl, rfl⟩
  have hnak : ∀ (on : Bool) (y : Lane), (takeNak on y).expect = y.expect ∧ (takeNak on y).wasActive = y.wasActive := by
    intro on y
    unfold takeNak
    split
    · split <;> exact ⟨rfl, rfl⟩
    · exact ⟨rfl, rfl⟩
  unfold heard
  exact ⟨(hnak _ _).1.trans (hack _ _).1, (hnak _ _).2.trans (hack _ _).2⟩

/-- The lane takes frames: LIMVA mode, UP and reached by the pins. -/
theorem takeFrame_takes {s : State} {l : Fin 48} {st : LimvaSt} (f : Frame) (k : Nat) (run : State → State)
    (hm : s.lanes[l].limvaMode = true) (hst : s.lanes[l].st = .up) (hp : pinsReach s.lanes[l] = true)
    (hl : s.lanes[l].limva = st) : takeFrame l f st k run s =
      if !crcGood f then
        modLane l (fun x => { x with crcErrors := satAdd x.crcErrors 1, nak := x.limva == .active }) s
      else if !formGood f || hdKind f != k then s
      else run s := by
  unfold takeFrame
  refine if_neg ?_
  rw [hm, hst, hp, hl]
  cases st <;> decide

theorem takeFrame_runs {s : State} {l : Fin 48} {st : LimvaSt} {f : Frame} {k : Nat} {run : State → State}
    (hm : s.lanes[l].limvaMode = true) (hst : s.lanes[l].st = .up) (hp : pinsReach s.lanes[l] = true)
    (hl : s.lanes[l].limva = st) (hc : crcGood f = true) (hf : formGood f = true) (hk : hdKind f = k) :
    takeFrame l f st k run s = run s := by
  rw [takeFrame_takes f k run hm hst hp hl, hc, hf, hk, if_neg (by decide), if_neg (by simp)]

theorem seqAhead_iff (x : Lane) (f : Frame) :
    seqAhead x f = true ↔ hdSeq f ≠ x.expect ∧ (hdSeq f - x.expect).toNat < 2048 := by
  rw [seqAhead, Bool.and_eq_true, bne_iff_ne, decide_eq_true_iff]
  refine and_congr_left fun _ => not_congr ?_
  constructor
  · intro h; bv_omega
  · intro h; rw [h]; simp

theorem heard_lane (l : Fin 48) (f : Frame) (s : State) :
    (modLane l (heard f s) s).lanes[l] = heard f s s.lanes[l] := modLane_lane l _ s

theorem not_ahead {x : Lane} {f : Frame} (h : hdSeq f = x.expect ∨ 2048 ≤ (hdSeq f - x.expect).toNat) :
    seqAhead x f = false := by
  rw [← Bool.not_eq_true, seqAhead_iff]
  rintro ⟨hne, hlt⟩
  exact h.elim hne fun hge => by omega

theorem dataFrame_received {l : Fin 48} {f : Frame} {s : State} (h : hdSeq f = s.lanes[l].expect) (hn : hdCount f ≠ 0) :
    dataFrame l f s = eachOf (f.body.map bodyItem) (laneReceive l)
      (modLane l (fun x => { heard f s x with expect := x.expect + 1 }) s) := by
  obtain ⟨hexp, -⟩ := heard_keeps f s s.lanes[l]
  unfold dataFrame
  dsimp only
  rw [heard_lane, not_ahead (by rw [hexp, h]; simp), if_neg Bool.false_ne_true, hexp, if_neg (by simp [h, hn]),
    modLane_modLane]
  exact congrArg _ (modLane_congr (by rw [hexp]))

theorem dataFrame_ahead {l : Fin 48} {f : Frame} {s : State} (h : hdSeq f ≠ s.lanes[l].expect)
    (hn : (hdSeq f - s.lanes[l].expect).toNat < 2048) :
    dataFrame l f s = modLane l (fun x => { heard f s x with nak := true }) s := by
  unfold dataFrame
  dsimp only
  rw [if_pos, modLane_modLane]
  rw [heard_lane, seqAhead_iff, (heard_keeps f s _).1]
  exact ⟨h, hn⟩

theorem dataFrame_behind {l : Fin 48} {f : Frame} {s : State} (h : 2048 ≤ (hdSeq f - s.lanes[l].expect).toNat) :
    dataFrame l f s = modLane l (heard f s) s := by
  obtain ⟨hexp, -⟩ := heard_keeps f s s.lanes[l]
  have hne : hdSeq f ≠ s.lanes[l].expect := fun he => by rw [he] at h; simp at h
  unfold dataFrame
  dsimp only
  rw [heard_lane, not_ahead (by rw [hexp]; exact .inr h), if_neg Bool.false_ne_true, hexp, if_pos (by
    rw [bne_iff_ne.mpr hne]; rfl)]

theorem bellFrame_next {l : Fin 48} {f : Frame} {s : State} (h : hdSeq f = s.lanes[l].expect) :
    bellFrame l f s = modLane l (fun x => { heard f s x with
      peerBell := (bodyWord f).setWidth 48, bellDelta := (bodyWord f).setWidth 48 - s.bell.number }) s := by
  obtain ⟨hexp, -⟩ := heard_keeps f s s.lanes[l]
  unfold bellFrame
  dsimp only
  rw [heard_lane, not_ahead (by rw [hexp, h]; simp), if_neg Bool.false_ne_true, modLane_modLane]
  rfl

theorem resyncFrame_marks {l : Fin 48} {f : Frame} {s : State} {q : Fin 256} (hq : queueFrom s (laneRxCode l) = some q)
    (hc : carries s.queues[q] = true) :
    resyncFrame l f s = commitN q 0 (modQueue q (fun y => { y with
      staging := y.staging ++ [.mark ((bodyWord f).toNat % 2 ^ 40) s.lanes[l].wasActive] }) (modLane l (heard f s) s)) := by
  unfold resyncFrame
  dsimp only
  rw [heard_lane, (heard_keeps f s s.lanes[l]).2]
  have hq' : queueFrom (modLane l (heard f s) s) (laneRxCode l) = some q := hq
  rw [hq']
  exact if_pos hc

/-- A fresh start names the peer that the frame named and loses the replay buffer (R489). -/
theorem freshStart_lane (l : Fin 48) (f : Frame) (peer : BitVec 64) (s : State) :
    let t := freshStart l f (modLane l (fun x => { x with peer, seen := true }) s)
    t.lanes[l].limva = .active ∧ t.lanes[l].peer = peer ∧ t.lanes[l].seq = 0 ∧ t.lanes[l].expect = 0 ∧
      t.lanes[l].replay = [] ∧ t.lanes[l].lost = satAdd s.lanes[l].lost (replayItems s.lanes[l]) ∧
      t.lanes[l].resync = some (BitVec.ofNat 40 (min (replayItems s.lanes[l]) (2 ^ 40 - 1))) := by
  unfold freshStart dropReplay
  simp [replayItems]

/-- Settles O40. -/
theorem limvaFramesAreJudged : Obligations.LimvaFramesAreJudged := by
  unfold Obligations.LimvaFramesAreJudged
  intro s l f x hm hst hp
  refine ⟨fun hl => ⟨fun hbad => ?_, fun hc hf => ⟨fun hk => ⟨fun h hn => ?_, fun h hn => ?_, fun h => ?_⟩,
    fun hk h => ?_, fun hk q hq hcar => ?_⟩, fun hr => ?_⟩, fun hl hc hf hk hver => ⟨fun hseen => ?_, fun hseen hpeer => ?_⟩⟩
  · rw [show exec (.limvaDataFrame l f) s = .next (takeFrame l f .active kindData (dataFrame l f) s) from rfl,
      takeFrame_takes f _ _ hm hst hp hl, hbad]
    exact congrArg Host.Outcome.next (modLane_congr (by
      rw [show s.lanes[l].limva = .active from hl]
      rfl))
  · exact congrArg Host.Outcome.next ((takeFrame_runs hm hst hp hl hc hf hk).trans (dataFrame_received h hn))
  · exact congrArg Host.Outcome.next ((takeFrame_runs hm hst hp hl hc hf hk).trans (dataFrame_ahead h hn))
  · exact congrArg Host.Outcome.next ((takeFrame_runs hm hst hp hl hc hf hk).trans (dataFrame_behind h))
  · exact congrArg Host.Outcome.next ((takeFrame_runs hm hst hp hl hc hf hk).trans (bellFrame_next h))
  · exact congrArg Host.Outcome.next ((takeFrame_runs hm hst hp hl hc hf hk).trans (resyncFrame_marks hq hcar))
  · obtain ⟨-, hlane⟩ := leaveActive_lane l s
    have hleft : s.lanes[l.val].inactive s.bell.edges = _ := if_pos hl
    rw [hleft] at hlane
    refine ⟨_, congrArg Host.Outcome.next (if_pos ?_), ?_, ?_, ?_⟩
    · rw [hl, decide_eq_true hr]; rfl
    · exact congrArg Lane.limva hlane
    · have hreplay := congrArg Lane.replay hlane
      exact hreplay
    · exact congrArg Lane.leftActive hlane
  · refine congrArg Host.Outcome.next ((takeFrame_runs hm hst hp hl hc hf hk).trans ?_)
    unfold initFrame
    dsimp only
    rw [hver, hseen]
    rfl
  · refine ⟨_, congrArg Host.Outcome.next ((takeFrame_runs hm hst hp hl hc hf hk).trans ?_),
      freshStart_lane l f (((bodyWord f).extractLsb' 0 54).setWidth 64) s⟩
    unfold initFrame
    dsimp only
    have hother : (s.lanes[l].peer == ((bodyWord f).extractLsb' 0 54).setWidth 64) = false := beq_eq_false_iff_ne.mpr hpeer
    rw [hver, hseen, hother]
    rfl

end Sys2Proof.Machine

namespace Sys2Proof.Machine
open Sys2Proof.Safety

/-! Units start, take, stop and fail (R535, R539, R544, R545, R549). -/

theorem modCvu_congr {u : Fin 32} {f g : Cvu → Cvu} {s : State} (h : f s.cvus[u] = g s.cvus[u]) :
    modCvu u f s = modCvu u g s := congrArg (fun v => { s with cvus := v }) (upd_congr h)

@[simp] theorem addLossPending_cvus (q : Fin 256) (n : Nat) (s : State) : (addLossPending q n s).cvus = s.cvus := by
  unfold addLossPending; split <;> rfl

@[simp] theorem afterAppend_cvus (q : Fin 256) (s : State) : (afterAppend q s).cvus = s.cvus := by
  unfold afterAppend; repeat' split
  all_goals rfl

@[simp] theorem gapCount_cvus (q : Fin 256) (n : Nat) (s : State) : (gapCount q n s).cvus = s.cvus := by
  unfold gapCount; simp only []; repeat' split
  all_goals simp

@[simp] theorem takeItem_cvus (q : Fin 256) (s : State) : (takeItem q s).cvus = s.cvus := by
  unfold takeItem; dsimp only; split <;> simp

theorem cvuStarted_fresh (x : Cvu) :
    (cvuStarted x).st = .running ∧ (cvuStarted x).reg = crcInit (cvuCrc x) ∧ (cvuStarted x).skipped = 0 := by
  unfold cvuStarted
  dsimp only
  split <;> exact ⟨rfl, rfl, rfl⟩

/-- With nothing open there is nothing to abandon. -/
theorem nothingOpen {x : Cvu} (h : x.isOpen = false) : cvuAbandon { x with isOpen := openAtStop x } = (x, []) := by
  have hopen : openAtStop x = false := by rw [openAtStop, h]; rfl
  rw [hopen, ← h]
  exact if_neg (by rw [h]; exact Bool.false_ne_true)

theorem commitOut_nothing (u : Fin 32) (s : State) : commitOut u [] s = s := by
  unfold commitOut
  split <;> rfl

theorem cvuStop_idle {u : Fin 32} {s : State} (h : s.cvus[u].isOpen = false) :
    cvuStop u s = modCvu u (fun x => { x with
      st := .idle, dropping := if x.st = .running then false else x.dropping,
      taps := if x.st = .running then [] else x.taps }) s := by
  unfold cvuStop
  dsimp only
  rw [nothingOpen h]
  by_cases hrun : s.cvus[u].st = .running
  · rw [if_pos (by rw [hrun]; rfl)]
    refine (if_pos rfl).trans ((commitOut_nothing u _).trans (modCvu_congr ?_))
    rw [if_pos hrun, if_pos hrun]
  · rw [if_neg (by simpa using hrun)]
    exact modCvu_congr (by rw [if_neg hrun, if_neg hrun])

theorem cvuItem_takes {s : State} {u : Fin 32} {q : Fin 256} {it : Item} (hrun : s.cvus[u].st = .running)
    (hsn : cvuSnoops s.cvus[u] = false) (hoff : unitOffer s u = some (q, it))
    (hout : outputTakes s u (cvuStep s.cvus[u] it).2.length = true)
    (hmiss : (cvuStep s.cvus[u] it).1.bellMiss = s.cvus[u].bellMiss) :
    cvuItem u s =
      commitOut u (cvuStep s.cvus[u] it).2 (modCvu u (fun _ => (cvuStep s.cvus[u] it).1) (takeItem q s)) := by
  unfold cvuItem
  dsimp only
  rw [if_neg (by rw [hrun]; decide), if_neg (by rw [hsn]; exact Bool.false_ne_true), hoff]
  dsimp only
  rw [if_pos hout]
  unfold cvuTake
  dsimp only
  rw [takeItem_cvus, hmiss, if_pos (Nat.sub_self _)]

/-! The check value of a packet (R520 to R528). -/

theorem cvuFeed_all {x : Cvu} (it : Item) (h : x.skip = 0) :
    cvuFeed x it = { x with reg := (cvuBytes x it).foldl (crcByte (cvuCrc x)) x.reg } := by
  unfold cvuFeed
  rw [h]
  simp

/-- x after its packet has fed the bytes b: the open computation of a packet. -/
def cvuFed (x : Cvu) (b : List Byte) : Cvu :=
  { cvuBegin x with reg := b.foldl (crcByte (cvuCrc x)) (crcInit (cvuCrc x)) }

theorem cvuStep_item {x : Cvu} {it : Item} (hm : isMarker it = false) (hb : x.boundary = 0) :
    cvuStep x it = cvuPacket x it := by
  unfold cvuStep
  rw [hm, if_neg Bool.false_ne_true, if_pos hb]

/-- Under COMPARE or OUTPUT an item that is fed ends the packet with its final value, or goes on. -/
theorem cvuPacket_fed {x : Cvu} {it : Item} (hmode : x.mode = 1 ∨ x.mode = 2) (hdrop : x.dropping = false)
    (hopen : x.isOpen = true ∨ it.getLsbD 51 = true) :
    cvuPacket x it =
      let y := cvuFeed (if it.getLsbD 51 then cvuBegin x else x) it
      if itLast it then cvuDone y else (y, []) := by
  have hnot : ¬(!x.isOpen && !it.getLsbD 51) = true := by rcases hopen with h | h <;> simp [h]
  have hkeep : ∀ y : Cvu, y.mode = x.mode → ¬y.mode = 6 ∧ ¬y.mode = 5 := fun y hy => by
    rw [hy]; rcases hmode with h | h <;> rw [h] <;> decide
  unfold cvuPacket
  rw [if_neg (by rw [hdrop]; exact Bool.false_ne_true), if_neg hnot]
  dsimp only
  rw [if_neg (hkeep _ (by split <;> rfl)).1, if_neg (hkeep _ (by unfold cvuFeed; dsimp only; split <;> rfl)).2]

theorem cvuFed_next {x : Cvu} {b : List Byte} {it : Item} (hb : x.boundary = 0) (hs : x.skip = 0)
    (hd : x.dropping = false) (hmode : x.mode = 1 ∨ x.mode = 2) (hf : it.getLsbD 51 = false) (hl : itLast it = false) :
    (cvuStep (cvuFed x b) it).1 = cvuFed x (b ++ cvuBytes x it) := by
  have hm : isMarker it = false := by rw [isMarker, hf]; rfl
  rw [cvuStep_item (x := cvuFed x b) hm hb, cvuPacket_fed (x := cvuFed x b) hmode hd (.inl rfl), hf, hl,
    if_neg Bool.false_ne_true]
  dsimp only
  rw [if_neg Bool.false_ne_true, cvuFeed_all (x := cvuFed x b) it hs, cvuFed, cvuFed, List.foldl_append]
  rfl

theorem cvuFed_first {x : Cvu} {it : Item} (hb : x.boundary = 0) (hs : x.skip = 0) (hd : x.dropping = false)
    (hmode : x.mode = 1 ∨ x.mode = 2) (hf : it.getLsbD 51 = true) (hl : itLast it = false) :
    (cvuStep x it).1 = cvuFed x (cvuBytes x it) := by
  have hm : isMarker it = false := by rw [isMarker, hl, Bool.and_false]; rfl
  rw [cvuStep_item hm hb, cvuPacket_fed hmode hd (.inr hf), hf, hl, if_pos rfl]
  dsimp only
  rw [if_neg Bool.false_ne_true, cvuFeed_all (x := cvuBegin x) it hs]
  rfl

theorem cvuFed_middle {x : Cvu} (hb : x.boundary = 0) (hs : x.skip = 0) (hd : x.dropping = false)
    (hmode : x.mode = 1 ∨ x.mode = 2) (l : List Item) (b : List Byte)
    (hl : ∀ i ∈ l, i.getLsbD 51 = false ∧ itLast i = false) :
    l.foldl (fun y i => (cvuStep y i).1) (cvuFed x b) = cvuFed x (b ++ (l.map (cvuBytes x)).flatten) := by
  induction l generalizing b with
  | nil => simp
  | cons i l ih =>
    obtain ⟨hf, hlast⟩ := hl i List.mem_cons_self
    rw [List.foldl_cons, cvuFed_next hb hs hd hmode hf hlast, ih _ fun j hj => hl j (List.mem_cons_of_mem _ hj),
      List.map_cons, List.flatten_cons, List.append_assoc]

/-- What the final value gives: it is stored and counted, and compared under COMPARE (R526, R528). -/
theorem cvuDone_counts {x : Cvu} (hmode : x.mode = 1 ∨ x.mode = 2) :
    let y := (cvuDone x).1
    y.result = cvuValue x ∧ y.packets = satAdd x.packets 1 ∧ y.isOpen = false ∧
      y.mismatches = (if x.mode = 1 ∧ x.expect.toNat % 2 ^ (cvuCrc x).width ≠ (cvuValue x).toNat
        then satAdd x.mismatches 1 else x.mismatches) := by
  intro y
  rcases hmode with h | h
  · have hcmp : y = cvuCompare (cvuFinal x) := by
      simp only [y, cvuDone]
      rw [if_pos (by simp [cvuFinal, h])]
    rw [hcmp, cvuCompare]
    by_cases he : (cvuFinal x).expect.toNat % 2 ^ (cvuCrc (cvuFinal x)).width = (cvuFinal x).result.toNat
    · rw [if_pos he, if_neg (fun hne => hne.2 he)]
      exact ⟨rfl, rfl, rfl, rfl⟩
    · rw [if_neg he, if_pos ⟨h, he⟩]
      exact ⟨rfl, rfl, rfl, rfl⟩
  · have hfin : y = cvuFinal x := by
      simp only [y, cvuDone]
      rw [if_neg (by simp [cvuFinal, h])]
    rw [hfin, if_neg (fun hm => absurd (h ▸ hm.1) (by decide))]
    exact ⟨rfl, rfl, rfl, rfl⟩

theorem cvuFed_last {x : Cvu} {b : List Byte} {it : Item} (hb : x.boundary = 0) (hs : x.skip = 0)
    (hd : x.dropping = false) (hmode : x.mode = 1 ∨ x.mode = 2) (hf : it.getLsbD 51 = false) (hl : itLast it = true) :
    (cvuStep (cvuFed x b) it).1 = (cvuDone (cvuFed x (b ++ cvuBytes x it))).1 := by
  have hm : isMarker it = false := by rw [isMarker, hf]; rfl
  rw [cvuStep_item (x := cvuFed x b) hm hb, cvuPacket_fed (x := cvuFed x b) hmode hd (.inl rfl), hf, hl,
    if_neg Bool.false_ne_true]
  dsimp only
  rw [if_pos rfl, cvuFeed_all (x := cvuFed x b) it hs, cvuFed, cvuFed, List.foldl_append]
  rfl

/-- The check value of a packet is that of all its bytes. -/
theorem packet_value {x : Cvu} {a z : Item} {l : List Item} (hb : x.boundary = 0) (hs : x.skip = 0)
    (hd : x.dropping = false) (hmode : x.mode = 1 ∨ x.mode = 2) (haf : a.getLsbD 51 = true) (hal : itLast a = false)
    (hl : ∀ i ∈ l, i.getLsbD 51 = false ∧ itLast i = false) (hzf : z.getLsbD 51 = false) (hzl : itLast z = true) :
    (a :: l ++ [z]).foldl (fun y i => (cvuStep y i).1) x =
      (cvuDone (cvuFed x (((a :: l ++ [z]).map (cvuBytes x)).flatten))).1 := by
  rw [List.cons_append, List.foldl_cons, List.foldl_append, cvuFed_first hb hs hd hmode haf hal, cvuFed_middle hb hs hd hmode l _ hl,
    List.foldl_cons, List.foldl_nil, cvuFed_last hb hs hd hmode hzf hzl]
  simp

theorem unfit_recorded (p : Fin 64) (e : Ev) (h : Fin 32) (d : Word) (s : State) :
    setUnfit p (record e h d s) =
      faultHolding s.plots[p].owner .plotUnfit (modPlot p (fun x => { x with unfit := true }) (record e h d s)) := by
  unfold setUnfit
  simp

/-- Settles O41: a unit's computation is that of the bytes its packet has fed so far. -/
theorem checkUnitsAndTransfersWork : Obligations.CheckUnitsAndTransfersWork := by
  unfold Obligations.CheckUnitsAndTransfersWork
  refine ⟨fun s u => ?_, ?_, fun s => ⟨fun p a v hgood hwf => ?_, fun p a v hbad => ?_, fun c => ?_⟩⟩
  · intro x
    refine ⟨fun rq se hg hc => ⟨?_, cvuStarted_fresh x⟩, fun rq se hg hc => ?_, fun rq se hg hopen => ?_,
      fun q it hrun hsn hoff hout hmiss => congrArg Host.Outcome.next (cvuItem_takes hrun hsn hoff hout hmiss),
      fun hrun hopen => ?_⟩
    · exact congrArg Host.Outcome.next (invokeReq_answered hg hc rfl)
    · exact congrArg Host.Outcome.next (invokeReq_refused hg hc)
    · exact congrArg Host.Outcome.next (invokeReq_answered hg rfl (Prod.ext (cvuStop_idle (s := executing rq se s) hopen) rfl))
    · refine congrArg Host.Outcome.next ((if_neg (by rw [hrun]; decide)).trans ?_)
      rw [nothingOpen hopen]
      rfl
  · intro x a l z hb hs hd hmode its haf hal hl hzf hzl y v
    have hy : y = _ := packet_value hb hs hd hmode haf hal hl hzf hzl
    rw [hy]
    exact cvuDone_counts hmode
  · exact ⟨_, congrArg Host.Outcome.next (if_pos hgood), memSet_wf _ _ hwf, memGet_memSet_same hwf _ _,
      fun k hk => memGet_memSet_other hwf _ hk⟩
  · exact congrArg Host.Outcome.next (if_neg (by rw [hbad]; exact Bool.false_ne_true))
  · intro t
    exact ⟨rfl, fun p => congrArg Host.Outcome.next (unfit_recorded p _ _ _ t)⟩

end Sys2Proof.Machine

namespace Sys2Proof.Machine
open Sys2Proof.Safety

/-! SSP1 as master and as a CHAIN stage (R563 to R571, R600, R604). -/

@[simp] theorem modSsp_modSsp (f g : Ssp → Ssp) (s : State) : modSsp g (modSsp f s) = modSsp (g ∘ f) s := rfl

theorem xferEnd_answered {s : State} {rq : Req} (h : s.ssp.xferRq = some rq) (n : Nat) (rx : List Byte) (st : Byte) :
    xferEnd n rx st s = answered rq st s.bell.number
      (modSsp (fun x => { x with xferBusy := false, xferRq := none, xferRx := firstBits n rx }) s) := by
  unfold xferEnd
  rw [h]
  rfl

theorem timedOut_answered {s : State} {rq : Req} (h : s.ssp.xferRq = some rq) (n : Nat) (rx : List Byte) :
    let t := record evSspRdyTimeout 0 1 (modSsp (fun x => { x with errors := satAdd x.errors 1 }) s)
    xferEnd (min n (xferLength t)) rx stSspTimeout t = answered rq stSspTimeout s.bell.number (modSsp (fun x => { x with
      xferBusy := false, xferRq := none, xferRx := firstBits (min n (xferLength s)) rx })
      (record evSspRdyTimeout 0 1 (modSsp (fun x => { x with errors := satAdd x.errors 1 }) s))) := by
  intro t
  have hssp : t.ssp = { s.ssp with errors := satAdd s.ssp.errors 1 } := by simp [t]
  have hbell : t.bell = s.bell := by simp [t]
  have hlen : xferLength t = xferLength s := by rw [xferLength, hssp]; rfl
  rw [xferEnd_answered (rq := rq) (by rw [hssp]; exact h), hlen, hbell]

/-- Outside a village a released stage has sent what it held and keeps what came in (R570). -/
theorem chainRelease_eq {s : State} {di : List Bool} (hc : isChainSlave s = true) (hst : isStage s = false)
    (hsel : s.ssp.selected = true) (hlen : s.ssp.stage.length = di.length) :
    exec (.chainRelease di) s = .next (
      let t := emit (.sspSend true (bytesOf s.ssp.stage)) s
      if s.ssp.chainBits.toNat ≤ di.length then modSsp (fun x => { x with
        selected := false, stage := di, chainLatches := satAdd x.chainLatches 1, chainRx := bytesOf di }) t
      else modSsp (fun x => { x with selected := false, stage := di, errors := satAdd x.errors 1 }) t) := by
  have htake : (s.ssp.stage ++ di).take di.length = s.ssp.stage := by rw [← hlen, List.take_left]
  have hdrop : (s.ssp.stage ++ di).drop di.length = di := by rw [← hlen, List.drop_left]
  refine congrArg Host.Outcome.next ((if_neg (by rw [hc, hsel]; decide)).trans ?_)
  dsimp only
  rw [htake, hdrop]
  by_cases hfull : chainB s ≤ di.length
  · have hfull' : s.ssp.chainBits.toNat ≤ di.length := hfull
    have hfull'' : chainB (emit (.sspSend true (bytesOf s.ssp.stage)) s) ≤ di.length := hfull
    rw [if_pos hfull', decide_eq_true hfull'']
    refine (if_neg ?_).trans (if_pos rfl)
    exact fun h => Bool.false_ne_true (hst.symm.trans h)
  · have hfull' : ¬s.ssp.chainBits.toNat ≤ di.length := hfull
    have hfull'' : ¬chainB (emit (.sspSend true (bytesOf s.ssp.stage)) s) ≤ di.length := hfull
    rw [if_neg hfull', decide_eq_false hfull'']
    refine (if_neg ?_).trans (if_neg Bool.false_ne_true)
    exact fun h => Bool.false_ne_true (hst.symm.trans h)

/-! SSP1 as a CMD slave (R572 to R584, R607). -/

theorem sspSubmit_good {s : State} {n : Nat} (h0 : n ≠ 0) (hn : n ≤ 2048) :
    sspSubmit n s = if (s.ssp.reqBusy || s.ssp.respReady || bootHalted s) = true then
        modSsp (fun x => { x with refused := true }) s
      else modSsp (fun x => { x with reqBusy := true, requests := x.requests ++ [padTo n x.request] }) s := by
  have hgood : (decide (n = 0) || decide (2048 < n)) = false := by simp [h0, Nat.not_lt.mpr hn]
  unfold sspSubmit
  dsimp only
  rw [hgood, Bool.or_false]
  cases s.ssp.reqBusy || s.ssp.respReady || bootHalted s
  · rfl
  · simp

theorem sspSubmit_bad {s : State} {n : Nat} (h : n = 0 ∨ 2048 < n) :
    (sspSubmit n s).ssp.badLength = true ∧ (sspSubmit n s).ssp.reqBusy = s.ssp.reqBusy ∧
      (sspSubmit n s).ssp.requests = s.ssp.requests := by
  have hbad : (decide (n = 0) || decide (2048 < n)) = true := by simpa using h
  unfold sspSubmit
  dsimp only
  rw [hbad, Bool.or_true, if_pos rfl]
  simp

theorem bytesAt_get {b : List Byte} {k n i : Nat} (h : i < n) : (bytesAt b k n)[i]? = some ((b[k + i]?).getD 0) := by
  simp [bytesAt, h]

theorem bytesPut_one {r : List Byte} {a : Nat} (b : Byte) (ha : a < r.length) : bytesPut r a [b] = r.set a b := by
  rw [bytesPut, Nat.sub_eq_zero_of_le ha.le, List.set_eq_take_append_cons_drop, if_pos ha]
  simp

theorem padTo_self {r : List Byte} {n : Nat} (h : r.length = n) : padTo n r = r := by
  refine List.ext_getElem? fun k => ?_
  by_cases hk : k < n
  · rw [padTo, bytesAt_get hk, Nat.zero_add, List.getElem?_eq_getElem (h ▸ hk), Option.getD_some]
  · rw [List.getElem?_eq_none (by simpa [padTo] using hk), List.getElem?_eq_none (by omega)]

/-- The request buffer after the bytes l from address a on. -/
def putRequest (a : Nat) : List Byte → List Byte → List Byte
  | [], r => r
  | b :: l, r => putRequest (a + 1) l (bytesPut (padTo 2048 r) a [b])

theorem putRequest_get {a : Nat} (l r : List Byte) (ha : a + l.length ≤ 2048) (hr : l = [] → r.length = 2048) :
    (putRequest a l r).length = 2048 ∧ ∀ k, (putRequest a l r)[k]? =
      if a ≤ k ∧ k < a + l.length then l[k - a]? else (padTo 2048 r)[k]? := by
  induction l generalizing a r with
  | nil =>
    refine ⟨hr rfl, fun k => ?_⟩
    rw [if_neg (by simp), padTo_self (hr rfl)]
    rfl
  | cons b l ih =>
    rw [List.length_cons] at ha
    have hlen : (padTo 2048 r).length = 2048 := bytesAt_length _ _ _
    have hput : bytesPut (padTo 2048 r) a [b] = (padTo 2048 r).set a b := bytesPut_one b (by omega)
    have hset : ((padTo 2048 r).set a b).length = 2048 := by rw [List.length_set, hlen]
    obtain ⟨hall, hget⟩ := ih (a := a + 1) ((padTo 2048 r).set a b) (by omega) fun _ => hset
    rw [putRequest, hput]
    refine ⟨hall, fun k => ?_⟩
    rw [hget, padTo_self hset, List.getElem?_set, List.length_cons]
    rcases lt_trichotomy k a with hk | rfl | hk
    · rw [if_neg (by omega), if_neg (by omega), if_neg (by omega)]
    · rw [if_neg (by omega), if_pos rfl, if_pos (by omega), if_pos (by omega), Nat.sub_self]
      rfl
    · obtain ⟨d, rfl⟩ : ∃ d, k = a + 1 + d := ⟨k - (a + 1), by omega⟩
      have hidx : (b :: l)[a + 1 + d - a]? = l[a + 1 + d - (a + 1)]? := by
        rw [show a + 1 + d - a = d + 1 by omega, List.getElem?_cons_succ, show a + 1 + d - (a + 1) = d by omega]
      rw [hidx, if_neg (show ¬a = a + 1 + d by omega)]
      exact if_congr (by omega) rfl rfl

theorem requestWrites_eq {a : Nat} (l : List Byte) (n : Nat) (s : State) (ha : a + n + l.length ≤ 2048) :
    eachOf (l.zipIdx n) (fun x t => blockWrite 1 ((a + x.2) % 2048) x.1 t) s =
      modSsp (fun x => { x with request := putRequest (a + n) l x.request }) s := by
  induction l generalizing n s with
  | nil => rfl
  | cons b l ih =>
    rw [List.length_cons] at ha
    rw [List.zipIdx_cons, eachOf_cons, ih _ _ (by omega)]
    dsimp only
    rw [Nat.mod_eq_of_lt (by omega : a + n < 2048)]
    rfl

theorem submitHi_clear {s : State} (h : s.ssp.submitHi = none) : modSsp (fun x => { x with submitHi := none }) s = s := by
  have hssp : { s.ssp with submitHi := none } = s.ssp := by rw [← h]
  exact congrArg (fun x => { s with ssp := x }) hssp

theorem sspSubmit_submitHi (n : Nat) (s : State) : (sspSubmit n s).ssp.submitHi = s.ssp.submitHi := by
  unfold sspSubmit
  dsimp only
  split <;> rfl

/-- The two bytes of SUBMIT, most significant first, submit once (R579). -/
theorem submitted_twoBytes {s : State} (hi lo : Byte) (h : s.ssp.submitHi = none) :
    (let t := modSsp (fun x => { x with submitHi := none }) s
    let t := eachOf [hi, lo].zipIdx (fun x t => blockWrite 0 ((0x10 + x.2) % 64) x.1 t) t
    modSsp (fun x => { x with submitHi := none }) t) = sspSubmit (hi ++ lo).toNat s := by
  have hlen : (hi ++ lo).toNat = hi.toNat * 256 + lo.toNat := by
    rw [BitVec.toNat_append, ← Nat.shiftLeft_add_eq_or_of_lt lo.isLt, Nat.shiftLeft_eq]
  have htwo : ∀ t : State, eachOf [hi, lo].zipIdx (fun x t => blockWrite 0 ((0x10 + x.2) % 64) x.1 t) t =
      sspSubmit (hi.toNat * 256 + lo.toNat) (modSsp (fun x => { x with submitHi := none }) t) := fun _ => rfl
  dsimp only
  rw [htwo, submitHi_clear h, submitHi_clear h, submitHi_clear ((sspSubmit_submitHi _ _).trans h), hlen]

/-- Settles O42: SSP1's transfers, its shifts and the bytes of its blocks, each by the function that serves it. -/
theorem sspServesMasterAndSlave : Obligations.SspServesMasterAndSlave := by
  unfold Obligations.SspServesMasterAndSlave
  refine ⟨fun s => ⟨fun rq se hg hslave hbusy hchain => ?_, fun rq rx hbusy hrq => ⟨?_, fun hchain n => ?_⟩, fun n rx => rfl,
    fun hc hst => ⟨fun hsel => ?_, fun di hsel hlen => chainRelease_eq hc hst hsel hlen⟩⟩,
    fun s hcmd => ⟨fun b a n hb => ?_, fun a l hl ha => ?_, fun hi lo hnone => ?_, fun n hn0 hn => ⟨fun h1 h2 h3 => ?_, fun h => ?_⟩,
      fun n hn => ?_, congrArg Host.Outcome.next (if_pos hcmd), congrArg Host.Outcome.next (if_pos hcmd),
      congrArg Host.Outcome.next (if_pos hcmd)⟩⟩
  · refine congrArg Host.Outcome.next (invokeReq_later hg (if_neg ?_) rfl)
    change ¬(s.ssp.slave || s.ssp.xferBusy || chainOwned s) = true
    rw [hslave, hbusy, hchain]
    decide
  · exact congrArg Host.Outcome.next ((if_pos (by rw [hbusy]; rfl)).trans (xferEnd_answered hrq _ _ _))
  · exact congrArg Host.Outcome.next ((if_pos rfl).trans
      ((if_neg (by rw [hbusy, hchain]; decide)).trans (timedOut_answered hrq n rx)))
  · exact congrArg Host.Outcome.next ((if_neg (by rw [hc, hsel]; decide)).trans (if_neg (by rw [hst]; exact Bool.false_ne_true)))
  · intro size
    have hsize : blockSize b.toNat = size := if_congr (by rw [← BitVec.toNat_inj]; rfl) rfl rfl
    refine ⟨(List.range n).map fun i => ((sspBlock s b.toNat)[(a.toNat + i) % blockSize b.toNat]?).getD 0,
      congrArg Host.Outcome.next ((if_neg (by rw [hcmd]; decide)).trans (if_neg ?_)), by simp, fun i hi => ?_⟩
    · rw [reservedBlock, decide_eq_false (by omega)]
      exact Bool.false_ne_true
    · simp [hi, hsize]
  · obtain ⟨hlen, hget⟩ := putRequest_get (a := a.toNat) l s.ssp.request ha fun h => absurd h hl
    refine ⟨_, congrArg Host.Outcome.next ((if_neg (by rw [hcmd]; decide)).trans ?_), fun k _ => hget k⟩
    dsimp only
    have hwrite := requestWrites_eq (a := a.toNat) l 0 (modSsp (fun x => { x with submitHi := none }) s) ha
    refine (if_neg Bool.false_ne_true).trans ((if_neg (by decide)).trans ?_)
    exact congrArg (modSsp fun x => { x with submitHi := none }) hwrite
  · refine congrArg Host.Outcome.next ((if_neg (by rw [hcmd]; decide)).trans (Eq.trans ?_ (if_pos hcmd).symm))
    exact submitted_twoBytes hi lo hnone
  · have hn1 : n.toNat ≠ 0 := fun h => hn0 (BitVec.eq_of_toNat_eq h)
    exact congrArg Host.Outcome.next ((if_pos hcmd).trans ((sspSubmit_good hn1 hn).trans
      (if_neg (by rw [h1, h2, h3]; decide))))
  · have hn1 : n.toNat ≠ 0 := fun h => hn0 (BitVec.eq_of_toNat_eq h)
    exact congrArg Host.Outcome.next ((if_pos hcmd).trans ((sspSubmit_good hn1 hn).trans (if_pos (by
      simpa [or_assoc] using h))))
  · exact ⟨_, congrArg Host.Outcome.next (if_pos hcmd), sspSubmit_bad (hn.imp_left (by rintro rfl; rfl))⟩

end Sys2Proof.Machine

namespace Sys2Proof.Machine
open Sys2Proof.Safety

/-! The flash (R587 to R593, R598, R605, R703). -/

theorem ops_kept {s : State} {f : Ssp → Ssp} (hf : f s.ssp = s.ssp) : modSsp f s = s :=
  congrArg (fun x => { s with ssp := x }) hf

/-- An idle flash runs the operation at once. -/
theorem flashPush_idle {s : State} (o : FlashOp) (hop : s.ssp.op = none) (hops : s.ssp.ops = [])
    (hbusy : s.ssp.writeBusy = false) : flashPush o s = flashRun [o] (modSsp (fun x => { x with ops := [o] }) s) := by
  have hpush : modSsp (fun x => { x with ops := x.ops ++ [o] }) s = modSsp (fun x => { x with ops := [o] }) s :=
    congrArg (fun l => { s with ssp := { s.ssp with ops := l } }) (congrArg (· ++ [o]) hops)
  unfold flashPush flashStart
  rw [hpush]
  refine (if_neg ?_).trans (if_neg ?_)
  · rw [modSsp_ssp]
    simp [hop]
  · rw [modSsp_ssp]
    simp [hbusy]

theorem flashPush_read {s : State} (a : Nat) (hop : s.ssp.op = none) (hops : s.ssp.ops = [])
    (hbusy : s.ssp.writeBusy = false) : flashPush (.read a) s = emit (.flashCmd (flashOpCmd (.read a))) s := by
  rw [flashPush_idle _ hop hops hbusy]
  change emit _ (modSsp (fun x => { x with ops := [] }) s) = _
  rw [ops_kept (by rw [← hops])]

/-- A write or erase begins with WREN. -/
theorem flashPush_changes {s : State} {o : FlashOp} (ho : isRead o = false) (hop : s.ssp.op = none)
    (hops : s.ssp.ops = []) (hbusy : s.ssp.writeBusy = false) : flashPush o s =
      emit (.flashCmd (flashOpCmd o)) (emit (.flashCmd [0x06]) (modSsp (fun x => { x with op := some o }) s)) := by
  have hrun : flashRun [o] (modSsp (fun x => { x with ops := [o] }) s) = emit (.flashCmd (flashOpCmd o))
      (emit (.flashCmd [0x06]) (modSsp (fun x => { x with op := some o, ops := [] }) s)) := by
    cases o with
    | read a => cases ho
    | program a b k => rfl
    | erase a n => rfl
  rw [flashPush_idle _ hop hops hbusy, hrun]
  exact congrArg (fun l => emit (.flashCmd (flashOpCmd o))
    (emit (.flashCmd [0x06]) { s with ssp := { s.ssp with op := some o, ops := l } })) hops.symm

theorem flashPush_waits {s : State} {o : FlashOp} (o' : FlashOp) (hop : s.ssp.op = some o) :
    flashPush o' s = modSsp (fun x => { x with ops := x.ops ++ [o'] }) s :=
  if_pos (by rw [modSsp_ssp]; exact Option.isSome_iff_exists.mpr ⟨o, hop⟩)

/-- With nothing waiting at the flash or the Store, an ended window operation starts nothing. -/
theorem nothingFollows {s : State} (hw : s.store.waits = []) (hop : s.ssp.op = none) (hops : s.ssp.ops = []) :
    flashStart (wakeStore s) = s := by
  have hwake : wakeStore s = s := by
    unfold wakeStore
    rw [hw]
    have hstore : { s.store with waits := [] } = s.store := by rw [← hw]
    exact congrArg (fun x => { s with store := x }) hstore
  rw [hwake, flashStart, hop, hops, if_neg (by simp)]
  have hnone : modSsp (fun x => { x with ops := [] }) s = s := ops_kept (by rw [← hops])
  split
  · refine Eq.trans (congrArg (fun l => { s with ssp := { s.ssp with ops := l.filter fun o => !isRead o } }) hops) hnone
  · exact hnone

/-- A failed window operation is recorded and counted, and ends. -/
theorem failOp_window {s : State} {o : FlashOp} (e : Ev) (ho : ∀ t, flashFailed o t = t) (hw : s.store.waits = [])
    (hops : s.ssp.ops = []) : failOp o e s =
      modSsp (fun x => { x with flashErrors := satAdd x.flashErrors 1, op := none })
        (record e 0 (datTop 0 (flashOpAddr o)) s) := by
  unfold failOp
  dsimp only
  rw [ho]
  exact nothingFollows (by simpa using hw) rfl (by simpa using hops)

theorem guarded_passes {s : State} {a n : Nat} (o : FlashOp) (h : flashProtected s a n = false) :
    guarded a n o s = flashPush o s := if_neg (by rw [h]; exact Bool.false_ne_true)

theorem pageLen_whole {a : Nat} {l : List Byte} (h : l.length ≤ 256 - a % 256) : pageLen a l = l.length := min_eq_left h

/-- A status byte that shows the flash idle ends the operation. -/
theorem statusPoll_program {s : State} {o : FlashOp} {m : List Byte} (hop : s.ssp.op = some o) :
    exec (.flashStatusPoll 0 m) s = .next (opEnded o false m (emit (.flashCmd [0x05]) s)) := by
  unfold exec execFlashStatusPoll
  rw [hop]
  rfl

/-- A page that does not read back as programmed is an error. -/
theorem verify_fails {s : State} {a : Nat} {l m : List Byte} (hlen : l.length ≤ 256 - a % 256) (hm : m.length = l.length)
    (hne : m ≠ l) (hw : s.store.waits = []) (hops : s.ssp.ops = []) :
    let t := emit (.flashCmd ([if a < 0x1000000 then 0x03 else 0x13] ++ flashAddr a)) s
    opEnded (.program a l .window) false m s = modSsp (fun x => { x with flashErrors := satAdd x.flashErrors 1, op := none })
      (record evFlashVerify 0 (datTop 0 a) (modSsp (fun x => { x with flash := flashSet x.flash a m }) t)) := by
  intro t
  unfold opEnded
  rw [if_neg (by decide)]
  dsimp only
  rw [pageLen_whole hlen, padTo_self hm, if_neg (by rwa [List.take_length])]
  exact failOp_window evFlashVerify (fun _ => rfl) hw hops

/-- Settles O43: what an operation of the window does when nothing else waits at the flash. -/
theorem flashOperationsRunInOrder : Obligations.FlashOperationsRunInOrder := by
  unfold Obligations.FlashOperationsRunInOrder
  refine fun s => ⟨fun hop hops hbusy a => ⟨?_, fun l hl hfree => ?_, fun big => ?_⟩, fun o hop => ⟨fun a => ?_, fun st l hst => ?_⟩,
    fun a l hop hops hw hbusy => ⟨fun hlen => ⟨?_, fun m hm hne => ?_⟩, ?_⟩⟩
  · exact congrArg Host.Outcome.next (flashPush_read _ hop hops hbusy)
  · refine congrArg Host.Outcome.next ((if_neg (by simpa using hl)).trans ?_)
    rw [guarded_passes _ hfree]
    exact flashPush_changes rfl hop hops hbusy
  · intro n
    refine ⟨fun hmis => congrArg Host.Outcome.next (if_neg hmis), fun hal hprot => ?_, fun hal hfree => ?_⟩
    · exact congrArg Host.Outcome.next ((if_pos hal).trans (if_pos hprot))
    · refine congrArg Host.Outcome.next ((if_pos hal).trans ((guarded_passes _ hfree).trans ?_))
      exact flashPush_changes rfl hop hops hbusy
  · exact congrArg Host.Outcome.next (flashPush_waits _ hop)
  · unfold exec execFlashStatusPoll
    rw [hop]
    exact congrArg Host.Outcome.next (if_pos hst)
  · rw [statusPoll_program hop]
    have hlen' := pageLen_whole hlen
    unfold opEnded
    rw [if_neg (by decide)]
    dsimp only
    rw [hlen', padTo_self rfl, if_pos (List.take_length).symm]
    unfold pageDone
    dsimp only
    rw [hlen', if_neg (lt_irrefl _), List.take_length]
    exact congrArg Host.Outcome.next (nothingFollows hw rfl hops)
  · have hfail := verify_fails (s := emit (.flashCmd [0x05]) s) hlen hm hne hw hops
    exact ⟨_, (statusPoll_program hop).trans (congrArg Host.Outcome.next hfail), rfl, by simp, by simp⟩
  · have htime : exec .flashTimeout s = .next (failOp (.program a l .window) evFlashTimeout
        (modSsp (fun x => { x with writeBusy := true, flashReady := false }) s)) := by
      unfold exec execFlashTimeout
      rw [hop]
    rw [failOp_window evFlashTimeout (fun _ => rfl) (by exact hw) (by exact hops)] at htime
    exact ⟨_, htime, by simp, by simp, rfl, by simp, by simp⟩

end Sys2Proof.Machine

namespace Sys2Proof.Machine
open Sys2Proof.Safety

/-! The field network (R615 to R625, R655, R659, R661). -/

theorem transmitOne_oldest {s : State} {o : Out} {l : List Out} (hq : s.fnet.txq = o :: l) (ho : frameReady s o = true) :
    transmitOne s = emit o { s with fnet := { s.fnet with txq := l } } := by
  have hany : (s.fnet.txq.any (frameReady s) || !s.fnet.addrValid) = true := by
    rw [hq, List.any_cons, ho, Bool.true_or, Bool.true_or]
  have hfind : s.fnet.txq.find? (frameReady s) = some o := by rw [hq, List.find?_cons_of_pos ho]
  unfold transmitOne
  rw [if_pos hany]
  dsimp only
  rw [hfind]
  dsimp only
  rw [hq, List.erase_cons_head]

/-- A neighbour heard takes the newest place; a list that is full loses the one heard longest ago. -/
theorem hearNeighbour_newest {s : State} (src : BitVec 64) (b : List Byte) (h : s.fnet.neighbours.length ≤ 64) :
    ∃ l, l.length ≤ 63 ∧ (∀ n ∈ l, n ∈ s.fnet.neighbours ∧ n.iid ≠ src) ∧
      hearNeighbour src b s = { s with fnet := { s.fnet with neighbours := l ++ [⟨src, b⟩] } } := by
  have hdef : hearNeighbour src b s = { s with fnet := { s.fnet with
      neighbours := (if 64 ≤ (s.fnet.neighbours.filter fun n => n.iid != src).length
        then (s.fnet.neighbours.filter fun n => n.iid != src).drop 1
        else s.fnet.neighbours.filter fun n => n.iid != src) ++ [⟨src, b⟩] } } := rfl
  generalize ho : s.fnet.neighbours.filter (fun n => n.iid != src) = others at hdef
  have hlen : others.length ≤ 64 := ho ▸ (List.length_filter_le _ _).trans h
  have hmem : ∀ n ∈ others, n ∈ s.fnet.neighbours ∧ n.iid ≠ src := fun n hn => by
    obtain ⟨hn, hne⟩ := List.mem_filter.mp (ho ▸ hn)
    exact ⟨hn, by simpa using hne⟩
  by_cases hfull : 64 ≤ others.length
  · refine ⟨others.drop 1, by rw [List.length_drop]; omega, fun n hn => hmem n (List.mem_of_mem_drop hn), ?_⟩
    rw [hdef, if_pos hfull]
  · refine ⟨others, by omega, hmem, ?_⟩
    rw [hdef, if_neg hfull]

/-- Settles O44: each command of the field network by its own conditions. -/
theorem fieldNetworkKeepsItsSegment : Obligations.FieldNetworkKeepsItsSegment := by
  unfold Obligations.FieldNetworkKeepsItsSegment
  refine ⟨fun s hrun => ⟨fun hid => ⟨fun own => ?_, fun hok => ?_, fun hok => ?_⟩, fun hid => ⟨?_, fun hen => ?_⟩,
      fun o l hmay hburst hq ho => ?_⟩,
    fun s => ⟨fun hdad => ⟨?_, ?_⟩, fun hvalid src => ⟨?_, fun b => ?_, fun a ha => ?_⟩, fun hann hseed => ?_,
      fun src b hrun hlen hsol hn => ?_, fun src => ⟨_, rfl, fun n => ?_⟩⟩⟩
  · have hco : coordinator s = false := by simpa [coordinator] using hid
    exact congrArg Host.Outcome.next ((if_neg (by rw [hrun]; decide)).trans (if_pos (by rw [hco]; rfl)))
  · have hco : coordinator s = false := by simpa [coordinator] using hid
    exact congrArg Host.Outcome.next (if_neg (by rw [hrun, hco, hok]; decide))
  · have hco : coordinator s = false := by simpa [coordinator] using hid
    exact congrArg Host.Outcome.next (if_neg (by rw [mayTransmit, hco, hok, Bool.or_false, Bool.and_false]; decide))
  · have hco : coordinator s = true := by simpa [coordinator] using hid
    exact congrArg Host.Outcome.next ((if_neg (by rw [hrun]; decide)).trans ((if_neg (by rw [hco]; decide)).trans rfl))
  · have hco : coordinator s = true := by simpa [coordinator] using hid
    exact congrArg Host.Outcome.next (if_neg (by rw [hrun, hco, hen]; decide))
  · refine congrArg Host.Outcome.next ((if_pos hmay).trans ?_)
    rw [hburst]
    exact transmitOne_oldest hq ho
  · exact congrArg Host.Outcome.next (if_neg (by rw [hdad]; decide))
  · exact congrArg Host.Outcome.next (if_neg (by rw [hdad]; decide))
  · exact congrArg Host.Outcome.next (if_pos (by rw [hvalid, beq_self_eq_true]; rfl))
  · exact congrArg Host.Outcome.next (if_pos hvalid)
  · exact congrArg Host.Outcome.next (if_neg (by simp [ha]))
  · refine congrArg Host.Outcome.next ((if_neg (by rw [hann]; decide)).trans ?_)
    rw [hseed]
    rfl
  · obtain ⟨l, hl, hmem, heq⟩ := hearNeighbour_newest src b hn
    refine ⟨l, hl, hmem, congrArg Host.Outcome.next ((if_neg (by rw [hrun]; decide)).trans
      ((if_neg (by rw [hlen]; decide)).trans ((if_neg (by rw [hsol]; exact Bool.false_ne_true)).trans heq)))⟩
  · rw [List.mem_filter, bne_iff_ne]

end Sys2Proof.Machine

namespace Sys2Proof.Machine
open Sys2Proof.Safety

/-! Messages on the paths of sessions (R427, R581, R642 to R646, R657): what they can change. -/

/-- From s to t only sessions, paths, what a path shows the host and the Ledger change. -/
def OnlyPaths (s t : State) : Prop :=
  t = { s with fnet := t.fnet, host := t.host, ssp := t.ssp, fns := t.fns, ledger := t.ledger, out := t.out }

theorem OnlyPaths.trans {s t u : State} (h : OnlyPaths s t) (k : OnlyPaths t u) : OnlyPaths s u := by
  unfold OnlyPaths at h k ⊢
  exact k.trans (congrArg (fun x : State =>
    { x with fnet := u.fnet, host := u.host, ssp := u.ssp, fns := u.fns, ledger := u.ledger, out := u.out }) h)

theorem OnlyPaths.refl (s : State) : OnlyPaths s s := rfl

/-- A change of the Ledger alone is one. -/
theorem OnlyPaths.of_ledger {s t : State} (h : t = modLedger (fun _ => t.ledger) s) : OnlyPaths s t := by
  generalize t.ledger = l at h
  subst h
  rfl

theorem record_paths (e : Ev) (h : Fin 32) (d : Word) (s : State) : OnlyPaths s (record e h d s) :=
  .of_ledger (record_eq e h d s)

theorem limited_paths (e : Ev) (subj n : Nat) (s : State) : OnlyPaths s (limited e subj n s) :=
  .of_ledger (limited_onlyLedger e subj n s).eq

theorem raiseVec_paths (f : Fin 33) (v : Nat) (s : State) : OnlyPaths s (raiseVec f v s) := by
  unfold raiseVec; dsimp only; split
  · rfl
  · split <;> rfl

theorem pf0Respond_paths (k : Fin 8) (msg : List Byte) (len : Nat) (s : State) : OnlyPaths s (pf0Respond k msg len s) := by
  unfold pf0Respond; split
  · rfl
  · exact .trans (by rfl) (raiseVec_paths 0 0 _)

theorem ssp1Respond_paths (msg : List Byte) (len : Nat) (s : State) : OnlyPaths s (ssp1Respond msg len s) := by
  unfold ssp1Respond; split <;> rfl

theorem noResponse_paths (p : Path) (s : State) : OnlyPaths s (noResponse p s) := by
  cases p with
  | fnet _ => rfl
  | pf0 k => exact pf0Respond_paths k _ _ s
  | ssp1 => exact ssp1Respond_paths _ _ s

theorem sendResponse_paths (p : Path) (sess ctr : BitVec 32) (inner : List Byte) (s : State) :
    OnlyPaths s (sendResponse p sess ctr inner s) := by
  cases p with
  | fnet _ => rfl
  | pf0 k => exact (pf0Respond_paths k _ _ s).trans rfl
  | ssp1 => exact (ssp1Respond_paths _ _ s).trans rfl

theorem pf0Notice_paths (msg : List Byte) (len : Nat) (s : State) : OnlyPaths s (pf0Notice msg len s) := by
  unfold pf0Notice; dsimp only; split
  · exact .trans (by rfl) (limited_paths _ _ _ _)
  · exact .trans (by rfl) (raiseVec_paths 0 1 _)

theorem ssp1Notice_paths (msg : List Byte) (s : State) : OnlyPaths s (ssp1Notice msg s) := by
  unfold ssp1Notice; split <;> rfl

theorem sendNotice_paths (p : Path) (sess ctr : BitVec 32) (inner : List Byte) (s : State) :
    OnlyPaths s (sendNotice p sess ctr inner s) := by
  cases p with
  | fnet _ => rfl
  | pf0 k => exact (pf0Notice_paths _ _ s).trans rfl
  | ssp1 => exact (ssp1Notice_paths _ s).trans rfl

theorem answerPlain_paths (p : Path) (kind : Byte) (sess : BitVec 32) (body : List Byte) (s : State) :
    OnlyPaths s (answerPlain p kind sess body s) := by
  cases p with
  | fnet _ => rfl
  | pf0 k => exact (pf0Respond_paths k _ _ s).trans rfl
  | ssp1 => exact (ssp1Respond_paths _ _ s).trans rfl

theorem closeSession_paths (se : Session) (reason : Byte) (s : State) : OnlyPaths s (closeSession se reason s) := by
  unfold closeSession; dsimp only
  split
  · exact .trans (by rfl) (record_paths _ _ _ _)
  · exact (OnlyPaths.trans (by rfl) (record_paths _ _ _ _)).trans (sendNotice_paths _ _ _ _ _)

theorem modSession_paths (id : BitVec 32) (f : Session → Session) (s : State) : OnlyPaths s (modSession id f s) := rfl

theorem respond_paths (rq : Req) (op st ty : Byte) (b : BellNo) (body : List Byte) (s : State) :
    OnlyPaths s (respond rq op st ty b body s) := by
  unfold respond; dsimp only
  split
  · exact noResponse_paths _ _
  · split
    · exact (noResponse_paths _ _).trans (closeSession_paths _ _ _)
    · have hsent := fun id f p sess ctr inner =>
        (modSession_paths id f s).trans (sendResponse_paths p sess ctr inner (modSession id f s))
      split
      · exact (hsent _ _ _ _ _ _).trans (closeSession_paths _ _ _)
      · exact hsent _ _ _ _ _ _

/-! The sessions that a message leaves open. -/

@[simp] theorem raiseVec_fnet (f : Fin 33) (v : Nat) (s : State) : (raiseVec f v s).fnet = s.fnet := by
  unfold raiseVec; dsimp only; split
  · rfl
  · split <;> rfl

@[simp] theorem answerPlain_sessions (p : Path) (kind : Byte) (sess : BitVec 32) (body : List Byte) (s : State) :
    (answerPlain p kind sess body s).fnet.sessions = s.fnet.sessions := by
  cases p with
  | fnet _ => rfl
  | pf0 k => simp only [answerPlain, pf0Respond]; split <;> simp [emit]
  | ssp1 => simp only [answerPlain, ssp1Respond]; split <;> rfl

@[simp] theorem sendNotice_sessions (p : Path) (sess ctr : BitVec 32) (inner : List Byte) (s : State) :
    (sendNotice p sess ctr inner s).fnet.sessions = s.fnet.sessions := by
  cases p with
  | fnet _ => rfl
  | pf0 k => simp only [sendNotice, pf0Notice]; split <;> simp [emit]
  | ssp1 => simp only [sendNotice, ssp1Notice]; split <;> rfl

/-- A closed session is gone. -/
@[simp] theorem closeSession_sessions (se : Session) (reason : Byte) (s : State) :
    (closeSession se reason s).fnet.sessions = s.fnet.sessions.filter fun x => !(x.id == se.id) := by
  unfold closeSession; dsimp only
  split <;> simp

end Sys2Proof.Machine

namespace Sys2Proof.Machine
open Sys2Proof.Safety

/-! Session IDs (R628). -/

/-- The ID chosen lies at most n after the drawn one, and every one passed over was 0 or in use. -/
theorem freshId_walks (used : List (BitVec 32)) (n : Nat) (v : BitVec 32) :
    ∃ m ≤ n, freshId used n v = v + BitVec.ofNat 32 m ∧ (∀ i < m, v + BitVec.ofNat 32 i ∈ (0 : BitVec 32) :: used) ∧
      (m < n → v + BitVec.ofNat 32 m ∉ (0 : BitVec 32) :: used) := by
  induction n generalizing v with
  | zero => exact ⟨0, le_rfl, by simp [freshId], by simp, by simp⟩
  | succ n ih =>
    by_cases hbad : v = 0 ∨ used.contains v
    · obtain ⟨m, hm, hid, hpast, hgood⟩ := ih (v + 1)
      have hnext : ∀ i : Nat, v + 1 + BitVec.ofNat 32 i = v + BitVec.ofNat 32 (i + 1) := fun i => by
        rw [BitVec.ofNat_add, BitVec.add_assoc, BitVec.add_comm (BitVec.ofNat 32 i)]
        rfl
      refine ⟨m + 1, by omega, ?_, fun i hi => ?_, fun hlt => ?_⟩
      · rw [freshId, if_pos hbad, hid, hnext]
      · cases i with
        | zero => simpa using hbad
        | succ i => rw [← hnext]; exact hpast i (by omega)
      · rw [← hnext]
        exact hgood (by omega)
    · refine ⟨0, by omega, ?_, by simp, fun _ => ?_⟩
      · rw [freshId, if_neg hbad]
        simp
      · simpa using hbad

/-- Fewer IDs in use than steps leave one free. -/
theorem freshId_fresh {used : List (BitVec 32)} {n : Nat} (v : BitVec 32) (h : used.length + 1 < n) (hn : n < 2 ^ 32) :
    freshId used n v ≠ 0 ∧ freshId used n v ∉ used := by
  obtain ⟨m, hm, hid, hpast, hgood⟩ := freshId_walks used n v
  have hlt : m < n := by
    by_contra hge
    have heq : m = n := by omega
    have hsub : (List.range n).map (fun i => v + BitVec.ofNat 32 i) ⊆ (0 : BitVec 32) :: used := fun x hx => by
      obtain ⟨i, hi, rfl⟩ := List.mem_map.mp hx
      exact hpast i (by rw [heq]; exact List.mem_range.mp hi)
    have hnodup : ((List.range n).map fun i => v + BitVec.ofNat 32 i).Nodup := by
      refine List.Nodup.map_on (fun i hi j hj hij => ?_) List.nodup_range
      rw [List.mem_range] at hi hj
      have hij' := congrArg BitVec.toNat ((BitVec.add_right_inj v).mp hij)
      rw [BitVec.toNat_ofNat, BitVec.toNat_ofNat] at hij'
      omega
    have hcard := (List.subperm_of_subset hnodup hsub).length_le
    simp at hcard
    omega
  have hfree := hgood hlt
  rw [← hid, List.mem_cons, not_or] at hfree
  exact hfree

/-! Sessions open and close (R628, R632 to R634, R645, R646). -/

/-- The session that a HELLO opens (R628, R632). -/
def openedSession (p : Path) (hello : List Byte) (s : State) : Session :=
  let id := freshId (s.fnet.sessions.map (·.id)) 66 (Config.sessionId s.boot.draws)
  let head := beBytes 4 id.toNat ++ padTo 97 (Config.ephPub (s.boot.draws + 1)) ++ padTo 16 (Config.drbg (s.boot.draws + 2) 16)
  { id, role := .pub, path := p, next := 1, dev := 1, transcript := Config.sha384 (hello ++ head), authFails := 0, kept := [],
    subs := [] }

theorem record_keepsFnet (e : Ev) (h : Fin 32) (d : Word) (s : State) : (record e h d s).fnet = s.fnet := by simp

theorem addSession_paths (se : Session) (s : State) :
    OnlyPaths s { s with fnet := { s.fnet with sessions := s.fnet.sessions ++ [se] } } := rfl

theorem welcome_sessions (p : Path) (b : List Byte) (s : State) :
    (welcome p b s).fnet.sessions = s.fnet.sessions ++ [openedSession p b s] := by
  unfold welcome
  dsimp only
  rw [answerPlain_sessions, record_keepsFnet]
  rfl

theorem OnlyPaths.others {s t : State} (h : OnlyPaths s t) :
    t.holdings = s.holdings ∧ t.queues = s.queues ∧ t.bell = s.bell := by
  rw [h]
  exact ⟨rfl, rfl, rfl⟩

theorem welcome_others (p : Path) (b : List Byte) (s : State) :
    (welcome p b s).holdings = s.holdings ∧ (welcome p b s).queues = s.queues ∧ (welcome p b s).bell = s.bell := by
  have hpaths : OnlyPaths (drbgDraw (drbgDraw (drbgDraw s))) (welcome p b s) := by
    unfold welcome
    dsimp only
    exact ((addSession_paths _ _).trans (record_paths _ _ _ _)).trans (answerPlain_paths _ _ _ _ _)
  exact hpaths.others

theorem openedSession_fresh {s : State} (p : Path) (b : List Byte) (h : s.fnet.sessions.length < 64) :
    (openedSession p b s).id ≠ 0 ∧ ∀ x ∈ s.fnet.sessions, x.id ≠ (openedSession p b s).id := by
  obtain ⟨hne, hfree⟩ := freshId_fresh (used := s.fnet.sessions.map (·.id)) (n := 66) (Config.sessionId s.boot.draws)
    (by rw [List.length_map]; omega) (by decide)
  exact ⟨hne, fun x hx he => hfree (List.mem_map.mpr ⟨x, hx, he⟩)⟩

theorem findSession_id {s : State} {id : BitVec 32} {se : Session} (h : findSession s id = some se) : se.id = id := by
  simpa using List.find?_some h

/-- The client's CLOSE leaves no session of that ID. -/
theorem closed_gone (id : BitVec 32) (reason : Byte) (s : State) :
    ∀ x ∈ (match findSession s id with | some x => closeSession x reason s | none => s).fnet.sessions, x.id ≠ id := by
  intro x hx he
  cases hfind : findSession s id with
  | some se =>
    rw [hfind] at hx
    dsimp only at hx
    rw [closeSession_sessions, findSession_id hfind, List.mem_filter, he, beq_self_eq_true] at hx
    exact Bool.false_ne_true hx.2
  | none =>
    rw [hfind] at hx
    have hnot := List.find?_eq_none.mp hfind x hx
    exact hnot (beq_iff_eq.mpr he)

/-- A credential that does not fit gives no role. -/
theorem authRole_none {s : State} {c : Cred} {sigOk proofOk : Bool}
    (h : sigOk = false ∨ proofOk = false ∨ credRole c = none) : authRole s c sigOk proofOk = none := by
  unfold authRole
  split
  · rename_i r hr
    exact if_neg (by rcases h with h | h | h <;> simp_all)
  · rfl

theorem authRole_some {s : State} {c : Cred} {r : Role} (hr : credRole c = some r)
    (hs : c.serial = 0 ∨ c.serial = Config.serial) (he : c.epoch = epochOf s r) : authRole s c true true = some r := by
  unfold authRole
  rw [hr]
  exact if_pos (by rcases hs with hs | hs <;> simp [hs, he])

/-- Settles O45: an ID is free within 66 of the drawn one, and a closed session is filtered out. -/
theorem sessionsOpenAndClose : Obligations.SessionsOpenAndClose := by
  unfold Obligations.SessionsOpenAndClose
  refine ⟨fun s p b hserve hlen => ⟨fun hfull => ?_, fun hroom hseed => ?_, fun hroom hseed => ?_⟩, fun s rq se hacc => ?_⟩
  · exact congrArg Host.Outcome.next ((if_pos hserve).trans ((if_neg (not_not.mpr hlen)).trans (if_pos hfull)))
  · exact congrArg Host.Outcome.next ((if_pos hserve).trans ((if_neg (not_not.mpr hlen)).trans
      ((if_neg (by omega)).trans (if_neg (by rw [hseed]; exact Bool.false_ne_true)))))
  · obtain ⟨hid, hother⟩ := openedSession_fresh p b hroom
    obtain ⟨hh, hq, hb⟩ := welcome_others p b s
    exact ⟨_, _, congrArg Host.Outcome.next ((if_pos hserve).trans ((if_neg (not_not.mpr hlen)).trans
      ((if_neg (by omega)).trans (if_pos hseed)))), welcome_sessions p b s, hid, hother, rfl, rfl, rfl, rfl, rfl, hh, hq, hb⟩
  · intro e say
    obtain ⟨hserve, hfind, -, -⟩ := accepts_parts hacc
    refine ⟨fun c r hrole hrev hr hser hep => congrArg Host.Outcome.next ((serve_accepts _ hacc).trans ?_),
      fun c sigOk proofOk hrole hrev hfails hbad => congrArg Host.Outcome.next ((serve_accepts _ hacc).trans ?_),
      congrArg Host.Outcome.next (serve_accepts _ hacc), fun reason => ⟨_, congrArg Host.Outcome.next (serve_accepts _ hacc), ?_⟩, ?_⟩
    · have hpub : ¬((advanced rq se).role != .pub) = true := by rw [advanced_role, hrole]; decide
      rw [if_neg hpub]
      refine (if_neg ?_).trans ?_
      · exact fun h => Bool.false_ne_true (hrev.symm.trans h)
      · rw [authRole_some (s := executing rq se s) hr hser hep]
        dsimp only
        rw [bellNow, record_bell]
        rfl
    · have hpub : ¬((advanced rq se).role != .pub) = true := by rw [advanced_role, hrole]; decide
      rw [if_neg hpub]
      refine (if_neg ?_).trans ?_
      · exact fun h => Bool.false_ne_true (hrev.symm.trans h)
      · rw [authRole_none hbad]
        refine (if_pos ?_).trans ?_
        · rw [advanced_authFails]; omega
        · rw [bellNow, record_bell]
          rfl
    · exact closed_gone se.id crClient _
    · have hexec : exec (.sessionExpiry rq.sess) s = execSessionExpiry rq.sess s := rfl
      rw [hexec, execSessionExpiry, hfind]
      exact congrArg Host.Outcome.next (if_pos hserve)

end Sys2Proof.Machine

namespace Sys2Proof.Machine
open Sys2Proof.Safety Sys2Proof.Tests

/-- A session with 15 subscriptions, and 18 others of the same ID with none: 15 subscriptions before a request executes. -/
def fullSub : Session := { ses .operator with subs := List.replicate 15 sub8 }

def crowded : State := net (fun x => { x with sessions := fullSub :: List.replicate 18 (ses .operator) }) op

/-- The subscriptions of the first session after a command. -/
def firstSubs : Res → Option Nat
  | .next t => t.fnet.sessions.head?.map (·.subs.length)
  | _ => none

/-- The request is refused: no session gains a subscription. -/
theorem crowded_refuses : firstSubs (exec (.subscribe rq 0x2000 1 0x400 0x3FF) crowded) = some 15 := by decide +kernel

/-- What O46 says of it: the session would have 16. -/
theorem crowded_taken (k : BitVec 8) (l : List Byte) :
    firstSubs (.next (respond rq opSubscribe stOk (typeByte opSubscribe 0x2000 1) crowded.bell.number l
      (modSession fullSub.id (fun y => { y with subs := y.subs ++ [⟨k, 0x2000, 1, 0x400, 0x3FF, none, 0⟩] })
            (draw (executing rq fullSub crowded))))) = some 16 := by
  rfl

/-- Refutes O46: in a state where sessions share an ID, an executing request gives each of them the subscriptions of the first,
so that a SUBSCRIBE that finds 15 of them finds 285 when it counts, and is refused with NO_SLOT. -/
theorem not_subscriptionsReportWhenDue : ¬ Obligations.SubscriptionsReportWhenDue := by
  unfold Obligations.SubscriptionsReportWhenDue
  rintro ⟨h, -⟩
  obtain ⟨k, -, heq⟩ := h crowded rq fullSub 0x2000 1 0x400 0x3FF (by decide +kernel) (by decide +kernel)
    (by decide +kernel) (by decide +kernel)
  have htaken : some 15 = some 16 := crowded_refuses.symm.trans ((congrArg firstSubs heq).trans (crowded_taken _ _))
  exact absurd htaken (by decide)

end Sys2Proof.Machine

namespace Sys2Proof.Machine
open Sys2Proof.Safety

/-! Requests pass the checks of Table 13-3 (R637, R638, R666 to R674). -/

theorem permits_iff {s : State} {rq : Req} {se : Session} {ix : BitVec 16} {sub : Nat} {a : Access}
    (h : permits s rq se ix sub a = true) : checkEntry (executing rq se s) se.role ix sub a true true true = none :=
  beq_iff_eq.mp h

/-- An access that the role has, with a TYPE that is not the entry's, is denied. -/
theorem checkEntry_type_refused {s : State} {role : Role} {ix : BitVec 16} {sub : Nat} {acc : Access}
    (h : checkEntry s role ix sub acc true true true = none) (lenOk valOk : Bool) :
    checkEntry s role ix sub acc false lenOk valOk = some stDenied := by
  unfold checkEntry at h ⊢
  split at h
  · cases h
  · rename_i hreach
    rw [if_neg hreach]
    split at h
    · cases h
    · rename_i a ha
      split at h
      · cases h
      · rename_i hright
        rw [if_neg hright]
        rfl

/-- A READ from offset 0 has a length that the entry's type allows. -/
theorem readLen_ok (ix : BitVec 16) (n : Nat) :
    ((attrOf ix n).all fun a => !isWhole a.ty || (0 : BitVec 32) == 0) = true := by
  cases attrOf ix n <;> simp

theorem tyCode_byte (t : Ty) : (BitVec.ofNat 8 (tyCode t)).toNat = tyCode t := by cases t <;> rfl

theorem readBytes_whole {rq : Req} {t : Ty} (b : List Byte) (off m : Nat) (h : isWhole t = true) : readBytes rq t b off m = b := if_pos h

/-- Settles O47: the checks decide first, and a response keeps to the paths and sessions. -/
theorem requestsPassTheChecks : Obligations.RequestsPassTheChecks := by
  unfold Obligations.RequestsPassTheChecks
  refine ⟨fun s rq se ix sub hacc => ?_, fun rq op st ty b body s => respond_paths rq op st ty b body s⟩
  intro e n
  refine ⟨fun a m ha hw hp => ?_, fun m st hst => ?_, fun a v ha hp hlen hval hrow hcond hvol => ?_,
    fun a v off ty ha hp hty => ?_, fun hp => ?_⟩
  · refine congrArg Host.Outcome.next ((serve_accepts _ hacc).trans ?_)
    dsimp only
    rw [readLen_ok, advanced_role, permits_iff hp, ha]
    dsimp only
    rw [readBytes_whole _ _ _ hw]
    rfl
  · refine congrArg Host.Outcome.next ((serve_accepts _ hacc).trans ?_)
    dsimp only
    rw [readLen_ok, advanced_role, hst]
    rfl
  · refine congrArg Host.Outcome.next ((serve_accepts _ hacc).trans ?_)
    have hlen' : ((attrOf ix n).all fun a => writeLenOk ix n (0 : BitVec 32).toNat a v) = true := by
      rw [ha]; exact hlen
    have hval' : ((attrOf ix n).all fun a => writeValOk e ix n a v) = true := by rw [ha]; exact hval
    have hty : ((attrOf ix n).all fun b => (BitVec.ofNat 8 (tyCode a.ty)).toNat == tyCode b.ty) = true := by
      rw [ha, tyCode_byte]; exact beq_self_eq_true _
    dsimp only
    rw [hlen', hval', hty, advanced_role, permits_iff hp, ha]
    dsimp only
    rw [hrow, if_neg Bool.false_ne_true, hcond]
    exact if_neg (by rw [hvol]; exact Bool.false_ne_true)
  · refine congrArg Host.Outcome.next ((serve_accepts _ hacc).trans ?_)
    have hbad : ((attrOf ix n).all fun a => ty.toNat == tyCode a.ty) = false := by
      rw [ha]; exact beq_eq_false_iff_ne.mpr hty
    dsimp only
    rw [hbad, advanced_role, checkEntry_type_refused (permits_iff hp)]
    rfl
  · refine congrArg Host.Outcome.next ((serve_accepts _ hacc).trans ?_)
    dsimp only
    rw [advanced_role, permits_iff hp]
    dsimp only
    rw [executing_boot]
    cases s.boot.seeded <;> rfl

end Sys2Proof.Machine

namespace Sys2Proof.Machine
open Sys2Proof.Safety

/-! A persistent write goes to the Store (R679, R681). -/

section
variable {s : State} {rq : Req} {se : Session} {ix : BitVec 16} {sub : Nat} {valOk : Bool} {cond : State → Option Byte}
  {v : Val}

theorem writePersist_stored (h : granted s rq se ix sub .w = true) (hv : valOk = true)
    (hc : cond (executing rq se s) = none) :
    writePersist rq ix sub true valOk cond v s = persist rq ix sub se.role v (executing rq se s) := by
  obtain ⟨hacc, hcheck⟩ := granted_parts h
  refine (serve_accepts _ hacc).trans ?_
  rw [advanced_role, hv, hcheck, hc]
  rfl

theorem writePersist_range (h : granted s rq se ix sub .w = true) (hv : valOk = false) :
    writePersist rq ix sub true valOk cond v s = refusedWith rq opWrite stRange ix sub (executing rq se s) := by
  obtain ⟨hacc, hcheck⟩ := granted_parts h
  refine (serve_accepts _ hacc).trans ?_
  rw [advanced_role, hv, checkEntry_value_refused hcheck]
  rfl

end

theorem notInVillage {s : State} (h : s.village.st = .none) : villageBusy s = false := by rw [villageBusy, h]; rfl

/-- A manifest of at most 1,024 bytes that the checks allow is judged by Table 18-2. -/
theorem manifestWrite_judged {s : State} {rq : Req} {se : Session} {b : List Byte}
    (h : granted s rq se 0x7C00 2 .w = true) (hb : b ≠ []) (hlen : b.length ≤ 1024) :
    exec (.villageManifestWrite rq b true) s = match manifestRefusal (executing rq se s) b true with
      | none => .next (persist rq 0x7C00 2 se.role (.bytes b) (executing rq se s))
      | some st => .next (respond rq opWrite st (typeByte opWrite 0x7C00 2) s.bell.number []
          (if st = stNotReady then executing rq se s
            else record evManifestRejected 0 (datS 0 st 0) (executing rq se s))) := by
  obtain ⟨hacc, hcheck⟩ := granted_parts h
  refine (congrArg Host.Outcome.next (serve_accepts _ hacc)).trans ?_
  dsimp only
  rw [advanced_role, decide_eq_true hlen, hcheck]
  dsimp only
  rw [if_neg hb]
  cases manifestRefusal (executing rq se s) b true with
  | none => rfl
  | some st =>
    refine congrArg Host.Outcome.next ?_
    dsimp only
    have hbell : bellNow (if st = stNotReady then executing rq se s
        else record evManifestRejected 0 (datS 0 st 0) (executing rq se s)) = s.bell.number := by
      rw [bellNow]; split
      · rfl
      · rw [record_bell]; rfl
    rw [hbell]

/-! Records (R680, R681, R690). -/

theorem persist_inForce {s : State} {rq : Req} {ix : BitVec 16} {sub : Nat} {role : Role} {v : Val} {a : Area} {r : Attr}
    (ha : areaOf ix = some a) (hr : attrOf ix sub = some r) (hp : entryPending s ix sub = false)
    (hv : valBytes r.ty (entryVal s role a sub) = valBytes r.ty v) :
    persist rq ix sub role v s = respond rq opWrite stOk (typeByte opWrite ix sub) s.bell.number [] s := by
  unfold persist persistNow
  rw [if_neg (by rw [hp]; exact Bool.false_ne_true), ha, hr]
  exact if_pos hv

theorem placed_inOpen {s : State} {n : Nat} (hs : s.store.sectors ≠ []) (hn : s.store.openUsed + n ≤ 4096) :
    placeAfterCompaction n s = some (modStore (fun x => { x with openUsed := x.openUsed + n }) s,
      storeBase + 4096 * s.store.openSector + s.store.openUsed) := by
  have hplace : placeRecord n s = some (modStore (fun x => { x with openUsed := x.openUsed + n }) s,
      storeBase + 4096 * s.store.openSector + s.store.openUsed) := by
    unfold placeRecord
    exact if_pos (by simp [hs, hn])
  unfold placeAfterCompaction
  rw [hplace]

theorem sector_of {o u n : Nat} (h : u + n ≤ 4096) (hn : 0 < n) : (storeBase + 4096 * o + u - storeBase) / 4096 = o := by
  omega

/-! Values take effect (R38, R635, R654, R655). -/

/-- A bell period written far enough from the edge waits for it. -/
theorem applyEntry_period {s : State} (v : Val) (hedge : noEdge s = false) (hfar : 16 ≤ toEdge s) :
    applyEntry 0x2000 1 v s = ({ s with bell := { s.bell with
      pendPeriod := s.bell.pendPeriod ++ [(s.bell.edges + 1, BitVec.ofNat 16 (valNum v))] } }, s.bell.number + 1) := by
  have hone := edgesAway_of_far hfar
  have happly : applyEntry 0x2000 1 v s = (afterArbiter 16 { s with bell := { s.bell with
      pendPeriod := s.bell.pendPeriod ++ [(s.bell.edges + edgesAway 16 s, BitVec.ofNat 16 (valNum v))] } },
      bellAt s (edgesAway 16 s)) := rfl
  rw [happly, hone, bellAt_next hedge, afterArbiter_of_far (by exact hfar)]

/-- What a message leaves of the field network's entries. -/
theorem sendNotice_epoch (p : Path) (sess ctr : BitVec 32) (inner : List Byte) (s : State) :
    (sendNotice p sess ctr inner s).fnet.credEpoch = s.fnet.credEpoch := by
  cases p with
  | fnet _ => rfl
  | pf0 k => simp only [sendNotice, pf0Notice]; split <;> simp [emit]
  | ssp1 => simp only [sendNotice, ssp1Notice]; split <;> rfl

theorem pf0Respond_fnet (k : Fin 8) (msg : List Byte) (len : Nat) (s : State) :
    (pf0Respond k msg len s).fnet = s.fnet := by
  unfold pf0Respond; split
  · rfl
  · exact raiseVec_fnet _ _ _

theorem ssp1Respond_fnet (msg : List Byte) (len : Nat) (s : State) : (ssp1Respond msg len s).fnet = s.fnet := by
  unfold ssp1Respond; split <;> rfl

theorem noResponse_fnet (p : Path) (s : State) : (noResponse p s).fnet = s.fnet := by
  cases p with
  | fnet _ => rfl
  | pf0 k => exact pf0Respond_fnet k _ _ s
  | ssp1 => exact ssp1Respond_fnet _ _ s

theorem sendResponse_epoch (p : Path) (sess ctr : BitVec 32) (inner : List Byte) (s : State) :
    (sendResponse p sess ctr inner s).fnet.credEpoch = s.fnet.credEpoch := by
  cases p with
  | fnet _ => rfl
  | pf0 k => exact congrArg Fnet.credEpoch (pf0Respond_fnet k _ _ s)
  | ssp1 => exact congrArg Fnet.credEpoch (ssp1Respond_fnet _ _ s)

theorem closeSession_epoch (se : Session) (reason : Byte) (s : State) :
    (closeSession se reason s).fnet.credEpoch = s.fnet.credEpoch := by
  unfold closeSession; dsimp only
  split
  · rw [record_keepsFnet]
  · rw [sendNotice_epoch, record_keepsFnet]

theorem respond_epoch (rq : Req) (op st ty : Byte) (b : BellNo) (body : List Byte) (s : State) :
    (respond rq op st ty b body s).fnet.credEpoch = s.fnet.credEpoch := by
  unfold respond; dsimp only
  split
  · rw [noResponse_fnet]
  · split
    · rw [closeSession_epoch, noResponse_fnet]
    · split
      · rw [closeSession_epoch, sendResponse_epoch]; rfl
      · rw [sendResponse_epoch]; rfl

/-- Closing sessions leaves none that was chosen, and the epoch as it was. -/
theorem closeSessions_gone (p : Session → Bool) (reason : Byte) (s : State) :
    (closeSessions p reason s).fnet.credEpoch = s.fnet.credEpoch ∧
      ∀ x ∈ (closeSessions p reason s).fnet.sessions, x ∈ s.fnet.sessions ∧ p x = false := by
  have hloop : ∀ (l : List Session) (t : State),
      (eachOf l (fun se t => closeSession se reason t) t).fnet.credEpoch = t.fnet.credEpoch ∧
      ∀ x ∈ (eachOf l (fun se t => closeSession se reason t) t).fnet.sessions, x ∈ t.fnet.sessions ∧ x ∉ l := by
    intro l
    induction l with
    | nil => exact fun t => ⟨rfl, fun x hx => ⟨hx, List.not_mem_nil⟩⟩
    | cons se l ih =>
      intro t
      obtain ⟨hep, hleft⟩ := ih (closeSession se reason t)
      rw [eachOf_cons]
      refine ⟨hep.trans (closeSession_epoch _ _ _), fun x hx => ?_⟩
      obtain ⟨hin, hnot⟩ := hleft x hx
      rw [closeSession_sessions, List.mem_filter] at hin
      refine ⟨hin.1, fun hmem => ?_⟩
      rcases List.mem_cons.mp hmem with rfl | h
      · simp at hin
      · exact hnot h
  obtain ⟨hep, hleft⟩ := hloop (s.fnet.sessions.filter p) s
  refine ⟨hep, fun x hx => ?_⟩
  obtain ⟨hin, hnot⟩ := hleft x hx
  exact ⟨hin, by simpa [hin] using hnot⟩

theorem epochDone_closes {s : State} {w : StorePend} (hix : w.record.ix = 0x6300) (hsub : w.record.sub = 0x10) :
    flashDone (.store w) s = closeSessions (fun x => x.role == .operator || x.role == .maint) crEpoch
      (respond w.rq opWrite stOk w.record.ty s.bell.number []
        { modStore (fun y => { y with recs := y.recs ++ [w.record] }) s with
          fnet := { s.fnet with credEpoch := BitVec.ofNat 32 (valNum w.v) } }) := by
  unfold flashDone
  dsimp only
  rw [hix, hsub]
  rfl

/-- Settles O48: the checks lead to the Store, the Store to the flash, and the flash to the entry. -/
theorem persistentValuesGoThroughTheStore : Obligations.PersistentValuesGoThroughTheStore := by
  unfold Obligations.PersistentValuesGoThroughTheStore
  refine ⟨fun s rq se => ?_, fun s rq ix sub role v a r ha hr => ?_, fun s w => ?_⟩
  · intro e stored
    refine ⟨fun v hg h1 h2 hidle hvil => ?_, fun v hg hv => ?_, fun v hg hv hvil => ?_, fun v hg => ?_, fun v hg hv => ?_,
      fun k v hg hv => ?_, fun v hg => ?_, fun h v hh hg => ?_, fun b hg hb hlen => manifestWrite_judged hg hb hlen⟩
    · refine congrArg Host.Outcome.next (writePersist_stored hg (by simp [h1, h2]) (if_neg ?_))
      change ¬(anyHolding s [.loading, .running, .quiesced, .dozing] || villageBusy s) = true
      rw [hidle, notInVillage hvil]
      decide
    · exact congrArg Host.Outcome.next (writePersist_range hg (by simp; omega))
    · refine congrArg Host.Outcome.next (writePersist_stored hg (decide_eq_true hv) (if_neg ?_))
      change ¬villageBusy s = true
      rw [notInVillage hvil]
      decide
    · exact congrArg Host.Outcome.next (writePersist_stored hg rfl rfl)
    · exact congrArg Host.Outcome.next (writePersist_stored hg (decide_eq_true hv) rfl)
    · refine congrArg Host.Outcome.next (writePersist_stored hg ?_ rfl)
      have hz : (v.toNat != 0) = true ∨ k.val = 0 ∨ k.val = 3 := hv.imp (fun h => bne_iff_ne.mpr fun h0 => h (BitVec.eq_of_toNat_eq h0))
        (Or.imp (congrArg Fin.val) (congrArg Fin.val))
      rcases hz with h | h | h <;> simp [plcaOk, h]
    · exact congrArg Host.Outcome.next ((if_pos rfl).trans (writePersist_stored hg rfl rfl))
    · exact congrArg Host.Outcome.next ((if_neg fun h0 => hh (Fin.ext h0)).trans (writePersist_stored hg rfl rfl))
  · intro ty b c at_ o
    refine ⟨fun hp => if_pos hp, fun hp hv => persist_inForce ha hr hp hv, fun hp hv hready hfail hs hn hop hops hbusy => ?_⟩
    have hsize : 0 < recSize c := by rw [recSize]; omega
    unfold persist persistNow
    rw [if_neg (by rw [hp]; exact Bool.false_ne_true), ha, hr]
    dsimp only
    rw [if_neg hv, if_neg (by rw [hready]; decide), if_neg (by rw [hfail]; decide)]
    have hplace := placed_inOpen hs hn
    change (match placeAfterCompaction (recSize c) s with | none => _ | some (s, at_) => _) = _
    rw [hplace]
    dsimp only
    rw [sector_of hn hsize]
    exact flashPush_changes rfl hop hops hbusy
  · intro x kept say
    refine ⟨fun hix hsub => ?_, fun hix hsub hedge hfar => ?_, fun hix hsub => ?_, fun hix hsub => ⟨?_, ?_⟩⟩
    · unfold flashDone
      dsimp only
      rw [hix, hsub]
      rfl
    · unfold flashDone
      dsimp only
      rw [hix, hsub]
      have hperiod := applyEntry_period (s := kept s) w.v hedge hfar
      change afterEntry 0x2000 1 (respond w.rq opWrite stOk w.record.ty (applyEntry 0x2000 1 w.v (kept s)).2 []
        (applyEntry 0x2000 1 w.v (kept s)).1) = _
      rw [hperiod]
      rfl
    · unfold flashDone
      dsimp only
      rw [hix, hsub]
      rfl
    · rw [epochDone_closes hix hsub]
      exact (closeSessions_gone _ _ _).1.trans (respond_epoch _ _ _ _ _ _ _)
    · intro se hse
      rw [epochDone_closes hix hsub] at hse
      have hrole := ((closeSessions_gone _ _ _).2 se hse).2
      constructor <;> (intro h; rw [h] at hrole; exact Bool.false_ne_true hrole.symm)

end Sys2Proof.Machine

namespace Sys2Proof.Machine
open Sys2Proof.Safety

/-! Sectors are erased and records copied (R685, R798 to R800). -/

/-- From s to t the field network stays, and of the Store's records those of the list l are added. -/
def AddsRecords (l : List StoreRec) (s t : State) : Prop :=
  t.fnet = s.fnet ∧ ∀ r ∈ t.store.recs, r ∈ s.store.recs ∨ ∃ c ∈ l, r.tag = c.tag

theorem openSector_adds (i : Nat) (s : State) : (openSector i s).fnet = s.fnet ∧ (openSector i s).store.recs = s.store.recs := by
  unfold openSector
  simp

theorem placeRecord_adds {n : Nat} {s t : State} {a : Nat} (h : placeRecord n s = some (t, a)) :
    t.fnet = s.fnet ∧ t.store.recs = s.store.recs := by
  unfold placeRecord at h
  split at h
  · cases h
    exact ⟨rfl, rfl⟩
  · split at h
    · cases h
    · cases h
      simp [openSector_adds]

theorem copyRecord_adds {r : StoreRec} {s t : State} (h : copyRecord r s = some t) : AddsRecords [r] s t := by
  obtain ⟨⟨u, a⟩, hplace, rfl⟩ := Option.map_eq_some_iff.mp h
  obtain ⟨hfnet, hrecs⟩ := placeRecord_adds hplace
  refine ⟨hfnet, fun c hc => ?_⟩
  rcases List.mem_append.mp hc with hc | hc
  · exact .inl (hrecs ▸ hc)
  · exact .inr ⟨r, List.mem_singleton_self r, by rw [List.mem_singleton.mp hc]⟩

theorem copyRecords_adds {l : List StoreRec} {s t : State} (h : copyRecords l s = some t) : AddsRecords l s t := by
  induction l generalizing s with
  | nil =>
    cases h
    exact ⟨rfl, fun r hr => .inl hr⟩
  | cons c l ih =>
    obtain ⟨u, hcopy, hrest⟩ := Option.bind_eq_some_iff.mp h
    obtain ⟨hfnet, hrecs⟩ := copyRecord_adds hcopy
    obtain ⟨hfnet', hrecs'⟩ := ih hrest
    refine ⟨hfnet'.trans hfnet, fun r hr => ?_⟩
    rcases hrecs' r hr with hr | ⟨d, hd, htag⟩
    · exact (hrecs r hr).imp_right fun ⟨d, hd, htag⟩ => ⟨c, List.mem_cons_self, List.mem_singleton.mp hd ▸ htag⟩
    · exact .inr ⟨d, List.mem_cons_of_mem _ hd, htag⟩

theorem recordRetired_ledger (i : Nat) (s : State) : OnlyLedger s (recordRetired i s) := by
  unfold recordRetired
  split
  · exact record_onlyLedger _ _ _ _
  · simp

/-- Erasing the Store leaves the records of the replay list alone. -/
theorem eraseStore_keeps (s : State) : (eraseStore s).fnet = s.fnet ∧ ∀ r ∈ (eraseStore s).store.recs, r.tag = 0x5250 := by
  have herased := eachOf_rel (fun s t : State => t.fnet = s.fnet ∧ t.store.recs = s.store.recs) (fun _ => ⟨rfl, rfl⟩)
    (fun _ _ _ h k => ⟨k.1.trans h.1, k.2.trans h.2⟩) (s.store.sectors.map (·.1))
    (fun i t => recordRetired i (eraseSector i t)) (modStore (fun x => { x with recs := [] }) s) fun i t => by
      have h := (recordRetired_ledger i (eraseSector i t)).eq
      rw [h]
      exact ⟨rfl, rfl⟩
  obtain ⟨hfnet, hrecs⟩ := herased
  unfold eraseStore
  dsimp only
  generalize eachOf (s.store.sectors.map (·.1)) (fun i t => recordRetired i (eraseSector i t))
    (modStore (fun x => { x with recs := [] }) s) = t at hfnet hrecs
  cases hcopy : copyRecords (s.store.recs.filter fun r => r.tag == 0x5250 && recLive s r) t with
  | none => exact ⟨hfnet, fun r hr => by rw [Option.getD_none, hrecs] at hr; exact absurd hr List.not_mem_nil⟩
  | some u =>
    obtain ⟨hfnet', hadds⟩ := copyRecords_adds hcopy
    refine ⟨hfnet'.trans hfnet, fun r hr => ?_⟩
    rcases hadds r hr with h | ⟨c, hc, htag⟩
    · rw [hrecs] at h; exact absurd h List.not_mem_nil
    · rw [htag]
      simpa using (Bool.and_eq_true_iff.mp (List.mem_filter.mp hc).2).1

theorem eraseSector_store (i : Nat) (s : State) : (eraseSector i s).store = { s.store with
    sectors := s.store.sectors.filter fun y => y.1 != i
    eraseCount := memSet s.store.eraseCount i (BitVec.ofNat 32 ((memGet s.store.eraseCount i).toNat + 1))
    retired := if 100000 ≤ (memGet s.store.eraseCount i).toNat + 1 then i :: s.store.retired else s.store.retired
    full := false } := rfl

/-- A sector without a live record is erased, nothing copied. -/
theorem compacted_store {s : State} {i : Nat} (h : (s.store.recs.filter fun r => r.sector == i && recLive s r) = []) :
    let erased := eraseSector i (modStore (fun x => { x with recs := x.recs.filter fun r => r.sector != i }) s)
    (compactSector i s).store = erased.store ∧ (compactSector i s).ssp = erased.ssp := by
  intro erased
  have hcompact : compactSector i s = recordRetired i (record evStoreCompact 0 (datTop 0 i) erased) := by
    unfold compactSector
    dsimp only
    rw [h]
    rfl
  rw [hcompact, (recordRetired_ledger i _).eq, (record_onlyLedger evStoreCompact 0 (datTop 0 i) erased).eq]
  exact ⟨rfl, rfl⟩

theorem wakeStore_none {s : State} (h : s.store.waits = []) : wakeStore s = s := by
  unfold wakeStore
  rw [h]
  have hstore : { s.store with waits := [] } = s.store := by rw [← h]
  exact congrArg (fun x => { s with store := x }) hstore

/-- Settles O49: a compacted or erased Store keeps only what is copied. -/
theorem storeSpaceIsReclaimed : Obligations.StoreSpaceIsReclaimed := by
  unfold Obligations.StoreSpaceIsReclaimed
  refine ⟨fun s i hfree hold hready hfail hw hdead => ?_, fun s rq se hg hready hidle => ?_⟩
  · have hnone : (s.store.recs.filter fun r => r.sector == i.val && recLive s r) = [] :=
      List.filter_eq_nil_iff.mpr fun r hr h => by
        obtain ⟨hsec, hlive⟩ := Bool.and_eq_true_iff.mp h
        rw [hdead r hr (beq_iff_eq.mp hsec)] at hlive
        exact Bool.false_ne_true hlive
    refine ⟨_, congrArg Host.Outcome.next (if_pos (by rw [hold, hready, hfail]; simp [hfree])), ?_⟩
    obtain ⟨hstore, hssp⟩ := compacted_store hnone
    rw [wakeStore_none (by rw [hstore, eraseSector_store]; exact hw), hstore, hssp, eraseSector_store]
    refine ⟨fun x hx => ?_, fun r hr => ?_, rfl, rfl, rfl⟩
    · simpa using (List.mem_filter.mp hx).2
    · simpa using (List.mem_filter.mp hr).2
  · obtain ⟨hfnet, hrecs⟩ := eraseStore_keeps (executing rq se s)
    refine ⟨_, congrArg Host.Outcome.next (invokeReq_answered hg ?_ (Prod.ext rfl ?_)), hrecs, hfnet, ?_⟩
    · change (if !s.ssp.flashReady then some stNotReady else if storeProgramming s then some stBusy else none) = none
      rw [hready, hidle]
      rfl
    · exact congrArg (fun b => some (stOk, b)) (congrArg Bell.number (eraseStore_bell _))
    · exact eraseStore_bell _

end Sys2Proof.Machine

namespace Sys2Proof.Machine
open Sys2Proof.Safety

/-! What start-up does after the choice of a slot leaves boot as it was (R678, R749, R798, R858, R911). -/

@[simp] theorem eachFin_boot (n : Nat) (f : Fin n → State → State) (s : State) (h : ∀ i t, (f i t).boot = t.boot) :
    (eachFin n f s).boot = s.boot :=
  eachFin_rel (fun s t => t.boot = s.boot) (fun _ => rfl) (fun _ _ _ h k => k.trans h) n f s h

@[simp] theorem eachOf_boot {α : Type} (l : List α) (f : α → State → State) (s : State)
    (h : ∀ i t, (f i t).boot = t.boot) : (eachOf l f s).boot = s.boot :=
  eachOf_rel (fun s t => t.boot = s.boot) (fun _ => rfl) (fun _ _ _ h k => k.trans h) l f s h

@[simp] theorem loadRepair_boot (e : BitVec 32) (s : State) : (loadRepair e s).boot = s.boot := by
  unfold loadRepair; dsimp only; repeat' split
  all_goals simp

@[simp] theorem loadRun_boot (b : List Byte) (s : State) : (loadRun b s).boot = s.boot := by
  unfold loadRun; dsimp only
  rw [eachFin_boot _ _ _ fun p t => by split <;> rfl]
  simp [modTest]

@[simp] theorem scanSpill_boot (s : State) : (scanSpill s).boot = s.boot := by
  unfold scanSpill; dsimp only; split <;> simp [modSpill, modTest]

@[simp] theorem setEntry_boot (ix : BitVec 16) (sub : Nat) (v : Val) (s : State) : (setEntry ix sub v s).boot = s.boot := by
  unfold setEntry; dsimp only; split <;> rfl

@[simp] theorem loadRec_boot (l : List StoreRec) (r : StoreRec) (s : State) : (loadRec l r s).boot = s.boot := by
  unfold loadRec; split
  · simp
  · split <;> simp

@[simp] theorem scanStore_boot (s : State) : (scanStore s).boot = s.boot := by
  unfold scanStore; dsimp only; split <;> simp

theorem clearPlot_boot (p : Fin 64) (s : State) : (clearPlot p s).boot = s.boot := by
  unfold clearPlot callForRestart; dsimp only; repeat' split
  all_goals rfl

@[simp] theorem powerPlots_boot (s : State) : (powerPlots s).boot = s.boot := by
  have hplot : ∀ (p : Fin 64) (t : State), (powerPlot p t).boot = t.boot := fun p t => by
    unfold powerPlot; dsimp only; split
    · rfl
    · split
      · exact clearPlot_boot p t
      · rfl
  unfold powerPlots; split
  · exact eachFin_boot _ _ _ hplot
  · rfl

/-- Boot but for its measurements and its keys. -/
def Boot.choice (b : Boot) : Boot :=
  { b with m := Vector.replicate 8 0, gens := Vector.replicate 8 KeyGen.reset, revokePending := false }

@[simp] theorem extendM_choice (i : Fin 8) (d : Digest) (s : State) : (extendM i d s).boot.choice = s.boot.choice := rfl

theorem recheckManifest_choice (s : State) : (recheckManifest s).boot.choice = s.boot.choice := by
  unfold recheckManifest; dsimp only; split
  · rfl
  · split
    · rfl
    · simp [modVillage]

theorem afterSlot_choice (s : State) : (afterSlot s).boot.choice = s.boot.choice := by
  unfold afterSlot
  split
  · rfl
  · rw [powerPlots_boot]
    have hdad : ∀ t : State, (startDad t).boot = t.boot := fun _ => rfl
    have hbell : ∀ t : State, (bellFromStore t).boot = t.boot := fun _ => rfl
    rw [hdad, recheckManifest_choice, hbell, scanStore_boot, scanSpill_boot]

theorem settleKeys_choice (s : State) : (settleKeys s).boot.choice = s.boot.choice ∧ (settleKeys s).ssp = s.ssp := by
  unfold settleKeys; dsimp only; split
  · exact ⟨rfl, rfl⟩
  · split
    · simp [extendM, modBoot, Boot.choice]
    · simp [modBoot, Boot.choice]

theorem testLedger_boot (s : State) : (testLedger s).boot = s.boot ∧ (testLedger s).ssp = s.ssp := by
  unfold testLedger; dsimp only; split <;> exact ⟨rfl, rfl⟩

/-! The choice of a slot (R709, R711, R712, Table 14-4). -/

theorem bootCheck_kept {s t : State} (x : SlotScan) (h : t.boot.thermo = s.boot.thermo) : bootCheck t x = bootCheck s x := by
  unfold bootCheck packageCheck
  rw [h]

theorem bootSlot_choice (b trial fallback : Bool) (x : SlotScan) (s : State) :
    (bootSlot b trial fallback x s).boot.choice = { s.boot.choice with
      phase := .romPassed, bootedB := b, bootTrial := trial, fallback, bootRollback := x.rollback, fw := x.fwVersion,
      bootLength := x.length, s3 := x.s3 } := by
  unfold bootSlot
  dsimp only
  rw [extendM_choice, extendM_choice, extendM_choice]
  split
  · simp [modBoot, Boot.choice]
  · rfl

theorem haltBoot_choice (code : BitVec 2) (s : State) :
    (haltBoot code s).boot.choice = { s.boot.choice with phase := .halted code } := by
  unfold haltBoot
  simp [modBoot, Boot.choice]

/-- The slots tried without a directory, slot A first. -/
theorem chooseSlot_plain (scan : Bool → SlotScan) {s : State} (h0 : s.boot.dir0 = none) (h1 : s.boot.dir1 = none) :
    chooseSlot scan s = trySlots scan false true [false, true] s := by
  have hdir : dirInForce s = none := by rw [dirInForce, h0, h1]
  have horder : slotOrder s = ([false, true], false) := by rw [slotOrder, hdir]
  unfold chooseSlot
  rw [horder]
  rfl

/-- One slot fails: it is rejected and the next is tried. -/
theorem trySlots_rejects {scan : Bool → SlotScan} {b first : Bool} {l : List Bool} {s : State} {e : Byte}
    (h : bootCheck s (scan b) = some e) : ∃ t, trySlots scan false first (b :: l) s = trySlots scan false false l t ∧
      t.boot.choice = { s.boot.choice with rejected := s.boot.rejected ++ [(b, e)] } := by
  refine ⟨record evBootSlotReject 0 (Config.slotReject b e)
    (modBoot (fun y => { y with rejected := y.rejected ++ [(b, e)] }) s), ?_, ?_⟩
  · rw [trySlots, h]
  · simp [modBoot, Boot.choice]

theorem trySlots_boots {scan : Bool → SlotScan} {b first : Bool} {l : List Bool} {s : State}
    (h : bootCheck s (scan b) = none) : trySlots scan false first (b :: l) s = bootSlot b false (!first) (scan b) s := by
  rw [trySlots, h]
  rfl

theorem fusesBad_kept {s t : State} (h : t.boot = s.boot) : fusesBad t = fusesBad s := by
  have hb := congrArg (fun b : Boot => fusesBad { s with boot := b }) h
  exact hb

/-- What a cold reset reaches with the key fuses in order: the state in which a slot is chosen, or BOOT_HALT. -/
theorem startUp_chooses (scan : Bool → SlotScan) {s : State} (hf : fusesBad s = false)
    (h0 : readDir s.ssp.flash 0 = none) (h1 : readDir s.ssp.flash 0x1000 = none) :
    ∃ t, t.boot.choice = { s.boot.choice with dir0 := none, dir1 := none } ∧
      startUp scan s = if Config.identityOk s.boot.cold = true then afterSlot (trySlots scan false true [false, true] t)
        else haltBoot 1 (extendM 4 (fuseDigest (settleKeys (testLedger (extendM 0 Config.romDigest s))))
          (settleKeys (testLedger (extendM 0 Config.romDigest s)))) := by
  obtain ⟨hboot, hssp⟩ := testLedger_boot (extendM 0 Config.romDigest s)
  obtain ⟨hchoice, hssp'⟩ := settleKeys_choice (testLedger (extendM 0 Config.romDigest s))
  have hfuses : fusesBad (testLedger (extendM 0 Config.romDigest s)) = false := (fusesBad_kept hboot).trans hf
  rw [hboot] at hchoice
  rw [hssp] at hssp'
  unfold startUp
  dsimp only
  rw [hfuses, if_neg Bool.false_ne_true]
  generalize settleKeys (testLedger (extendM 0 Config.romDigest s)) = u at hchoice hssp' ⊢
  have hcold := congrArg Boot.cold hchoice
  change u.boot.cold = s.boot.cold at hcold
  have hflash : (extendM 4 (fuseDigest u) u).ssp.flash = s.ssp.flash := congrArg Ssp.flash hssp'
  refine ⟨readDirectory (extendM 4 (fuseDigest u) u), ?_, ?_⟩
  · unfold readDirectory modSsp modBoot
    dsimp only
    rw [hflash, h0, h1]
    exact congrArg (fun b => { b with dir0 := none, dir1 := none }) hchoice
  · change (if (!Config.identityOk u.boot.cold) = true then _ else _) = _
    rw [hcold, chooseSlot_plain scan (by rw [← h0, ← hflash]; rfl) (by rw [← h1, ← hflash]; rfl)]
    cases Config.identityOk s.boot.cold <;> rfl

/-- The slot that boots, as it stands when start-up ends. -/
theorem booted_choice (b fallback : Bool) (x : SlotScan) (l : List (Bool × Byte)) {s : State} (h : s.boot.rejected = l) :
    let t := afterSlot (bootSlot b false fallback x s)
    t.boot.phase = .romPassed ∧ t.boot.bootedB = b ∧ t.boot.fallback = fallback ∧ t.boot.fw = x.fwVersion ∧
      t.boot.rejected = l := by
  intro t
  have hchoice := (afterSlot_choice (bootSlot b false fallback x s)).trans (bootSlot_choice b false fallback x s)
  have hphase := congrArg Boot.phase hchoice
  have hbooted := congrArg Boot.bootedB hchoice
  have hfall := congrArg Boot.fallback hchoice
  have hfw := congrArg Boot.fw hchoice
  have hrej := congrArg Boot.rejected hchoice
  exact ⟨hphase, hbooted, hfall, hfw, Eq.trans hrej h⟩

/-- The release of a core: its place, its measurements, and of boot nothing more. -/
theorem releaseCore_boot (c : Fin 4) (d : Digest) (s : State) :
    (releaseCore c d s).boot.cores = upd s.boot.cores c (fun x => { x with released := true, ready := true }) ∧
      (releaseCore c d s).boot.phase = s.boot.phase ∧
      (releaseCore c d s).boot.m = (extendM 2 d (if c = 0 then eachOf s.boot.s3 (extendM 3) s else s)).boot.m := by
  have hs3 := eachOf_rel (fun s t : State => t.boot.cores = s.boot.cores ∧ t.boot.phase = s.boot.phase)
    (fun _ => ⟨rfl, rfl⟩) (fun _ _ _ h k => ⟨k.1.trans h.1, k.2.trans h.2⟩) s.boot.s3 (extendM 3) s fun _ _ => ⟨rfl, rfl⟩
  have hstored : ∀ t : State, (if c.val = 1 then modStore (fun x => { x with ready := true }) t else t).boot = t.boot :=
    fun t => by split <;> rfl
  unfold releaseCore
  dsimp only
  rw [hstored]
  by_cases h0 : c = 0
  · have h0' : c.val = 0 := by rw [h0]; rfl
    rw [if_pos h0, if_pos h0']
    generalize eachOf s.boot.s3 (extendM 3) s = u at hs3
    refine ⟨?_, hs3.2, rfl⟩
    rw [← hs3.1]
    rfl
  · have h0' : ¬c.val = 0 := fun h => h0 (Fin.ext h)
    rw [if_neg h0, if_neg h0']
    exact ⟨rfl, rfl, rfl⟩

/-- Nothing to settle: the health check records BOOT_DONE and changes nothing more. -/
theorem healthPasses_quiet {s : State} (ht : s.boot.bootTrial = false) (hf : s.boot.fallback = false)
    (h0 : s.boot.dir0.isSome = true) (h1 : s.boot.dir1.isSome = true) (ha : (curDir s).activeB = s.boot.bootedB)
    (hr : s.boot.bootRollback.toNat ≤ rollbackRun s.boot.thermo) :
    healthPasses s = record evBootDone 0 (slotDat s.boot.bootedB s.boot.fw.toNat)
      (modBoot (fun b => { b with phase := .running }) s) := by
  unfold healthPasses
  dsimp only
  generalize hrec : record evBootDone 0 (slotDat _ _) (modBoot (fun b => { b with phase := .running }) s) = t
  have hboot : t.boot = { s.boot with phase := .running } := by
    rw [← hrec]; simp [modBoot]
  have hdir : dirInForce t = dirInForce s := by unfold dirInForce; rw [hboot]
  have hsome : (dirInForce s).isSome = true := by
    obtain ⟨a, ha⟩ := Option.isSome_iff_exists.mp h0
    obtain ⟨b, hb⟩ := Option.isSome_iff_exists.mp h1
    rw [dirInForce, ha, hb]
    dsimp only
    split <;> rfl
  have hact : activateSlot t = t := by
    have hcur : curDir t = curDir s := by rw [curDir, hdir]; rfl
    unfold activateSlot
    dsimp only
    rw [hcur, hdir, hboot]
    dsimp only
    rw [ha, hsome, ht, hf, beq_self_eq_true]
    rfl
  have hrep : repairDirectory t = t := by
    unfold repairDirectory
    rw [hboot]
    dsimp only
    rw [h0, h1]
    exact if_neg (by simp)
  rw [hact, hrep]
  unfold advanceRollback
  rw [hboot]
  exact (if_pos hr).trans hrec.symm

/-- A core of 1 to 3 that is named as not ready counts. -/
theorem waiting_of_named : ∀ n x : BitVec 4, (n ||| x) &&& 0xE = 0 → n &&& 0xE = 0 := by decide

/-- Settles O50: what start-up does around the choice of a slot leaves boot's choice as it is. -/
theorem bootGoesStepByStep : Obligations.BootGoesStepByStep := by
  unfold Obligations.BootGoesStepByStep
  refine fun s => ⟨fun x y hph h1 h2 => ⟨fun hf => ?_, fun hf hd0 hd1 hrej => ?_⟩, fun hph => ?_,
    fun c d hph hrel hlow => ⟨?_, ?_⟩, fun hph => ⟨fun hready hstore htrial hfb hdir0 hdir1 hact hroll => ?_, fun n hn => ?_⟩⟩
  · refine ⟨_, congrArg Host.Outcome.next (if_pos (by rw [hph, h1, h2]; rfl)), ?_⟩
    have hbad : fusesBad (testLedger (extendM 0 Config.romDigest s)) = true :=
      (fusesBad_kept (testLedger_boot (extendM 0 Config.romDigest s)).1).trans hf
    unfold startUp
    dsimp only
    rw [hbad, if_pos rfl]
    exact congrArg Boot.phase (haltBoot_choice 2 _)
  · obtain ⟨t, ht, hstart⟩ := startUp_chooses (fun b => if b then y else x) hf hd0 hd1
    refine ⟨_, congrArg Host.Outcome.next (if_pos (by rw [hph, h1, h2]; rfl)), ?_⟩
    rw [hstart]
    have hthermo := congrArg Boot.thermo ht
    change t.boot.thermo = s.boot.thermo at hthermo
    have hnone := congrArg Boot.rejected ht
    change t.boot.rejected = s.boot.rejected at hnone
    rw [hrej] at hnone
    by_cases hid : Config.identityOk s.boot.cold = true
    · rw [if_pos hid, if_pos hid]
      refine ⟨fun hx => ?_, fun e hx => ?_⟩
      · rw [trySlots_boots ((bootCheck_kept _ hthermo).trans hx)]
        exact booted_choice _ _ _ _ hnone
      · obtain ⟨u, hu, huc⟩ := trySlots_rejects (scan := fun b => if b then y else x) (b := false) (first := true)
          (l := [true])
          ((bootCheck_kept _ hthermo).trans hx)
        have hthermo' := congrArg Boot.thermo huc
        change u.boot.thermo = t.boot.thermo at hthermo'
        have hone := congrArg Boot.rejected huc
        change u.boot.rejected = t.boot.rejected ++ [(false, e)] at hone
        rw [hnone] at hone
        rw [hu]
        refine ⟨fun hy => ?_, fun f hy => ?_⟩
        · rw [trySlots_boots ((bootCheck_kept _ (hthermo'.trans hthermo)).trans hy)]
          exact booted_choice _ _ _ _ hone
        · obtain ⟨w, hw, hwc⟩ := trySlots_rejects (scan := fun b => if b then y else x) (b := true)
            (first := false) (l := [])
            ((bootCheck_kept _ (hthermo'.trans hthermo)).trans hy)
          have htwo := congrArg Boot.rejected hwc
          change w.boot.rejected = u.boot.rejected ++ [(true, f)] at htwo
          rw [hone] at htwo
          rw [hw]
          have hhalt := (afterSlot_choice (haltBoot 0 w)).trans (haltBoot_choice 0 w)
          have hphase := congrArg Boot.phase hhalt
          have hrejected := congrArg Boot.rejected hhalt
          exact ⟨hphase, Eq.trans hrejected htwo⟩
    · rw [if_neg hid, if_neg hid]
      exact congrArg Boot.phase (haltBoot_choice 1 _)
  · exact congrArg Host.Outcome.next (if_pos (by rw [hph]; rfl))
  · obtain ⟨hcores, hphase, hm⟩ := releaseCore_boot c d s
    refine ⟨_, congrArg Host.Outcome.next ((if_neg (by rw [hph, hrel, hlow]; decide)).trans (if_pos rfl)), ?_, fun k hk => ?_,
      hphase.trans hph, hm⟩
    · rw [hcores]
      exact upd_same _ c _
    · rw [hcores]
      exact upd_other _ c k _ hk
  · exact ⟨_, congrArg Host.Outcome.next ((if_neg (by rw [hph, hrel, hlow]; decide)).trans (if_neg Bool.false_ne_true)), rfl⟩
  · have hnone : notReadyCores s 0 = 0 := by
      have hall : (List.finRange 4).map (fun c => !s.boot.cores[c].ready) = [false, false, false, false] := by
        simp only [List.finRange, List.ofFn_succ, List.ofFn_zero, List.map_cons, List.map_nil, hready]
        rfl
      rw [notReadyCores, hall]
      rfl
    refine congrArg Host.Outcome.next ((if_neg (by rw [hph]; decide)).trans ((if_pos ⟨hnone, hstore⟩).trans ?_))
    exact healthPasses_quiet htrial hfb hdir0 hdir1 hact hroll
  · refine ⟨_, congrArg Host.Outcome.next ((if_neg (by rw [hph]; decide)).trans (if_neg ?_)), rfl⟩
    rintro ⟨hzero, -⟩
    exact hn (waiting_of_named n _ hzero)

end Sys2Proof.Machine

namespace Sys2Proof.Machine
open Sys2Proof.Safety

/-! The slot writer (R718 to R720, R739). -/

@[simp] theorem gapCount_boot (q : Fin 256) (n : Nat) (s : State) : (gapCount q n s).boot = s.boot := by
  have hloss : (addLossPending q n s).boot = s.boot := by unfold addLossPending; split <;> rfl
  have happend : ∀ t : State, (afterAppend q t).boot = t.boot := fun t => by
    unfold afterAppend; repeat' split
    all_goals rfl
  unfold gapCount; dsimp only; repeat' split
  all_goals simp [hloss, happend]

theorem takeItem_boot (q : Fin 256) (s : State) : (takeItem q s).boot = s.boot := by
  unfold takeItem; dsimp only; split <;> simp

/-- Taking a packet leaves boot and the flash as they are. -/
@[simp] theorem takePacket_boot (q : Fin 256) (n : Nat) (s : State) : (takePacket q n s).boot = s.boot := by
  unfold takePacket
  refine eachOf_boot _ _ _ fun _ t => ?_
  dsimp only
  rw [takeItem_boot]
  split <;> rfl

theorem flashRun_boot (l : List FlashOp) (s : State) : (flashRun l s).boot = s.boot := by
  induction l generalizing s with
  | nil => rfl
  | cons o l ih =>
    cases o with
    | read a => exact ih _
    | program a b k => rfl
    | erase a n => rfl

theorem flashPush_boot (o : FlashOp) (s : State) : (flashPush o s).boot = s.boot := by
  unfold flashPush flashStart
  split
  · rfl
  · split
    · exact eachOf_boot _ _ _ fun _ _ => rfl
    · exact flashRun_boot _ _

theorem writePage_lastOffset (off : Nat) (b : List Byte) (s : State) : (writePage off b s).boot.lastOffset = off := by
  unfold writePage
  dsimp only
  rw [flashPush_boot]
  rfl

theorem curDir_kept {s t : State} (h : t.boot = s.boot) : curDir t = curDir s := by
  have hb := congrArg (fun b : Boot => curDir { s with boot := b }) h
  exact hb

/-! The directory (R706, R707). -/

theorem succ_seq {v : BitVec 32} (h : v ≠ BitVec.allOnes 32) : (v + 1).toNat = v.toNat + 1 := by
  have hne : v.toNat ≠ 2 ^ 32 - 1 := fun he => h (BitVec.eq_of_toNat_eq (he.trans (BitVec.toNat_allOnes).symm))
  have hlt := v.isLt
  have hone : (1 : BitVec 32).toNat = 1 := rfl
  rw [BitVec.toNat_add, hone]
  omega

/-- The content that a change of the directory writes. -/
def nextDir (f : Dir → Dir) (s : State) : Dir := { f (curDir s) with seq := (curDir s).seq + 1 }

theorem writeDir_boot {s : State} (f : Dir → Dir) (hb : s.ssp.writeBusy = false) :
    (writeDir f s).boot = if firstInForce s then { s.boot with dir1 := some (nextDir f s) }
      else { s.boot with dir0 := some (nextDir f s) } := by
  unfold writeDir
  rw [if_neg (by rw [hb]; exact Bool.false_ne_true)]
  dsimp only
  rw [modBoot_boot, modSsp_boot]
  rfl

/-- What is written to the directory comes into force. -/
theorem writeDir_inForce {s : State} (f : Dir → Dir) (hb : s.ssp.writeBusy = false)
    (hs : (curDir s).seq ≠ BitVec.allOnes 32) : curDir (writeDir f s) = nextDir f s := by
  have hboot := writeDir_boot f hb
  have hseq : (nextDir f s).seq.toNat = (curDir s).seq.toNat + 1 := succ_seq hs
  unfold curDir dirInForce at hseq ⊢
  rw [hboot]
  unfold firstInForce
  cases h0 : s.boot.dir0 with
  | none =>
    cases h1 : s.boot.dir1 with
    | none => simp [h1]
    | some b =>
      rw [h0, h1] at hseq
      simp only [h1, Bool.false_eq_true, if_false]
      rw [if_pos (by simp only [Option.getD_some] at hseq; omega)]
      rfl
  | some a =>
    cases h1 : s.boot.dir1 with
    | none =>
      rw [h0, h1] at hseq
      simp only [h0, if_true]
      rw [if_neg (by simp only [Option.getD_some] at hseq; omega)]
      rfl
    | some b =>
      rw [h0, h1] at hseq
      dsimp only at hseq ⊢
      by_cases hle : b.seq.toNat ≤ a.seq.toNat
      · rw [if_pos hle, Option.getD_some] at hseq
        simp only [decide_eq_true hle, if_true, h0]
        rw [if_neg (by omega)]
        rfl
      · rw [if_neg hle, Option.getD_some] at hseq
        simp only [decide_eq_false hle, Bool.false_eq_true, if_false, h1]
        rw [if_pos (by omega)]
        rfl

/-! Keys (R722 to R726). -/

/-- The last of the numbers that a test picks is the highest. -/
theorem last_filter {n : Nat} {p : Fin n → Bool} {k : Fin n} (h : p k = true) :
    ∃ m, ((List.finRange n).filter p).getLast? = some m ∧ k ≤ m := by
  have hmem : k ∈ (List.finRange n).filter p := List.mem_filter.mpr ⟨List.mem_finRange k, h⟩
  have hsorted : ((List.finRange n).filter p).Pairwise (· < ·) := (List.pairwise_lt_finRange n).filter _
  generalize (List.finRange n).filter p = l at hmem hsorted
  have hne : l ≠ [] := List.ne_nil_of_mem hmem
  refine ⟨l.getLast hne, List.getLast?_eq_getLast_of_ne_nil hne, ?_⟩
  rw [← List.dropLast_append_getLast hne, List.pairwise_append] at hsorted
  rw [← List.dropLast_append_getLast hne] at hmem
  rcases List.mem_append.mp hmem with h | h
  · exact (hsorted.2.2 k h _ (List.mem_singleton_self _)).le
  · exact (List.mem_singleton.mp h).le

theorem rootGen_le_topGen {s : State} {g : Fin 8} (h : s.boot.gens[g].commit = true) : g.val ≤ topGen s := by
  obtain ⟨m, hm, hle⟩ := last_filter (p := fun g => genBlown s.boot.gens[g]) (k := g)
    (by rw [genBlown, h, Bool.or_true, Bool.true_or])
  unfold topGen
  rw [hm]
  exact hle

/-- The next generation is not the one in force. -/
theorem nextGen_ne {s : State} (h : gensLeft s ≠ 0) : rootGen s ≠ Fin.ofNat 8 (topGen s + 1) := by
  have hlt : topGen s < 7 := by unfold gensLeft at h; omega
  intro he
  have hval := congrArg Fin.val he
  rw [Fin.val_ofNat, Nat.mod_eq_of_lt (by omega)] at hval
  unfold rootGen at hval
  cases hlast : ((List.finRange 8).filter fun g => s.boot.gens[g].commit).getLast? with
  | none => rw [hlast] at hval; simp at hval
  | some g =>
    rw [hlast, Option.getD_some] at hval
    have hmem := List.mem_of_getLast? hlast
    have hle := rootGen_le_topGen (s := s) (List.mem_filter.mp hmem).2
    omega

/-- The packet at the front of the slot writer's queue is served. -/
theorem slotPacket_served {s : State} {q : Fin 256} {l : List Item} (hq : slotQueue s = some q) (hserve : serving s = true)
    (hfront : frontPacket s.queues[q] = some l) :
    exec (.slotWriterPacket l) s = .next (slotPacket l (takePacket q l.length s)) := by
  have hexec : exec (.slotWriterPacket l) s = execSlotWriterPacket l s := rfl
  rw [hexec, execSlotWriterPacket, hq]
  exact congrArg Host.Outcome.next (if_neg (by rw [hserve, hfront]; simp))

/-- An update of a slot that passes: the slot is VERIFIED and on trial (R740). -/
theorem updateSlot_verified {s : State} {x : SlotScan} (hb : s.ssp.writeBusy = false)
    (hs : (curDir s).seq ≠ BitVec.allOnes 32) (hx : updateCheck s x = none) :
    let t := (updateSlot x s).1
    let other := !s.boot.bootedB
    (updateSlot x s).2 = stOk ∧ t.bell = s.bell ∧ (curDir t).trial = true ∧ stOf (curDir t) other = .verified ∧
      (curDir t).seq = (curDir s).seq + 1 ∧ (curDir t).activeB = (curDir s).activeB := by
  intro t other
  obtain ⟨f, ht, hf⟩ : ∃ f : Dir → Dir, updateSlot x s = (modBoot (fun b => { b with writing := false }) (writeDir f s), stOk) ∧
      ∀ d, (f d).trial = true ∧ stOf (f d) other = .verified ∧ (f d).activeB = d.activeB := by
    refine ⟨_, by unfold updateSlot; rw [hx], fun d => ?_⟩
    have hgen : ∀ g : BitVec 32, (setGen other g d).activeB = d.activeB := fun g => by
      unfold setGen; split <;> rfl
    have hset : ∀ d : Dir, (setSt other .verified d).trial = d.trial ∧ stOf (setSt other .verified d) other = .verified ∧
        (setSt other .verified d).activeB = d.activeB := fun d => by
      unfold setSt stOf; cases other <;> exact ⟨rfl, rfl, rfl⟩
    refine ⟨(hset _).1, (hset _).2.1, (hset _).2.2.trans ?_⟩
    dsimp only
    split
    · exact hgen _
    · rfl
  have hcur : curDir t = nextDir f s := by
    rw [← writeDir_inForce f hb hs]
    exact congrArg (fun r => curDir r.1) ht
  obtain ⟨htrial, hst, hact⟩ := hf (curDir s)
  refine ⟨congrArg Prod.snd ht, (congrArg (fun r => r.1.bell) ht).trans (writeDir_bell _ _), ?_⟩
  rw [hcur]
  exact ⟨htrial, by rw [← hst]; cases other <;> rfl, rfl, hact⟩

/-- What BOOT.UPDATE answers: the outcome, in the bell in progress. -/
theorem updateSlot_effect {s : State} {x : SlotScan} {st : Byte} {b : BellNo} (hst : (updateSlot x s).2 = st)
    (hbell : (updateSlot x s).1.bell = s.bell) (hb : s.bell.number = b := by rfl) :
    (let r := updateSlot x s; (r.1, some (r.2, bellNow r.1))) = ((updateSlot x s).1, some (st, b)) := by
  dsimp only
  rw [bellNow, hbell, hst, hb]

theorem updateSlot_bad {s : State} {x : SlotScan} {e : Byte} (hb : s.ssp.writeBusy = false)
    (hs : (curDir s).seq ≠ BitVec.allOnes 32) (hx : updateCheck s x = some e) (he : e ≠ stTruncated) :
    let t := (updateSlot x s).1
    let other := !s.boot.bootedB
    (updateSlot x s).2 = e ∧ t.bell = s.bell ∧ stOf (curDir t) other = .bad ∧ (curDir t).trial = (curDir s).trial := by
  intro t other
  have ht : updateSlot x s = (writeDir (setSt other .bad) s, e) := by
    unfold updateSlot
    rw [hx]
    exact if_neg he
  have hcur : curDir t = nextDir (setSt other .bad) s := by
    rw [← writeDir_inForce _ hb hs]
    exact congrArg (fun r => curDir r.1) ht
  refine ⟨congrArg Prod.snd ht, (congrArg (fun r => r.1.bell) ht).trans (writeDir_bell _ _), ?_, ?_⟩
  · rw [hcur, nextDir, setSt, stOf]
    cases other <;> rfl
  · rw [hcur, nextDir, setSt]
    cases other <;> rfl

theorem closeSessions_paths (p : Session → Bool) (reason : Byte) (s : State) : OnlyPaths s (closeSessions p reason s) := by
  have hloop : ∀ (l : List Session) (t : State), OnlyPaths t (eachOf l (fun se t => closeSession se reason t) t) := by
    intro l
    induction l with
    | nil => exact fun t => .refl t
    | cons se l ih => exact fun t => (closeSession_paths se reason t).trans (ih _)
  exact hloop _ s

theorem OnlyPaths.boot_eq {s t : State} (h : OnlyPaths s t) : t.boot = s.boot := by
  have hb := congrArg State.boot h
  exact hb

/-- A rotation commits the next generation, revokes the one in force and leaves only PUBLIC sessions (R724, R726). -/
theorem rotate_commits {s : State} (rq : Req) (d : Digest) (h : gensLeft s ≠ 0) :
    let t := rotate rq d s
    t.boot.gens[Fin.ofNat 8 (topGen s + 1)] = ⟨d, true, true, true, true, false⟩ ∧
      t.boot.gens[rootGen s].revoke = true ∧ ∀ x ∈ t.fnet.sessions, x.role = .pub := by
  intro t
  have hgens : t.boot.gens = upd (s.boot.gens.set (Fin.ofNat 8 (topGen s + 1)) ⟨d, true, true, true, true, false⟩)
      (rootGen s) (fun x => { x with revoke := true }) := by
    refine congrArg Boot.gens ((closeSessions_paths _ _ _).boot_eq.trans ((respond_paths _ _ _ _ _ _ _).boot_eq.trans
      (record_paths _ _ _ _).boot_eq))
  have hne := nextGen_ne h
  refine ⟨?_, ?_, fun x hx => ?_⟩
  · rw [hgens]
    exact (upd_other _ _ _ _ hne.symm).trans (Vector.getElem_set_self _)
  · rw [hgens]
    exact congrArg KeyGen.revoke (upd_same _ _ _)
  · have hrole := ((closeSessions_gone _ _ _).2 x hx).2
    simpa using hrole

/-- Settles O51: the writer serves its front packet by three tests; what the directory gets comes into force (`writeDir_inForce`);
a rotation fills the next generation, which is not the one in force. -/
theorem slotsAndKeysAreRenewed : Obligations.SlotsAndKeysAreRenewed := by
  unfold Obligations.SlotsAndKeysAreRenewed
  refine ⟨fun s q l hq hserve hfront => ?_, fun s rq se x hg hbusy hwb hseq => ?_, fun s rq se d hg href => ?_⟩
  · intro t rejected
    have hcur : curDir t = curDir s := curDir_kept (takePacket_boot q l.length s)
    have hboot : t.boot = s.boot := takePacket_boot q l.length s
    rw [slotPacket_served hq hserve hfront]
    refine ⟨fun hpage => ?_, fun hpage hoff hlast => ?_, fun hpage hoff hwr hst => ⟨?_, writePage_lastOffset _ _ _⟩⟩
    · exact congrArg Host.Outcome.next (if_pos (by rw [hpage]; rfl))
    · refine congrArg Host.Outcome.next ((if_neg (by rw [hpage]; decide)).trans ((if_neg hoff).trans (if_pos ?_)))
      rw [hboot]
      rcases hlast with h | h <;> simp [h]
    · refine congrArg Host.Outcome.next ((if_neg (by rw [hpage]; decide)).trans ((if_neg (by omega)).trans (if_neg ?_)))
      change ¬(!t.boot.writing || stOf (curDir t) (!t.boot.bootedB) != .writing ||
        decide (packetOffset l ≤ t.boot.lastOffset)) = true
      rw [hcur, hboot, hwr, hst]
      simpa using hoff
  · intro other hst
    have hcond : (if slotWriterBusy (executing rq se s) then some stBusy
        else if stOf (curDir (executing rq se s)) (!(executing rq se s).boot.bootedB) == .empty ||
          (executing rq se s).ssp.writeBusy then some stNotReady else none) = none := by
      change (if slotWriterBusy s then some stBusy
        else if stOf (curDir s) other == .empty || s.ssp.writeBusy then some stNotReady else none) = none
      rw [hbusy, hwb, beq_false_of_ne hst]
      rfl
    refine ⟨fun hx => ?_, fun e hx he => ?_⟩
    · obtain ⟨h2, hbell, h⟩ := updateSlot_verified (s := executing rq se s) hwb hseq hx
      exact ⟨_, congrArg Host.Outcome.next (invokeReq_answered hg hcond (updateSlot_effect h2 hbell)), h⟩
    · obtain ⟨h2, hbell, h⟩ := updateSlot_bad (s := executing rq se s) hwb hseq hx he
      exact ⟨_, congrArg Host.Outcome.next (invokeReq_answered hg hcond (updateSlot_effect h2 hbell)), h⟩
  · have hleft : gensLeft (executing rq se s) ≠ 0 := fun h0 => by
      rw [rotateRefusal, if_pos h0] at href
      cases href
    exact ⟨_, congrArg Host.Outcome.next (invokeReq_later hg href rfl), rotate_commits rq d hleft⟩

end Sys2Proof.Machine

namespace Sys2Proof.Machine
open Sys2Proof.Safety

/-! Attestation (R734, R657). -/

/-- The session of a request that executes is found again. -/
theorem findSession_executing {s : State} {rq : Req} {se : Session} (h : findSession s rq.sess = some se) :
    findSession (executing rq se s) rq.sess = some (advanced rq se) := by
  have hid : se.id = rq.sess := findSession_id h
  have hkeep : ((fun x : Session => x.id == rq.sess) ∘ fun x => if x.id == se.id then advanced rq se else x) =
      fun x => x.id == rq.sess := by
    funext x
    by_cases hx : x.id = se.id
    · simp [hx]
    · simp [hx]
  unfold findSession at h ⊢
  refine (List.find?_map ..).trans ?_
  refine (congrArg (Option.map _) ((congrArg (s.fnet.sessions.find? ·) hkeep).trans h)).trans ?_
  simp [advanced]

theorem runAttest_found {s : State} {rq : Req} {se : Session} (nonce : BitVec 256) (h : findSession s rq.sess = some se) :
    runAttest rq nonce s = answered rq stOk s.bell.number (attest se.role nonce s) := by
  unfold runAttest
  rw [h]
  rfl

/-! Reeve cores (R946 to R948). -/

/-- What a lost core leaves before its fault: the core is lost, and with core 3 the DRBG is. -/
def coreGone (c : Fin 4) (s : State) : State :=
  let s := modCore c (fun x => { x with lost := true, lostAt := some s.bell.now }) s
  if c.val = 3 then modBoot (fun b => { b with seeded := false }) s else s

theorem loseCore_eq (c : Fin 4) (s : State) :
    loseCore c s = if s.boot.cores[c].lostAt.any (fun t => s.bell.now < t + tenSeconds)
      then coldState (deviceFatal [.coreLost] (coreGone c s)) else deviceFatal [.coreLost] (coreGone c s) := rfl

theorem coreGone_cores (c : Fin 4) (s : State) : (coreGone c s).boot.cores =
    upd s.boot.cores c (fun x => { x with lost := true, lostAt := some s.bell.now }) := by
  unfold coreGone; dsimp only; split <;> rfl

theorem coreGone_dev (c : Fin 4) (s : State) : (coreGone c s).dev = s.dev := by
  unfold coreGone; dsimp only; split <;> rfl

theorem reeveCoreLost_running {s : State} {c : Fin 4} (hrel : s.boot.cores[c].released = true)
    (hlost : s.boot.cores[c].lost = false) : exec (.reeveCoreLost c) s = .next (loseCore c s) :=
  congrArg Host.Outcome.next (if_pos (by rw [hrel, hlost]; rfl))

/-- The first loss of a core is one DEVICE_FATAL fault (R947). -/
theorem loseCore_first {s : State} {c : Fin 4} (h : s.boot.cores[c].lostAt = none) :
    let t := loseCore c s
    t.boot.cores[c].lost = true ∧ t.dev.fatal = true ∧ t.dev.faults = s.dev.faults + 1 ∧ (c = 3 → t.boot.seeded = false) := by
  intro t
  have ht : t = deviceFatal [.coreLost] (coreGone c s) := by
    show loseCore c s = _
    rw [loseCore_eq, h]
    exact if_neg Bool.false_ne_true
  obtain ⟨-, -, -, -, -, -, hcores, -, hseeded, -⟩ := deviceFatal_others [.coreLost] (coreGone c s)
  have hdev := deviceFatal_dev (c := .coreLost) (by decide) (coreGone c s)
  rw [ht]
  refine ⟨?_, by rw [hdev], by rw [hdev, coreGone_dev], fun hc => ?_⟩
  · rw [hcores, coreGone_cores]
    exact congrArg Core.lost (upd_same _ _ _)
  · have hthree : c.val = 3 := congrArg Fin.val hc
    rw [hseeded, coreGone, if_pos hthree]
    rfl

/-- A core that is back leaves the others, the queues and the Holdings as they are. -/
theorem coresBack_keeps (s : State) :
    (coresBack s).boot = s.boot ∧ (coresBack s).queues = s.queues ∧ (coresBack s).holdings = s.holdings := by
  unfold coresBack
  split <;> exact ⟨rfl, rfl, rfl⟩

/-- Settles O52: each reading of the source takes one branch; a lost core is one fault (`loseCore_first`) or a cold reset. -/
theorem entropyAndCoresAreWatched : Obligations.EntropyAndCoresAreWatched := by
  unfold Obligations.EntropyAndCoresAreWatched
  refine fun s => ⟨fun hruns => ⟨fun l hseed hl hst => ?_, fun l hseed hl hst hw => ?_, fun l hseed hl => ?_,
      fun l hl hseed => ?_, congrArg Host.Outcome.next (if_pos hruns)⟩,
    fun rq se nonce hg => ⟨fun hseed => ?_, fun hseed => ?_⟩, fun p b l hw => ?_,
    fun c hrel hlost => ⟨fun hfirst => ⟨_, reeveCoreLost_running hrel hlost, loseCore_first hfirst⟩, fun k hk hnow => ?_⟩,
    fun c hlost => ⟨?_, ?_⟩⟩
  · refine congrArg Host.Outcome.next ((if_neg ?_).trans ((if_neg ?_).trans (if_neg ?_))) <;> simp [hruns, hseed, hl, hst]
  · refine congrArg Host.Outcome.next ((if_neg ?_).trans ((if_neg ?_).trans ((if_pos hst).trans ?_)))
    · simp [hruns, hseed]
    · simp [hl]
    · unfold seedDrbg
      rw [hw]
      rfl
  · refine congrArg Host.Outcome.next ((if_neg ?_).trans (if_neg ?_)) <;> simp [hruns, hseed, hl]
  · refine congrArg Host.Outcome.next (((if_neg ?_).trans (if_pos ?_)).trans (if_pos hruns).symm) <;> simp [hruns, hseed, hl]
  · refine congrArg Host.Outcome.next (invokeReq_later hg rfl ((if_pos hseed).trans ?_))
    rw [runAttest_found nonce (findSession_executing ((accepts_parts (granted_parts hg).1).2.1))]
    rfl
  · exact congrArg Host.Outcome.next (invokeReq_later hg rfl (if_neg (by
      change ¬ s.boot.seeded = true
      simp [hseed])))
  · have hexec : exec .entropyWaitExpiry s = execEntropyWaitExpiry s := rfl
    rw [hexec, execEntropyWaitExpiry, hw]
  · refine ⟨_, reeveCoreLost_running hrel hlost, ?_⟩
    have hagain : (some k).any (fun t => decide (s.bell.now < t + tenSeconds)) = true := by
      rw [Option.any_some, tenSeconds]
      exact decide_eq_true hnow
    rw [loseCore_eq, hk, if_pos hagain]
    rfl
  · obtain ⟨hboot, hq, hh⟩ := coresBack_keeps (modCore c (fun x => { x with lost := false }) s)
    refine ⟨_, congrArg Host.Outcome.next ((if_neg (by rw [hlost]; exact Bool.false_ne_true)).trans (if_pos rfl)), ?_,
      fun k hk => ?_, hq, hh⟩
    · rw [hboot]
      exact congrArg Core.lost (upd_same _ _ _)
    · rw [hboot]
      exact upd_other _ _ _ _ hk
  · exact ⟨_, congrArg Host.Outcome.next ((if_neg (by rw [hlost]; exact Bool.false_ne_true)).trans
      (if_neg Bool.false_ne_true)), rfl, rfl⟩

end Sys2Proof.Machine

namespace Sys2Proof.Machine
open Sys2Proof.Safety

/-! The end of a load, and all it does to its Holding, begins no other load. -/

@[simp] abbrev SameLoad (s t : State) : Prop := t.load = s.load

theorem SameLoad.trans {s t u : State} (h : SameLoad s t) (k : SameLoad t u) : SameLoad s u := Eq.trans k h

@[simp] theorem ite_load (c : Prop) [Decidable c] (a b : State) :
    (if c then a else b).load = if c then a.load else b.load := by
  split <;> rfl

@[simp] theorem eachFin_load (n : Nat) (f : Fin n → State → State) (s : State)
    (h : ∀ i t, SameLoad t (f i t)) :
    SameLoad s (eachFin n f s) := eachFin_rel SameLoad (by simp) (fun _ _ _ => SameLoad.trans) n f s h
@[simp] theorem eachOf_load {α : Type} (l : List α) (f : α → State → State) (s : State)
    (h : ∀ i t, SameLoad t (f i t)) :
    SameLoad s (eachOf l f s) := eachOf_rel SameLoad (by simp) (fun _ _ _ => SameLoad.trans) l f s h
@[simp] theorem latch_load (r : Rec) (s : State) : SameLoad s (latch r s) := by
  unfold latch; simp
@[simp] theorem raiseVec_load (f : Fin 33) (v : Nat) (s : State) : SameLoad s (raiseVec f v s) := by
  unfold raiseVec; simp
@[simp] theorem addLossPending_load (q : Fin 256) (n : Nat) (s : State) :
    SameLoad s (addLossPending q n s) := by
  unfold addLossPending; split <;> simp
@[simp] theorem afterAppend_load (q : Fin 256) (s : State) : SameLoad s (afterAppend q s) := by
  unfold afterAppend; simp
@[simp] theorem gapCount_load (q : Fin 256) (n : Nat) (s : State) : SameLoad s (gapCount q n s) := by
  unfold gapCount; dsimp only; repeat' split
  all_goals simp [*]
@[simp] theorem countDrop_load (q : Fin 256) (n : Nat) (s : State) : SameLoad s (countDrop q n s) := by
  unfold countDrop; simp
@[simp] theorem showTap_load (kind n : Nat) (e : TapEv) (s : State) : SameLoad s (showTap kind n e s) := by
  unfold showTap; simp
@[simp] theorem tapRewind_load (q : Fin 256) (s : State) : SameLoad s (tapRewind q s) := by
  unfold tapRewind; simp
@[simp] theorem lossReached_load (q : Fin 256) (n : Nat) (ended : Bool) (s : State) :
    SameLoad s (lossReached q n ended s) := by
  unfold lossReached; simp
@[simp] theorem rewindOpen_load (q : Fin 256) (s : State) : SameLoad s (rewindOpen q s) := by
  unfold rewindOpen; simp
@[simp] theorem commitMarker_load (q : Fin 256) (code arg : Nat) (s : State) :
    SameLoad s (commitMarker q code arg s) := by
  unfold commitMarker; simp
@[simp] theorem resyncReached_load (q : Fin 256) (gap : Nat) (recovery : Bool) (s : State) :
    SameLoad s (resyncReached q gap recovery s) := by
  unfold resyncReached; simp
@[simp] theorem commitItem_load (cb : Nat) (q : Fin 256) (it0 : Item) (s : State) :
    SameLoad s (commitItem cb q it0 s) := by
  unfold commitItem; simp
@[simp] theorem commitStaged_load (cb : Nat) (q : Fin 256) (l : List Staged) (n : Nat) (s : State) :
    SameLoad s (commitStaged cb q l n s).1 := by
  induction l generalizing n s with
  | nil => simp [commitStaged]
  | cons x l ih => cases x <;> (try cases n) <;> simp [commitStaged, ih]
@[simp] theorem leaveStaging_load (q : Fin 256) (n : Nat) (s : State) : SameLoad s (leaveStaging q n s) := by
  unfold leaveStaging; split <;> simp
@[simp] theorem commitN_load (q : Fin 256) (n : Nat) (s : State) : SameLoad s (commitN q n s) := by
  unfold commitN; simp
@[simp] theorem rewindPlace_load (q : Fin 256) (s : State) : SameLoad s (rewindPlace q s) := by
  unfold rewindPlace; simp
@[simp] theorem ringMessage_load (q : Fin 256) (s : State) : SameLoad s (ringMessage q s) := by
  unfold ringMessage; simp
@[simp] theorem writeBack_load (q : Fin 256) (t : Tally) (code : Byte) (s : State) :
    SameLoad s (writeBack q t code s) := by
  unfold writeBack; simp
@[simp] theorem sendForced_load (q : Fin 256) (a0 : Nat) (s : State) : SameLoad s (sendForced q a0 s) := by
  induction a0 generalizing s with
  | zero => simp [sendForced]
  | succ n ih =>
    unfold sendForced; repeat' split
    all_goals simp [ih]
@[simp] theorem forceTallies_load (q : Fin 256) (code : Byte) (s : State) :
    SameLoad s (forceTallies q code s) := by
  unfold forceTallies; simp
@[simp] theorem pf0Respond_load (k : Fin 8) (msg : List Byte) (len : Nat) (s : State) :
    SameLoad s (pf0Respond k msg len s) := by
  unfold pf0Respond; simp
@[simp] theorem ssp1Respond_load (msg : List Byte) (len : Nat) (s : State) :
    SameLoad s (ssp1Respond msg len s) := by
  unfold ssp1Respond; simp
@[simp] theorem noResponse_load (p : Path) (s : State) : SameLoad s (noResponse p s) := by
  unfold noResponse; split <;> simp
@[simp] theorem pf0Notice_load (msg : List Byte) (len : Nat) (s : State) :
    SameLoad s (pf0Notice msg len s) := by
  unfold pf0Notice; simp
@[simp] theorem ssp1Notice_load (msg : List Byte) (s : State) : SameLoad s (ssp1Notice msg s) := by
  unfold ssp1Notice; simp
@[simp] theorem sendNotice_load (p : Path) (sess ctr : BitVec 32) (inner : List Byte) (s : State) :
    SameLoad s (sendNotice p sess ctr inner s) := by
  unfold sendNotice; split <;> simp
@[simp] theorem closeSession_load (se : Session) (reason : Byte) (s : State) :
    SameLoad s (closeSession se reason s) := by
  unfold closeSession; simp
@[simp] theorem sendResponse_load (p : Path) (sess ctr : BitVec 32) (inner : List Byte) (s : State) :
    SameLoad s (sendResponse p sess ctr inner s) := by
  unfold sendResponse; split <;> simp
@[simp] theorem respond_load (rq : Req) (op st ty : Byte) (bell : BellNo) (body : List Byte) (s : State) :
    SameLoad s (respond rq op st ty bell body s) := by
  unfold respond; split <;> simp
@[simp] theorem invokeDone_load (rq : Option Req) (st : Byte) (b : BellNo) (s : State) :
    SameLoad s (invokeDone rq st b s) := by
  unfold invokeDone; split <;> simp
@[simp] theorem unforce_load (h : Fin 32) (s : State) : SameLoad s (unforce h s) := by
  unfold unforce; exact eachOf_load _ _ _ fun _ _ => by simp
@[simp] theorem endSnapshot_load (st : SnapState) (code : Byte) (s : State) :
    SameLoad s (endSnapshot st code s) := by
  unfold endSnapshot; split <;> simp
@[simp] theorem endRestore_load (st : SnapState) (code : Byte) (s : State) :
    SameLoad s (endRestore st code s) := by
  unfold endRestore; split <;> simp
@[simp] theorem cutJobs_load (h : Fin 32) (s : State) : SameLoad s (cutJobs h s) := by
  unfold cutJobs; dsimp only; repeat' split
  all_goals simp [*]
@[simp] theorem mbxPut_load (i : Fin 33) (v : BitVec 128) (s : State) : SameLoad s (mbxPut i v s) := by
  unfold mbxPut; simp
@[simp] theorem mailbox_load (e : Ev) (h : Fin 32) (data : Word) (s : State) :
    SameLoad s (mailbox e h data s) := by
  unfold mailbox; simp
@[simp] theorem post_load (e : Ev) (h : Fin 32) (data : Word) (s : State) : SameLoad s (post e h data s) := by
  unfold post; simp
@[simp] theorem busyAnswer_load (rq : Option Req) (s : State) : SameLoad s (busyAnswer rq s) := by
  unfold busyAnswer; simp
@[simp] theorem dropPending_load (keepClears : Bool) (h : Fin 32) (s : State) :
    SameLoad s (dropPending keepClears h s) := by
  unfold dropPending; simp
@[simp] theorem cutFreezes_load (h : Fin 32) (s : State) : SameLoad s (cutFreezes h s) := by
  unfold cutFreezes; simp
@[simp] theorem refreshHedges_load (s : State) : SameLoad s (refreshHedges s) := by
  unfold refreshHedges; simp
@[simp] theorem setState_load (h : Fin 32) (st : HState) (s : State) : SameLoad s (setState h st s) := by
  unfold setState; simp
@[simp] theorem openSector_load (i : Nat) (s : State) : SameLoad s (openSector i s) := by
  unfold openSector; simp
theorem placeRecord_load (n : Nat) (s t : State) (a : Nat) (h : placeRecord n s = some (t, a)) : SameLoad s t := by
  unfold placeRecord at h; repeat' split at h
  all_goals simp at h
  all_goals (obtain ⟨rfl, -⟩ := h; simp)
@[simp] theorem flashRun_load (l : List FlashOp) (s : State) : SameLoad s (flashRun l s) := by
  induction l generalizing s with
  | nil => simp [flashRun]
  | cons o l ih => cases o <;> simp [flashRun, ih]
@[simp] theorem flashStart_load (s : State) : SameLoad s (flashStart s) := by
  unfold flashStart; repeat' split
  · simp
  · exact eachOf_load _ _ _ fun _ _ => rfl
  · simp
@[simp] theorem flashPush_load (o : FlashOp) (s : State) : SameLoad s (flashPush o s) := by
  unfold flashPush; simp
@[simp] theorem appendRecord_load (tag ix : BitVec 16) (sub ty : BitVec 8) (value : List Byte) (s : State) :
    SameLoad s (appendRecord tag ix sub ty value s) := by
  unfold appendRecord; dsimp only; split
  · simp
  · rename_i t a h; simp [placeRecord_load _ _ _ _ h]
@[simp] theorem storeEpoch_load (h : Fin 32) (s : State) : SameLoad s (storeEpoch h s) := by
  unfold storeEpoch; simp
@[simp] theorem closeSessions_load (p : Session → Bool) (reason : Byte) (s : State) :
    SameLoad s (closeSessions p reason s) := by
  unfold closeSessions; simp
@[simp] theorem rampPlot_load (p : Fin 64) (mv : Nat) (s : State) : SameLoad s (rampPlot p mv s) := by
  unfold rampPlot; simp
@[simp] theorem startRegulator_load (p : Fin 64) (s : State) : SameLoad s (startRegulator p s) := by
  unfold startRegulator; simp
@[simp] theorem callForRestart_load (p : Fin 64) (s : State) : SameLoad s (callForRestart p s) := by
  unfold callForRestart; simp
@[simp] theorem clearPlot_load (p : Fin 64) (s : State) : SameLoad s (clearPlot p s) := by
  unfold clearPlot; simp
@[simp] theorem answerWaiting_load (ep : Bool) (p : Fin 64) (s : State) :
    SameLoad s (answerWaiting ep p s) := by
  unfold answerWaiting; simp
@[simp] theorem enterClearing_load (h : Fin 32) (s : State) : SameLoad s (enterClearing h s) := by
  unfold enterClearing; refine SameLoad.trans ?_ (eachOf_load _ _ _ fun _ _ => ?_) <;> simp
@[simp] theorem updateItemsHeld_load (h : Fin 32) (s : State) : SameLoad s (updateItemsHeld h s) := by
  unfold updateItemsHeld; simp
@[simp] theorem unbindQueue_load (q : Fin 256) (edge : Nat) (s : State) :
    SameLoad s (unbindQueue q edge s) := by
  unfold unbindQueue; simp
@[simp] theorem unbindRing_load (q : Fin 256) (s : State) : SameLoad s (unbindRing q s) := by
  unfold unbindRing; simp
@[simp] theorem unbindWhole_load (q : Fin 256) (edge : Nat) (s : State) :
    SameLoad s (unbindWhole q edge s) := by
  unfold unbindWhole; simp
@[simp] theorem unbindDeclared_load (h : Fin 32) (s : State) : SameLoad s (unbindDeclared h s) := by
  unfold unbindDeclared; simp
@[simp] theorem rampHolding_load (h : Fin 32) (mv : Nat) (s : State) : SameLoad s (rampHolding h mv s) := by
  unfold rampHolding; simp
@[simp] theorem backToEmpty_load (h : Fin 32) (s : State) : SameLoad s (backToEmpty h s) := by
  unfold backToEmpty
  have hpass : ∀ l : List (Fin 64), SameLoad s (eachOf l (fun p t => modPlot p (fun x => { x with passWait := .none }) t) s) :=
    fun l => eachOf_load _ _ _ fun _ _ => rfl
  simp [hpass]
/-- A load that fails is over. -/
theorem failLoad_load (code : Byte) (toClearing : Bool) (s : State) : (failLoad code toClearing s).load = none := by
  unfold failLoad
  split
  · assumption
  · extract_lets s₁ s₂ s₃ s₄ s₅
    have h₅ : s₅.load = none := by
      refine Eq.trans (eachOf_load _ _ _ fun _ _ => rfl) ?_
      simp [s₄, s₃, s₂, s₁]
    clear_value s₅
    split
    · exact h₅
    split
    · simp [h₅]
    · simp [h₅]

end Sys2Proof.Machine

namespace Sys2Proof.Machine
open Sys2Proof.Safety

/-! The loader (R773, R787, Table 15-7). -/

/-- Bytes that the header still misses, from a stream no chunk of which ends with them (R773). -/
theorem takeBytes_header {s : State} {l : Load} (hl : s.load = some l) (hc : l.chunks = []) :
    takeBytes l l.avail.length s = modHolding l.h (fun x => { x with
        loadBytes := BitVec.ofNat 32 (l.taken.length + l.avail.length) })
      { s with load := some { l with taken := l.taken ++ l.avail, avail := [], lastProgress := s.bell.edges } } := by
  unfold takeBytes
  simp [modLoad, hl, hc, eachOf]

/-- With no more than the header's bytes at hand, the loader takes them all and waits. -/
theorem runLoader_header {s : State} {l : Load} (n : Nat) (hl : s.load = some l) (hb : l.begun = true) (hs : l.step = 0)
    (hlen : l.taken.length + l.avail.length < 352) (hne : l.avail ≠ []) (he : l.ended = false) (hc : l.chunks = []) :
    runLoader (n + 2) s = modHolding l.h (fun x => { x with
        loadBytes := BitVec.ofNat 32 (l.taken.length + l.avail.length) })
      { s with load := some { l with taken := l.taken ++ l.avail, avail := [], lastProgress := s.bell.edges } } := by
  have hpos : l.avail.length ≠ 0 := fun h0 => hne (List.length_eq_zero_iff.mp h0)
  have hstep : loadStep l s = none := by
    unfold loadStep
    rw [hs]
    exact if_pos (by omega)
  have hlimit : takeLimit s l = 352 := if_pos (by omega)
  have hwait : ∀ t : State, t.load = some { l with
      taken := l.taken ++ l.avail, avail := [], lastProgress := s.bell.edges } → runLoader (n + 1) t = t := by
    intro t ht
    unfold runLoader
    rw [ht]
    simp [hb, hs, he, loadStep, hlen]
  rw [runLoader, hl]
  refine (if_neg (by simp [hb])).trans ?_
  rw [hstep, hlimit]
  have hmin : min (352 - l.taken.length) l.avail.length = l.avail.length := by omega
  dsimp only
  rw [hmin, if_pos hpos, takeBytes_header hl hc]
  exact hwait _ rfl

/-- A header that does not fit ends the load (R782). -/
theorem runLoader_mismatch {s : State} {l : Load} (n : Nat) (hl : s.load = some l) (hb : l.begun = true) (hs : l.step = 0)
    (hlen : l.taken.length = 352) (hh : headerOk s l = false) : runLoader (n + 2) s = failLoad stMismatch false s := by
  have hstep : loadStep l s = some (failLoad stMismatch false s) := by
    unfold loadStep
    rw [hs, hlen, hh]
    rfl
  rw [runLoader, hl]
  dsimp only
  rw [hb, hstep]
  dsimp only
  rw [runLoader, failLoad_load]
  rfl

/-- Settles O53: the loader takes what the header misses and waits (`runLoader_header`), or ends the load (`runLoader_mismatch`). -/
theorem loadsRunTheirSteps : Obligations.LoadsRunTheirSteps := by
  unfold Obligations.LoadsRunTheirSteps
  refine ⟨fun s rq se h hg => ⟨fun href => ?_, fun st href => ?_⟩, fun s l hl hb hs hrev => ⟨?_, ?_⟩,
    fun s rq se h l b hg hl hc hh hne hlen => ?_, fun s l n hl hc hb hs => ⟨fun hlen hne he hch => ?_, fun hlen hh => ?_⟩,
    fun s l hl hb hs hw hlate => ?_⟩
  · exact congrArg Host.Outcome.next (invokeReq_later hg href rfl)
  · exact congrArg Host.Outcome.next (invokeReq_refused hg href)
  · have hexec : exec (.signatureVerified true) s = execSignatureVerified true s := rfl
    rw [hexec, execSignatureVerified, hl]
    refine congrArg Host.Outcome.next ((if_neg ?_).trans ((if_neg ?_).trans ((if_pos rfl).trans ?_)))
    · simp [hb, hs]
    · simp [hrev]
    · rw [modLoad, hl]
      rfl
  · have hexec : exec (.signatureVerified false) s = execSignatureVerified false s := rfl
    rw [hexec, execSignatureVerified, hl]
    refine congrArg Host.Outcome.next ((if_neg ?_).trans ((if_neg ?_).trans (if_neg Bool.false_ne_true)))
    · simp [hb, hs]
    · simp [hrev]
  · have hcheck := (granted_parts hg).2
    have hrefuse : chunkRefusal (executing rq se s) h = none := by
      unfold chunkRefusal
      exact if_pos (show s.load.any (fun l => l.chunk && l.h == h) = true by simp [hl, hc, hh])
    have hshort : decide (b.length ≤ 1024) = true := decide_eq_true hlen
    refine congrArg Host.Outcome.next ((serve_accepts _ (granted_parts hg).1).trans ?_)
    rw [advanced_role, hshort]
    dsimp only
    rw [hcheck, hrefuse]
    rw [show (executing rq se s).load = some l from hl]
    refine (if_neg (by simpa using hne)).trans ?_
    rw [modLoad, show (executing rq se s).load = some l from hl]
    rfl
  · have hexec : exec (.imageBytesTaken n) s = execImageBytesTaken n s := rfl
    rw [hexec, execImageBytesTaken, hl]
    refine congrArg Host.Outcome.next ((if_pos hc).trans ?_)
    rw [loader, hl]
    exact runLoader_header _ hl hb hs hlen hne he hch
  · have hexec : exec (.imageBytesTaken n) s = execImageBytesTaken n s := rfl
    rw [hexec, execImageBytesTaken, hl]
    refine ⟨_, congrArg Host.Outcome.next ((if_pos hc).trans ?_), rfl, failLoad_load _ _ _⟩
    rw [loader, hl]
    exact runLoader_mismatch _ hl hb hs hlen hh
  · have hexec : exec .loadStall s = execLoadStall s := rfl
    rw [hexec, execLoadStall, hl]
    exact congrArg Host.Outcome.next (if_pos (by simp [hb, hs, hw, stalled, hlate]))

end Sys2Proof.Machine

namespace Sys2Proof.Machine
open Sys2Proof.Safety

/-! Loops over the parts of the device. -/

theorem eachOf_keeps {α : Type} (P : State → Prop) (f : α → State → State) (h : ∀ i t, P t → P (f i t)) (l : List α)
    {s : State} (hs : P s) : P (eachOf l f s) := by
  induction l generalizing s with
  | nil => exact hs
  | cons a l ih => exact ih (h a s hs)

/-- What one step reaches and the others keep holds after the loop. -/
theorem eachFin_reaches {n : Nat} (P : State → Prop) (f : Fin n → State → State) (p : Fin n) (hp : ∀ t, P (f p t))
    (h : ∀ i t, P t → P (f i t)) (s : State) : P (eachFin n f s) := by
  have hloop : ∀ (l : List (Fin n)), p ∈ l → ∀ s, P (eachOf l f s) := by
    intro l hmem
    induction l with
    | nil => cases hmem
    | cons a l ih =>
      intro s
      rcases List.mem_cons.mp hmem with rfl | hmem
      · exact eachOf_keeps P f h l (hp s)
      · exact ih hmem (f a s)
  exact hloop _ (List.mem_finRange p) s

/-! The Ledger's scrub (R796). -/

/-- Rewriting words of a memory, each key once, gives each its new word and leaves the other keys. -/
theorem memGet_rewritten {w : Nat} (g : BitVec w → BitVec w) (l : Mem w) (hl : (l.map Prod.fst).Nodup) {m : Mem w}
    (hm : memWf m = true) :
    (∀ e ∈ l, memGet (l.foldl (fun m e => memSet m e.1 (g e.2)) m) e.1 = g e.2) ∧
      ∀ k, (∀ e ∈ l, e.1 ≠ k) → memGet (l.foldl (fun m e => memSet m e.1 (g e.2)) m) k = memGet m k := by
  induction l generalizing m with
  | nil => exact ⟨fun e he => absurd he List.not_mem_nil, fun k _ => rfl⟩
  | cons e l ih =>
    obtain ⟨hnew, hl⟩ := List.nodup_cons.mp hl
    obtain ⟨hin, hout⟩ := ih hl (memSet_wf e.1 (g e.2) hm)
    refine ⟨fun x hx => ?_, fun k hk => ?_⟩
    · rcases List.mem_cons.mp hx with rfl | hx
      · refine (hout x.1 fun y hy h => hnew (h ▸ List.mem_map_of_mem hy)).trans (memGet_memSet_same hm _ _)
      · exact hin x hx
    · exact (hout k fun y hy => hk y (List.mem_cons_of_mem _ hy)).trans
        (memGet_memSet_other hm _ (hk e List.mem_cons_self).symm)

theorem memWf_keys {w : Nat} {m : Mem w} (h : memWf m = true) : (m.map Prod.fst).Nodup := by
  induction m with
  | nil => exact List.nodup_nil
  | cons e m ih =>
    obtain ⟨-, habove, hm⟩ := (memWf_cons e.1 e.2 m).mp h
    refine List.nodup_cons.mpr ⟨fun hmem => ?_, ih hm⟩
    obtain ⟨x, hx, hkey⟩ := List.mem_map.mp hmem
    exact absurd (habove x hx) (by omega)

theorem memGet_absent {w : Nat} {m : Mem w} {k : Nat} (h : ∀ e ∈ m, e.1 ≠ k) : memGet m k = 0 := by
  induction m with
  | nil => rfl
  | cons e m ih =>
    have hk := h e List.mem_cons_self
    have hrest := ih fun x hx => h x (List.mem_cons_of_mem _ hx)
    rw [memGet]
    simp [hk, hrest]

/-- A scrub of pages without a UE corrects each slot in place. -/
theorem ledgerScrub_corrects {s : State} (hue : ∀ e ∈ s.ledger.pages, slotUe e.2 = false) :
    scrubLedger s = { s with ledger := { s.ledger with
      pages := s.ledger.pages.foldl (fun m e => memSet m e.1 (slotCorrected e.2)) s.ledger.pages } } := by
  have hbad : s.ledger.pages.filter (fun e => slotUe e.2) = [] :=
    List.filter_eq_nil_iff.mpr fun e he => by simp [hue e he]
  unfold scrubLedger
  dsimp only
  rw [hbad]
  rfl

/-! Sensors and trips (R804, R989). -/

/-- Sampling a Plot writes its code and keeps who owns it, the other Plots and the queues. -/
theorem samplePlot_sampled (v : Sensors) (p : Fin 64) (s : State) :
    (samplePlot v p s).plots[p].temp = v.plotTemp[p] ∧ (samplePlot v p s).plots[p].owner = s.plots[p].owner ∧
      (∀ k, k ≠ p → (samplePlot v p s).plots[k] = s.plots[k]) ∧ (samplePlot v p s).queues = s.queues := by
  unfold samplePlot
  extract_lets s₁ x tele s₂
  have hsame : s₁.plots[p].temp = v.plotTemp[p] ∧ s₁.plots[p].owner = s.plots[p].owner := by
    simp [s₁, modPlot]
  have hother : ∀ k, k ≠ p → s₁.plots[k] = s.plots[k] := fun k hk => upd_other _ _ _ _ hk
  have hplots : s₂.plots = s₁.plots := rfl
  have hqueues : s₂.queues = s.queues := rfl
  clear_value s₂ s₁
  split
  · refine ⟨?_, ?_, fun k hk => ?_, hqueues⟩
    · simpa [startRegulator, hplots] using hsame.1
    · simpa [startRegulator, hplots] using hsame.2
    · exact (upd_other _ _ _ _ hk).trans ((congrArg (·[k]) hplots).trans (hother k hk))
  · have hat := fun k : Fin 64 => congrArg (·[k]) hplots
    exact ⟨(congrArg Plot.temp (hat p)).trans hsame.1, (congrArg Plot.owner (hat p)).trans hsame.2,
      fun k hk => (hat k).trans (hother k hk), hqueues⟩

/-- The end of a sample: totals and ALERT_N. -/
theorem thermalAlert_keeps (s : State) :
    (thermalAlert s).plots = s.plots ∧ (thermalAlert s).queues = s.queues ∧
      (thermalAlert s).tele.package = s.tele.package ∧ (thermalAlert s).tele.vinMa = s.tele.vinMa := by
  unfold thermalAlert
  dsimp only
  split
  · unfold thermalRecord
    rw [record_eq]
    exact ⟨rfl, rfl, rfl, rfl⟩
  · split
    · unfold thermalRecord
      rw [record_eq]
      exact ⟨rfl, rfl, rfl, rfl⟩
    · exact ⟨rfl, rfl, rfl, rfl⟩

/-- The readings outside the Plots. -/
def otherReadings (v : Sensors) (s : State) : State :=
  { s with
    quads := Vector.ofFn fun n : Fin 12 => { s.quads[n] with temp := if s.pins.vsd then v.quadTemp[n] else 0 },
    tele := { s.tele with package := v.package, vinMa := v.vinMa } }

theorem sampleSensors_eq (v : Sensors) (s : State) :
    sampleSensors v s = thermalAlert (eachFin 32 sampleHolding (otherReadings v (eachFin 64 (samplePlot v) s))) := rfl

theorem sampleSensors_sampled (v : Sensors) (s : State) :
    let t := sampleSensors v s
    t.tele.package = v.package ∧ t.tele.vinMa = v.vinMa ∧
      (∀ p : Fin 64, t.plots[p].temp = v.plotTemp[p] ∧ t.plots[p].owner = s.plots[p].owner) ∧ t.queues = s.queues := by
  intro t
  have hloop : (∀ p : Fin 64, (eachFin 64 (samplePlot v) s).plots[p].temp = v.plotTemp[p]) ∧
      (∀ p : Fin 64, (eachFin 64 (samplePlot v) s).plots[p].owner = s.plots[p].owner) ∧
      (eachFin 64 (samplePlot v) s).queues = s.queues := by
    refine ⟨fun p => eachFin_reaches (fun t => t.plots[p].temp = v.plotTemp[p]) _ p
      (fun t => (samplePlot_sampled v p t).1) (fun i t ht => ?_) s, ?_, ?_⟩
    · by_cases hi : p = i
      · subst hi
        exact (samplePlot_sampled v p t).1
      · exact (congrArg Plot.temp ((samplePlot_sampled v i t).2.2.1 p hi)).trans ht
    · refine eachFin_rel (fun s t => ∀ p : Fin 64, t.plots[p].owner = s.plots[p].owner) (fun _ _ => rfl)
        (fun _ _ _ h k p => (k p).trans (h p)) 64 _ s fun i t p => ?_
      by_cases hi : p = i
      · subst hi
        exact (samplePlot_sampled v p t).2.1
      · exact congrArg Plot.owner ((samplePlot_sampled v i t).2.2.1 p hi)
    · exact eachFin_rel (fun s t => t.queues = s.queues) (fun _ => rfl) (fun _ _ _ h k => k.trans h) 64 _ s
        fun i t => (samplePlot_sampled v i t).2.2.2
  have htotals : ∀ u : State, (eachFin 32 sampleHolding u).plots = u.plots ∧ (eachFin 32 sampleHolding u).queues = u.queues ∧
      (eachFin 32 sampleHolding u).tele = u.tele := fun u =>
    eachFin_rel (fun s t => t.plots = s.plots ∧ t.queues = s.queues ∧ t.tele = s.tele) (fun _ => ⟨rfl, rfl, rfl⟩)
      (fun _ _ _ h k => ⟨k.1.trans h.1, k.2.1.trans h.2.1, k.2.2.trans h.2.2⟩) 32 _ u fun _ _ => ⟨rfl, rfl, rfl⟩
  obtain ⟨htemp, howner, hq⟩ := hloop
  have ht : t = _ := sampleSensors_eq v s
  generalize eachFin 64 (samplePlot v) s = s₁ at htemp howner hq ht
  obtain ⟨hplots, hqueues, hpackage, hvin⟩ := thermalAlert_keeps (eachFin 32 sampleHolding (otherReadings v s₁))
  obtain ⟨hplots', hqueues', htele⟩ := htotals (otherReadings v s₁)
  rw [ht]
  refine ⟨hpackage.trans (congrArg Tele.package htele), hvin.trans (congrArg Tele.vinMa htele), fun p => ?_,
    hqueues.trans (hqueues'.trans hq)⟩
  rw [hplots, hplots']
  exact ⟨htemp p, howner p⟩

/-- What a thermal trip leaves of a Plot that no Holding owns (R989). -/
def trippedPlot (x : Plot) : Plot :=
  { x with
    overcur := false, undervolt := false, tripped := true, ramping := false, regOn := false, settling := false,
    calibrated := false, calRunning := false, calDue := false, passWait := .none, voltMv := 0, unfit := true }

theorem tripPlot_unowned {s : State} {p : Fin 64} (h : s.plots[p].owner = 0) :
    ∃ l, tripPlot p s = { modPlot p trippedPlot s with ledger := l } := by
  unfold tripPlot
  dsimp only
  rw [h]
  simp only [Fin.val_zero, decide_true, Bool.true_or, if_true, faultHolding_zero]
  rw [(record_onlyLedger _ _ _ _).eq, (record_onlyLedger evThermalAlert _ _ _).eq]
  simp [stopRegulator, modPlot_modPlot, modPlot_modLedger]
  exact ⟨_, rfl⟩

/-- A word of the configuration is scrubbed (R793, R794). -/
theorem configScrub_eq (p : Fin 64) (s : State) :
    let x := s.plots[p]
    let a := cfgPlace x.scrubWord
    let f := secRead (memGet x.config a)
    let on := fun m => modPlot p (fun x => { x with config := m, scrubWord := (x.scrubWord + 1) % 16464 }) s
    configScrub p s = if f.ce then limited evConfigCe p.val 1 (on (memSet x.config a (secWord f.data)))
      else if f.ue then setUnfit p (record evConfigUe x.owner (BitVec.ofNat 48 (p.val * 2 ^ 40 + a)) (on x.config))
      else on x.config := by
  intro x a f on
  have hon : modPlot p (fun x => { x with
      config := if f.ce then memSet x.config a (secWord f.data) else x.config, scrubWord := (x.scrubWord + 1) % cfgWords }) s =
      on (if f.ce then memSet x.config a (secWord f.data) else x.config) := modPlot_congr rfl
  have howner : (on x.config).plots[p].owner = x.owner := by
    show (upd s.plots p _)[p.val].owner = _
    rw [upd_same]
    rfl
  unfold configScrub
  extract_lets a' f' s'
  have hs' : s' = on (if f.ce then memSet x.config a (secWord f.data) else x.config) := hon
  change (if f.ce = true then limited evConfigCe p.val 1 s'
    else if f.ue = true then setUnfit p (record evConfigUe s'.plots[p].owner _ s') else s') = _
  rw [hs']
  by_cases hce : f.ce = true
  · rw [if_pos hce, if_pos hce, if_pos hce]
  · rw [if_neg hce, if_neg hce, if_neg hce, howner]

/-- Settles O54: each scrub, trim and trip is one change of its part (`configScrub_eq`, `ledgerScrub_corrects`,
`tripPlot_unowned`); a sample reaches every Plot and keeps owners and queues. -/
theorem backgroundWorkIsDone : Obligations.BackgroundWorkIsDone := by
  unfold Obligations.BackgroundWorkIsDone
  refine fun s => ⟨fun p hp => ?_, fun r l hin hlost hpage => ?_, fun hruns hwf hue => ?_, fun rq se hg => ?_,
    fun p mv hon hramp howner hruns => ?_, fun v => ?_, fun p hon htemp howner => ?_⟩
  · intro x a f on
    have hrun : exec (.configScrubWord p) s = .next (configScrub p s) := congrArg Host.Outcome.next (if_pos hp)
    rw [hrun, configScrub_eq]
    exact ⟨fun hce hue => congrArg Host.Outcome.next ((if_neg (Bool.not_eq_true _ ▸ hce)).trans (if_neg (Bool.not_eq_true _ ▸ hue))),
      fun hce => congrArg Host.Outcome.next (if_pos hce),
      fun hce hue => congrArg Host.Outcome.next ((if_neg (Bool.not_eq_true _ ▸ hce)).trans (if_pos hue))⟩
  · intro o
    have hexec : exec (.ledgerRecordWrite false) s = .next (intakeStep false s) := rfl
    rw [hexec, intakeStep, hin]
    have hplace : nextPlace (modLedger (fun x => { x with intake := l }) s) = some s.ledger.pos :=
      if_pos (by
        change (!s.ledger.lostPages.contains (s.ledger.pos / 256)) = true
        rw [hpage]
        rfl)
    have hwrite : writeRecord r (modLedger (fun x => { x with intake := l }) s) = modLedger (fun x => { x with
        intake := l, pages := memSet x.pages s.ledger.pos (ledgerSlot r), pos := (s.ledger.pos + 1) % 16384,
        written := x.written.set o (x.written[o] + 1) }) s := by
      rw [writeRecord, hplace]
      rfl
    refine congrArg Host.Outcome.next ?_
    dsimp only
    rw [if_neg Bool.false_ne_true, hwrite]
    exact if_pos (.inl hlost)
  · obtain ⟨hin, hout⟩ := memGet_rewritten slotCorrected s.ledger.pages (memWf_keys hwf) hwf
    exact ⟨_, congrArg Host.Outcome.next ((if_pos hruns).trans (ledgerScrub_corrects hue)), hin,
      fun k hk => (hout k hk).trans (memGet_absent hk)⟩
  · exact congrArg Host.Outcome.next (invokeReq_answered hg rfl (Prod.ext rfl (by
      dsimp only
      rw [bellNow, record_bell]
      rfl)))
  · refine congrArg Host.Outcome.next (if_neg ?_)
    have hnone : (s.plots[p].owner.val != 0) = false := by rw [howner]; rfl
    rw [hon, hramp, hnone, hruns]
    exact Bool.false_ne_true
  · obtain ⟨hpackage, hvin, hplots, hq⟩ := sampleSensors_sampled v s
    exact ⟨_, rfl, hpackage, hvin, hplots, fun q => by rw [hq]⟩
  · obtain ⟨l, hl⟩ := tripPlot_unowned (s := s) howner
    refine ⟨_, congrArg Host.Outcome.next ((if_pos ?_).trans hl), ?_⟩
    · rw [hon, decide_eq_true htemp]
      rfl
    · have hself : (upd s.plots p trippedPlot)[p.val] = trippedPlot s.plots[p] := upd_same _ _ _
      exact ⟨congrArg Plot.regOn hself, congrArg Plot.tripped hself, congrArg Plot.unfit hself,
        congrArg Plot.voltMv hself, fun k hk => upd_other _ _ _ _ hk⟩

end Sys2Proof.Machine

namespace Sys2Proof.Machine
open Sys2Proof.Safety

/-! The shut-down (R829 to R832). -/

theorem shutHolding_test (h : Fin 32) (s : State) : (shutHolding h s).test = s.test := by
  unfold shutHolding
  dsimp only
  split
  · rfl
  · exact (enterClearing_contained h s).2.2.2.1

/-- A shut-down is noted, and every lane is OFF. -/
theorem beginShutdown_shuts (rq : Req) (s : State) :
    (beginShutdown rq s).test.accepted = true ∧ (beginShutdown rq s).test.rq = some rq ∧
      ∀ l : Fin 48, (beginShutdown rq s).lanes[l].st = .off := by
  have hlanes : ∀ t : State, (eachFin 48 laneOff t).test = t.test := fun t =>
    eachFin_rel (fun s t => t.test = s.test) (fun _ => rfl) (fun _ _ _ h k => k.trans h) 48 _ t
      fun l t => (laneOff_lane l t).1.2.1
  have hholdings : ∀ t : State, (eachFin 32 shutHolding t).test = t.test := fun t =>
    eachFin_rel (fun s t => t.test = s.test) (fun _ => rfl) (fun _ _ _ h k => k.trans h) 32 _ t shutHolding_test
  have htest : (beginShutdown rq s).test = { s.test with accepted := true, rq := some rq } :=
    (hlanes _).trans (hholdings _)
  rw [htest]
  exact ⟨rfl, rfl, fun l => eachOf_laneOff_off (List.finRange 48) (.inl (List.mem_finRange l))⟩

/-! The slice (R836 to R841). -/

/-- Choosing a unit leaves what the slice has charged and found. -/
def SameFindings (x y : Slice) : Prop :=
  y.budget = x.budget ∧ y.charged = x.charged ∧ y.passed = x.passed ∧ y.failed = x.failed ∧ y.passes = x.passes

theorem SameFindings.trans {x y z : Slice} (h : SameFindings x y) (k : SameFindings y z) : SameFindings x z := by
  unfold SameFindings at *
  simp_all

theorem chooseExtra_findings (s : State) (l : List Nat) (x : Slice) : SameFindings x (chooseExtra s l x) := by
  induction l generalizing x with
  | nil => exact ⟨rfl, rfl, rfl, rfl, rfl⟩
  | cons k l ih =>
    unfold chooseExtra
    split
    · exact .trans ⟨rfl, rfl, rfl, rfl, rfl⟩ (ih _)
    · split
      · exact ⟨rfl, rfl, rfl, rfl, rfl⟩
      · exact ih x

theorem choosePos_findings (s : State) (n : Nat) (x : Slice) : SameFindings x (choosePos s n x) := by
  induction n generalizing x with
  | zero => exact ⟨rfl, rfl, rfl, rfl, rfl⟩
  | succ n ih =>
    unfold choosePos
    dsimp only
    split
    · exact .trans ⟨rfl, rfl, rfl, rfl, rfl⟩ (ih _)
    · split
      · exact ⟨rfl, rfl, rfl, rfl, rfl⟩
      · split
        · exact .trans ⟨rfl, rfl, rfl, rfl, rfl⟩ (ih _)
        · exact ⟨rfl, rfl, rfl, rfl, rfl⟩

theorem chooseUnit_findings (s : State) (x : Slice) : SameFindings x (chooseUnit s x) := by
  have hextra : SameFindings x (chooseExtra s x.extra { x with current := none }) :=
    .trans ⟨rfl, rfl, rfl, rfl, rfl⟩ (chooseExtra_findings s _ _)
  unfold chooseUnit
  dsimp only
  split
  · exact hextra
  · exact hextra.trans (choosePos_findings s _ _)

theorem endSlice_test (x : Slice) (s : State) : ∃ m,
    (endSlice x s).test = { s.test with slice := some { x with done := true, current := none }, unfitMask := m } := by
  have hclear : ∀ (l : List (Fin 64)) (t : State),
      (eachOf l (fun p t => if t.plots[p].owner = 0 then clearPlot p t else t) t).test = t.test := fun l t =>
    eachOf_rel (fun s t => t.test = s.test) (fun _ => rfl) (fun _ _ _ h k => k.trans h) l _ t fun p t => by
      split
      · exact (clearPlot_contained p t).2.2.2.1
      · rfl
  unfold endSlice
  extract_lets s₁ s₂ s₃
  have h₁ : s₁.test = s.test := by
    simp [s₁]
  have h₂ : s₂.test = s.test := by
    refine Eq.trans ?_ h₁
    simp only [s₂]
    split
    · simp
    · rfl
  exact ⟨unretire x s₂.test.unfitMask, (hclear _ _).trans (congrArg (fun y : SelfTest => { y with
    slice := some { x with done := true, current := none }, unfitMask := unretire x s₂.test.unfitMask }) h₂)⟩

/-- The slice goes on with what it has found. -/
theorem sliceNext_findings {s : State} {x : Slice} (h : s.test.slice = some x) :
    ∃ y, (sliceNext s).test.slice = some y ∧ SameFindings x y ∧ (sliceNext s).test.shut = s.test.shut := by
  have hchosen : SameFindings x (if x.abandon then { x with current := none } else chooseUnit s x) := by
    split
    · exact ⟨rfl, rfl, rfl, rfl, rfl⟩
    · exact chooseUnit_findings s x
  unfold sliceNext
  rw [h]
  dsimp only
  generalize (if x.abandon then { x with current := none } else chooseUnit s x) = y at hchosen
  split
  · exact ⟨y, rfl, hchosen, rfl⟩
  · obtain ⟨m, hm⟩ := endSlice_test y s
    rw [hm]
    exact ⟨_, rfl, hchosen.trans ⟨rfl, rfl, rfl, rfl, rfl⟩, rfl⟩

theorem beginSlice_begins (s : State) : ∃ x, (beginSlice s).test.slice = some x ∧
    x.budget = 1000 * s.test.sliceMs.toNat ∧ (beginSlice s).test.shut = s.test.shut := by
  unfold beginSlice
  extract_lets s₁ x₁
  have h₁ : s₁.test = s.test := by simp [s₁]
  obtain ⟨x, hx, ⟨hbudget, -⟩, hshut⟩ := sliceNext_findings (x := x₁)
    (s := modTest (fun t => { t with slice := some x₁, cands := [] }) s₁) rfl
  exact ⟨x, hx, hbudget.trans (congrArg (fun y : SelfTest => 1000 * y.sliceMs.toNat) h₁),
    hshut.trans (by
      have h := congrArg SelfTest.shut h₁
      exact h)⟩

/-- A unit of no kept Plot that passes is charged and counted (R841). -/
theorem endUnit_passes {s : State} {x : Slice} {k : Nat} (hx : s.test.slice = some x) (hab : x.abandon = false)
    (hkept : x.kept = false) : ∃ y, (endUnit k .pass x s).test.slice = some y ∧ y.passed = x.passed + 1 ∧
      y.failed = x.failed ∧ y.charged = x.charged + unitCharge s k ∧ k ∈ y.passes := by
  have heffect : unitEffect k x s = s := by
    unfold unitEffect
    split
    · rfl
    · rw [hkept]
      rfl
  have hrecord : recordOutcome k .pass (afterUnit k (unitCharge s k) x) = { afterUnit k (unitCharge s k) x with
      passed := x.passed + 1, passes := k :: x.passes } := if_neg (by
    change ¬ x.abandon = true
    rw [hab]
    exact Bool.false_ne_true)
  have hslice : (modSlice (fun y => recordOutcome k .pass (afterUnit k (unitCharge s k) y)) s).test.slice =
      some { afterUnit k (unitCharge s k) x with passed := x.passed + 1, passes := k :: x.passes } := by
    rw [← hrecord]
    exact congrArg (Option.map _) hx
  obtain ⟨y, hy, ⟨-, hcharged, hpassed, hfailed, hpasses⟩, -⟩ := sliceNext_findings hslice
  refine ⟨y, ?_, hpassed, hfailed, hcharged, hpasses ▸ List.mem_cons_self⟩
  unfold endUnit
  dsimp only
  rw [heffect]
  exact hy

/-! Run records (R857, R863). -/

/-- Of the self-test the spill area alone changes. -/
def OnlySpill (s t : State) : Prop := t.test = { s.test with spill := t.test.spill }

theorem OnlySpill.trans {s t u : State} (h : OnlySpill s t) (k : OnlySpill t u) : OnlySpill s u := by
  unfold OnlySpill at h k ⊢
  exact k.trans (congrArg (fun x : SelfTest => { x with spill := u.test.spill }) h)

theorem eraseOldest_spill (s : State) : OnlySpill s (eraseOldest s) := by
  unfold eraseOldest
  split
  · rfl
  · dsimp only
    split
    · rw [record_eq]
      rfl
    · rfl

theorem openSpill_spill (s : State) : OnlySpill s (openSpill s) := by
  unfold openSpill
  extract_lets s₁ last seq
  have h₁ : OnlySpill s s₁ := by
    unfold s₁
    split
    · rfl
    · exact eraseOldest_spill s
  split
  · exact h₁
  · exact h₁.trans (by rfl)

/-- A run record that is programmed counts (R857). -/
theorem appendRun_counts (b : List Byte) (fresh : Bool) (s : State) :
    ∃ x, (appendRun b fresh true s).test = { s.test with spill := x, runSeq := s.test.runSeq + 1 } := by
  unfold appendRun
  extract_lets s₁ i a s₂
  have h₁ : OnlySpill s s₁ := by
    unfold s₁
    split
    · exact openSpill_spill s
    · rfl
  have h₂ : OnlySpill s s₂ := h₁.trans (by rfl)
  exact ⟨s₂.test.spill, congrArg (fun x : SelfTest => { x with runSeq := x.runSeq + 1 }) h₂⟩

/-- The run record ends the shut-down (R832, R857). -/
theorem finishRun_answers {s : State} {x : Slice} {rq : Req} (h : s.test.rq = some rq) :
    ∃ t, finishRun x true true s = answered rq stOk s.bell.number t ∧ t.test.shut = true ∧ t.test.slice = none ∧
      t.test.coverage = BitVec.ofNat 32 x.pos ∧ t.test.runSeq = s.test.runSeq + 1 := by
  have hwrite : ∀ b, writeRun b true true s = appendRun b false true s := fun b => by
    unfold writeRun
    exact if_pos rfl
  unfold finishRun
  dsimp only
  rw [hwrite]
  generalize hb : runBytes s (resultsOf s x) s.test.pendingRepairs = b
  obtain ⟨a, ha⟩ := appendRun_counts b false s
  have hbell := appendRun_bell b false true s
  generalize appendRun b false true s = u at ha hbell
  have hu : u.test.rq = some rq := (congrArg SelfTest.rq ha).trans h
  unfold enterShut
  have hrq : (modTest (fun t => { t with coverage := BitVec.ofNat 32 x.pos, results := resultsOf s x }) u).test.rq = some rq := hu
  rw [hrq]
  refine ⟨_, congrArg (fun n => answered rq stOk n _) (congrArg Bell.number hbell), rfl, rfl, rfl, ?_⟩
  exact congrArg SelfTest.runSeq ha

/-- A fuse repair blows the pending repairs (R864). -/
theorem fuseRepairs_blown (s : State) : (fuseRepairs s).bell = s.bell ∧
    (fuseRepairs s).test.fuses = s.test.fuses ++ s.test.pendingRepairs ∧ (fuseRepairs s).test.pendingRepairs = [] := by
  unfold fuseRepairs
  extract_lets n s₁
  have htest : ∀ e h d (t : State), (record e h d t).test = t.test := fun e h d t => by simp
  obtain ⟨x, hx⟩ := appendRun_counts (runBytes s₁ s₁.test.results []) false s₁
  rw [htest, hx]
  exact ⟨by simp [s₁], rfl, rfl⟩

/-- Settles O55: a slice keeps what it has found while it chooses its next unit (`SameFindings`), and a run record changes the
spill area and its count. -/
theorem shutDownTestsAndRepairs : Obligations.ShutDownTestsAndRepairs := by
  unfold Obligations.ShutDownTestsAndRepairs
  refine fun s => ⟨fun rq se hg href => ⟨_, congrArg Host.Outcome.next (invokeReq_later hg href rfl), beginShutdown_shuts rq _⟩,
    fun hacc hshut hslice hkept => ⟨fun rq hen hrq => ?_, fun hen => ?_⟩, fun x k hx hk hab hkept => ?_,
    fun x rq hx hdone hclear hrq => ?_, fun rq se hg href => ?_⟩
  · refine congrArg Host.Outcome.next ((if_neg ?_).trans ((if_neg ?_).trans ?_))
    · rw [hacc, hshut, hslice, hkept]
      exact Bool.false_ne_true
    · rw [hen]
      exact Bool.false_ne_true
    · unfold enterShut
      rw [hrq]
      rfl
  · obtain ⟨x, hx, hbudget, hsh⟩ := beginSlice_begins s
    refine ⟨_, x, congrArg Host.Outcome.next ((if_neg ?_).trans (if_pos hen)), hx, hbudget, hsh.trans hshut⟩
    rw [hacc, hshut, hslice, hkept]
    exact Bool.false_ne_true
  · obtain ⟨y, h⟩ := endUnit_passes (k := k) hx hab hkept
    refine ⟨_, y, ?_, h⟩
    have hexec : exec (.testUnitEnd .pass) s = execTestUnitEnd .pass s := rfl
    rw [hexec, execTestUnitEnd, hx]
    dsimp only
    rw [hk]
  · obtain ⟨t, ht, h⟩ := finishRun_answers (x := x) hrq
    have hexec : exec (.runRecord true true) s = execRunRecord true true s := rfl
    refine ⟨t, ?_, h⟩
    rw [hexec, execRunRecord, hx]
    refine congrArg Host.Outcome.next ((if_pos ?_).trans ht)
    have hnone : s.plots.toList.any (·.clearing) = false := by
      rw [List.any_eq_false]
      intro y hy
      obtain ⟨i, hi, rfl⟩ := List.mem_iff_getElem.mp hy
      have hp := hclear ⟨i, by simpa using hi⟩
      simpa using hp
    rw [hdone, hnone]
    rfl
  · obtain ⟨hbell, hblown⟩ := fuseRepairs_blown (executing rq se s)
    refine ⟨_, congrArg Host.Outcome.next (invokeReq_answered hg href (Prod.ext rfl ?_)), hblown⟩
    dsimp only
    rw [bellNow, hbell]
    rfl

end Sys2Proof.Machine

namespace Sys2Proof.Machine
open Sys2Proof.Safety

/-- Step 0 of a muster when none is in progress (R886). -/
theorem stepZero_fresh {s : State} (h : s.village.inMuster = false) :
    stepZero s = modVillage (fun v => { v with
      inForce := v.manifest, inMuster := true, step := 0, words := []
      own := musterWord (modVillage (fun v => { v with inForce := v.manifest }) s)
      reg := musterWord (modVillage (fun v => { v with inForce := v.manifest }) s), lastStep0 := s.bell.edges }) s := by
  unfold stepZero
  rw [h]
  rfl

/-- Settles O56: each event of a muster takes one branch, and what it changes of the state is in the village. -/
theorem mustersRunTheirSteps : Obligations.MustersRunTheirSteps := by
  unfold Obligations.MustersRunTheirSteps
  refine fun s => ⟨fun rq se hg => congrArg Host.Outcome.next (invokeReq_answered hg rfl rfl),
    fun hst hsl hin hedge hnow => ?_, fun hst hsl hin hstep w => ?_, fun hin hstep => ?_, fun hsl hleft => ?_,
    fun hin hlate => ?_⟩
  · refine ⟨_, congrArg Host.Outcome.next (if_pos ?_), ?_⟩
    · simp [hst, hsl, hin, hedge, hnow]
    · rw [stepZero_fresh hin]
      exact ⟨rfl, rfl, rfl, rfl, rfl, rfl, rfl⟩
  · exact congrArg Host.Outcome.next (if_pos (by simp [hst, hsl, hin, hstep]))
  · exact congrArg Host.Outcome.next (if_neg (by simp [hin, hstep]))
  · exact congrArg Host.Outcome.next (if_pos (by simp [hsl, hleft]))
  · have hrec := record_eq evVillageLeave 0 (BitVec.ofNat 48 (ownMember s % 16)) (toJoining s)
    exact ⟨_, congrArg Host.Outcome.next ((if_pos (by simp [hin, hlate])).trans hrec)⟩

end Sys2Proof.Machine

namespace Sys2Proof.Machine
open Sys2Proof.Safety

/-! Supplies that fail (R996 to R999). -/

/-- The pins and the progress of boot stay. -/
def SamePins (s t : State) : Prop := t.pins = s.pins ∧ t.boot.phase = s.boot.phase

theorem SamePins.refl (s : State) : SamePins s s := ⟨rfl, rfl⟩

theorem SamePins.trans {s t u : State} (h : SamePins s t) (k : SamePins t u) : SamePins s u :=
  ⟨k.1.trans h.1, k.2.trans h.2⟩

theorem OnlyContained.samePins {s t : State} (h : OnlyContained s t) : SamePins s t := by
  obtain ⟨-, hpins, -, -, -, -, -, -, -, hphase, -⟩ := h
  exact ⟨hpins, hphase⟩

theorem record_pins (e : Ev) (h : Fin 32) (d : Word) (s : State) : SamePins s (record e h d s) := by
  rw [record_eq]
  exact ⟨rfl, rfl⟩

theorem stopRegulator_pins (p : Fin 64) (s : State) : SamePins s (stopRegulator p s) := ⟨rfl, rfl⟩

theorem eachFin_keeps {n : Nat} (P : State → Prop) (f : Fin n → State → State) (h : ∀ i t, P t → P (f i t)) {s : State}
    (hs : P s) : P (eachFin n f s) := eachOf_keeps P f h (List.finRange n) hs

theorem eachOf_pins {α : Type} {f : α → State → State} (h : ∀ i t, SamePins t (f i t)) (l : List α) (s : State) :
    SamePins s (eachOf l f s) := eachOf_rel SamePins SamePins.refl (fun _ _ _ => SamePins.trans) l f s h

theorem eachFin_pins {n : Nat} {f : Fin n → State → State} (h : ∀ i t, SamePins t (f i t)) (s : State) :
    SamePins s (eachFin n f s) := eachOf_pins h (List.finRange n) s

theorem deviceFatal_pins (c : List FatalCause) (s : State) : SamePins s (deviceFatal c s) := by
  obtain ⟨-, hpins, -, -, -, -, -, hphase, -⟩ := deviceFatal_others c s
  exact ⟨hpins, hphase⟩

theorem leaveActive_pins (l : Fin 48) (s : State) : SamePins s (leaveActive l s) := by
  unfold leaveActive
  split
  · exact .refl s
  · exact .trans (by exact ⟨rfl, rfl⟩) (post_contained _ _ _ _).samePins

theorem laneOff_pins (l : Fin 48) (s : State) : SamePins s (laneOff l s) := by
  have hlimva : SamePins s (limvaOff l s) := (leaveActive_pins l s).trans ⟨rfl, rfl⟩
  unfold laneOff
  split
  · exact hlimva
  · exact hlimva.trans ⟨rfl, rfl⟩

theorem pllLost_pins (n : Fin 12) (b : Bool) (s : State) : SamePins s (pllLost n b s) := by
  unfold pllLost
  refine .trans ?_ (eachOf_pins (fun h t => (faultHolding_contained h .lane t).samePins) _ _)
  refine .trans ?_ (eachOf_pins laneOff_pins _ _)
  exact .trans ⟨rfl, rfl⟩ (record_pins _ _ _ _)

theorem abandonTallies_pins (q : Fin 256) (event : Bool) (s : State) : SamePins s (abandonTallies q event s) := by
  unfold abandonTallies
  extract_lets r n s₁ s₂ host s₃
  have h₁ : SamePins s s₁ := by
    unfold s₁
    split
    · exact (rewindPlace_contained q s).samePins
    · exact .refl s
  have h₃ : SamePins s s₃ := h₁.trans ⟨rfl, rfl⟩
  split
  · exact .refl s
  · split
    · exact h₃.trans (post_contained _ _ _ _).samePins
    · exact h₃

theorem linkLost_pins (s : State) : SamePins s (linkLost s) := by
  unfold linkLost
  split
  · exact .refl s
  · dsimp only
    refine .trans ?_ (deviceFatal_pins _ _)
    refine .trans ?_ (eachFin_pins (fun q t => abandonTallies_pins q true t) _)
    exact .trans ⟨rfl, rfl⟩ (record_pins _ _ _ _)

theorem serdesFails_pins (s : State) : SamePins s (serdesFails s) := by
  have hlost : ∀ (n : Fin 12) (b c : Bool) (t : State), SamePins t (if c then pllLost n b t else t) := fun n b c t => by
    split
    · exact pllLost_pins n b t
    · exact .refl t
  exact (eachFin_pins (fun n t => (hlost n false _ t).trans (hlost n true _ _)) s).trans (linkLost_pins _)

theorem regulatorFault_pins (p : Fin 64) (c : Bool) (s : State) : SamePins s (regulatorFault p c s) := by
  unfold regulatorFault
  extract_lets h s₁ s₂ s₃ s₄
  have h₁ : SamePins s s₁ := ⟨rfl, rfl⟩
  have h₃ : SamePins s s₃ := (h₁.trans (record_pins _ _ _ _)).trans (stopRegulator_pins p s₂)
  have h₄ : SamePins s s₄ := by
    unfold s₄
    split
    · exact h₃.trans ⟨rfl, rfl⟩
    · exact h₃
  exact h₄.trans (faultHolding_contained h .regFault s₄).samePins

theorem vinIvrFails_pins (s : State) : SamePins s (vinIvrFails s) :=
  eachFin_pins (fun p t => by
    split
    · exact regulatorFault_pins p false t
    · exact .refl t) s

theorem loseBank_pins (p : Fin 64) (s : State) : SamePins s (loseBank p s) :=
  (answerWaiting_contained true p s).samePins.trans ⟨rfl, rfl⟩

theorem vgranFails_pins (s : State) : SamePins s (vgranFails s) := by
  unfold vgranFails
  refine .trans ?_ (eachFin_pins stopRegulator_pins _)
  refine .trans ?_ (eachFin_pins loseBank_pins _)
  split
  · exact .refl s
  · exact deviceFatal_pins _ s

/-- The bank has lost its contents and its waiting requests (R217). -/
def BankLost (p : Fin 64) (s : State) : Prop :=
  s.banks[p].mem = [] ∧ s.banks[p].cleared = false ∧ s.banks[p].win = []

theorem answerWaiting_banks (ep : Bool) (p : Fin 64) (s : State) :
    (answerWaiting ep p s).banks = upd s.banks p fun b => { b with win := [] } := by
  unfold answerWaiting
  extract_lets l s₁ s₂
  have h₂ : s₂.banks = s₁.banks := by
    unfold s₂
    split
    · rfl
    · simp
  refine Eq.trans (eachOf_rel (fun s t => t.banks = s.banks) (fun _ => rfl) (fun _ _ _ h k => k.trans h) _ _ _
    fun o t => ?_) h₂
  split <;> rfl

theorem loseBank_banks (p : Fin 64) (s : State) : (loseBank p s).banks = upd s.banks p fun b => { b with
    mem := [], lost := some (answerWaiting true p s).fresh, wbq := [], cleared := false, slotUnits := 0, unitsNext := 0,
    fence := false, win := [] } := by
  unfold loseBank
  refine (congrArg (fun v : Vector Bank 64 => upd v p fun b => { b with
    mem := [], lost := some (answerWaiting true p s).fresh, wbq := [], cleared := false, slotUnits := 0, unitsNext := 0,
    fence := false }) (answerWaiting_banks true p s)).trans ?_
  rw [upd_upd]

theorem vgranFails_banks (p : Fin 64) (s : State) : BankLost p (vgranFails s) ∧ (vgranFails s).plots[p].regOn = false := by
  unfold vgranFails
  dsimp only
  generalize (if s.boot.phase == .atReset then s else deviceFatal [.vgranLost] s) = u
  constructor
  · refine eachFin_keeps (BankLost p) stopRegulator (fun i t h => h) ?_
    have hlost : ∀ t, BankLost p (loseBank p t) := fun t => by
      have hb : (loseBank p t).banks[p.val] = _ := (congrArg (·[p]) (loseBank_banks p t)).trans (upd_same _ _ _)
      exact ⟨congrArg Bank.mem hb, congrArg Bank.cleared hb, congrArg Bank.win hb⟩
    refine eachFin_reaches (BankLost p) loseBank p hlost (fun i t h => ?_) u
    by_cases hi : p = i
    · exact hi ▸ hlost t
    · have hb : (loseBank i t).banks[p.val] = t.banks[p] :=
        (congrArg (·[p]) (loseBank_banks i t)).trans (upd_other _ _ _ _ hi)
      exact ⟨(congrArg Bank.mem hb).trans h.1, (congrArg Bank.cleared hb).trans h.2.1, (congrArg Bank.win hb).trans h.2.2⟩
  · have hoff : ∀ t, (stopRegulator p t).plots[p].regOn = false := fun t => congrArg Plot.regOn (upd_same _ _ _)
    refine eachFin_reaches (fun t => t.plots[p].regOn = false) stopRegulator p hoff (fun i t h => ?_) _
    by_cases hi : p = i
    · exact hi ▸ hoff t
    · exact (congrArg Plot.regOn (upd_other _ _ _ _ hi)).trans h

theorem isGood_setGood (v : Bool) (x : Pins) (u : Supply) : isGood (setGood v x u) u = v := by
  cases u with
  | vccio b => exact Vector.getElem_set_self _
  | _ => rfl

theorem isGood_dropped (x : Pins) (u : Supply) : isGood { x with corePowerGood := false } u = isGood x u := by
  cases u <;> rfl

/-- What follows once the supply u is no longer good (R996 to R999). -/
def supplyGone (u : Supply) (s : State) : State :=
  match u with
  | .vreeve => loseLatch (coldState s)
  | .vaux18 => coldState s
  | .vinIvr => vinIvrFails (dropCpg s)
  | .vgran => vgranFails (dropCpg s)
  | .vsd | .vsdt => serdesFails (dropCpg s)
  | .vfuse | .vccio _ => s

theorem supplyFail_good {s : State} {u : Supply} (h : isGood s.pins u = true) :
    exec (.supplyFail u) s = .next (supplyGone u (modPins (fun x => setGood false x u) s)) := by
  have hnot : ¬(!isGood s.pins u) = true := by
    rw [h]
    exact Bool.false_ne_true
  exact congrArg Host.Outcome.next ((if_neg hnot).trans (by cases u <;> rfl))

/-! The TAP (R976 to R979). -/

/-- The hexadecimal digits of a sum of digits. -/
theorem digit_of_sum {d : Nat → Nat} (h : ∀ i, d i < 16) (n : Nat) :
    ((List.range n).map fun i => d i * 16 ^ i).sum < 16 ^ n ∧
      ∀ k < n, ((List.range n).map fun i => d i * 16 ^ i).sum / 16 ^ k % 16 = d k := by
  induction n with
  | zero => exact ⟨Nat.one_pos, fun k hk => absurd hk (by omega)⟩
  | succ n ih =>
    obtain ⟨hlt, hdigit⟩ := ih
    rw [List.range_succ, List.map_append, List.sum_append]
    generalize ((List.range n).map fun i => d i * 16 ^ i).sum = x at hlt hdigit
    have hx : x + d n * 16 ^ n < 16 ^ (n + 1) := by
      have := Nat.mul_le_mul_right (16 ^ n) (Nat.le_of_lt_succ (h n))
      rw [pow_succ]
      omega
    refine ⟨by simpa using hx, fun k hk => ?_⟩
    have hsum : x + ([n].map fun i => d i * 16 ^ i).sum = x + d n * 16 ^ n := by simp
    rw [hsum]
    rcases Nat.lt_or_ge k n with hlow | hhigh
    · rw [← hdigit k hlow, show 16 ^ n = 16 ^ k * (16 * 16 ^ (n - k - 1)) by
        rw [← pow_succ', ← pow_add]; congr 1; omega]
      rw [show d n * (16 ^ k * (16 * 16 ^ (n - k - 1))) = 16 ^ k * (16 * (d n * 16 ^ (n - k - 1))) by ring,
        Nat.add_mul_div_left _ _ (by positivity), Nat.add_mul_mod_self_left]
    · have hk : k = n := by omega
      rw [hk, Nat.add_mul_div_right _ _ (by positivity), Nat.div_eq_of_lt hlt, Nat.zero_add, Nat.mod_eq_of_lt (h n)]

/-- BANKCFG keeps of each digit what its bank allows (Table 20-4). -/
theorem bankcfg_digit (v : BitVec 32) {k : Nat} (hk : k < 8) :
    (BitVec.ofNat 32 (bankcfgOf v.toNat)).toNat / 16 ^ k % 16 = bankStandard (k + 1) (v.toNat / 16 ^ k % 16) := by
  have hsmall : ∀ i, bankStandard (i + 1) (v.toNat / 16 ^ i % 16) < 16 := fun i => by
    unfold bankStandard
    have := Nat.mod_lt (v.toNat / 16 ^ i) (show 0 < 16 by decide)
    split_ifs <;> omega
  obtain ⟨hlt, hdigit⟩ := digit_of_sum hsmall 8
  have hfits : bankcfgOf v.toNat < 2 ^ 32 := hlt
  rw [BitVec.toNat_ofNat, Nat.mod_eq_of_lt hfits]
  exact hdigit k hk

theorem holdPins_eq (op : Byte) (s : State) :
    holdPins op s = if s.pins.maintLow then emit (.pinDrive op s.pins.tap.boundary)
        { s with pins := { s.pins with tap := { s.pins.tap with ir := op } } }
      else { s with pins := { s.pins with tap := { s.pins.tap with ir := 0xFF } } } := rfl

/-- Settles O57: no failure of a supply but a reset reaches the pins or the progress of boot (`SamePins`); the digits of BANKCFG
are judged one by one (`bankcfg_digit`). -/
theorem suppliesPinsAndTapAct : Obligations.SuppliesPinsAndTapAct := by
  unfold Obligations.SuppliesPinsAndTapAct
  refine ⟨fun s => ⟨fun u hu hwas => ?_, fun u => ?_, fun u hu => ⟨fun h => ?_, fun h => ?_, fun h => ?_, fun h => ?_⟩,
    fun h₁ h₂ h₃ h₄ => ?_, fun n => ⟨fun hn => ?_, fun hn => ?_⟩, fun low us => rfl⟩, fun s => ?_⟩
  · exact congrArg Host.Outcome.next ((if_neg (by rw [hu]; exact Bool.false_ne_true)).trans (if_pos hwas))
  · exact ⟨isGood_setGood true s.pins u, isGood_setGood false s.pins u⟩
  · rcases h with rfl | rfl
    · exact ⟨_, supplyFail_good hu, rfl, rfl, rfl, rfl, rfl⟩
    · exact ⟨_, supplyFail_good hu, rfl, rfl, rfl, rfl, rfl⟩
  · have hgone := isGood_setGood false s.pins u
    have hkept : ∀ t, SamePins (dropCpg (modPins (fun x => setGood false x u) s)) t →
        t.pins.corePowerGood = false ∧ isGood t.pins u = false ∧ t.boot.phase = s.boot.phase := fun t ht => by
      rw [ht.1]
      exact ⟨rfl, (isGood_dropped _ _).trans hgone, ht.2⟩
    rcases h with rfl | rfl | rfl | rfl
    · exact ⟨_, supplyFail_good hu, hkept _ (serdesFails_pins _)⟩
    · exact ⟨_, supplyFail_good hu, hkept _ (serdesFails_pins _)⟩
    · exact ⟨_, supplyFail_good hu, hkept _ (vgranFails_pins _)⟩
    · exact ⟨_, supplyFail_good hu, hkept _ (vinIvrFails_pins _)⟩
  · subst h
    refine ⟨_, supplyFail_good hu, fun p => ?_⟩
    obtain ⟨⟨hmem, hcleared, hwin⟩, hoff⟩ := vgranFails_banks p (dropCpg (modPins (fun x => setGood false x .vgran) s))
    exact ⟨hmem, hcleared, hwin, hoff⟩
  · rcases h with rfl | ⟨b, rfl⟩
    · exact supplyFail_good hu
    · exact supplyFail_good hu
  · exact congrArg Host.Outcome.next (if_pos (by simp [h₁, h₂, h₃, h₄]))
  · exact congrArg Host.Outcome.next (if_neg (by omega))
  · exact ⟨_, congrArg Host.Outcome.next (if_pos hn), rfl, rfl⟩
  · intro tap low holds
    have hheld : ∀ c op, exec c s = .next (holdPins op s) → holds c op := fun c op h =>
      h.trans (congrArg Host.Outcome.next (holdPins_eq op s))
    refine ⟨⟨(List.range 32).map fun i => natBit 0x14896A3D i, by simp, by decide, rfl⟩, fun v => rfl, hheld _ _ rfl,
      hheld _ _ rfl, hheld _ _ rfl, hheld _ _ rfl, hheld _ _ rfl, fun v => ⟨_, rfl, fun k hk => ?_⟩, fun op => rfl, rfl⟩
    intro asked
    rw [bankcfg_digit v hk]
    unfold bankStandard
    simp only [Nat.add_one_le_iff]
    rfl

end Sys2Proof.Machine
